-- ==== Sys2Proof/Word.lean ====
section
/-! DEFINITION. The word types of the engine's data: the manual's 8-, 16-, 32- and 64-bit quantities. -/

namespace Sys2Proof

/-- One byte of a memory or record (R10). -/
abbrev Byte := BitVec 8
/-- A 16-bit quantity. -/
abbrev Half := BitVec 16
/-- A register word, a lane register or an FP32 bit pattern. -/
abbrev Word := BitVec 32
/-- A 64-bit address or register pair (R568). -/
abbrev DWord := BitVec 64

end Sys2Proof
end

