-- ==== Sys2Proof/Syntax.lean ====
section
/-! DEFINITION. The commands of the KT-256: every row of the operation and event table is one constructor of `Instr`,
with the operands the event brings from outside, or that name the unit it happens in. -/

namespace Sys2Proof

/-- A master M0–M3 of the host register port (R133). -/
abbrev Master := Fin 4
/-- A service class, and the dispatch queue that carries it (R99). -/
abbrev Cls := Fin 4

/-- How a read or write of memory ended: data arrived, its page fault was answered with ABORT (R520), or a response was
POISON or ERROR (R758). -/
inductive ReadOutcome
  | ok | abort | unc
deriving DecidableEq, Repr

/-- How the loader's reads for validation ended, with the I/O virtual address at which they failed (R87). -/
inductive LoadRead
  | ok
  | abort (addr : DWord)
  | unc (addr : DWord)
deriving DecidableEq, Repr

/-- A unit of the engine, by the kinds of Table 38 (R113).  `quad i` is MXA Q0–Q3 for 0–3 and MXB Q0–Q3 for 4–7. -/
inductive EUnit
  | tc (i : Fin 32)
  | lc (i : Fin 16)
  | quad (i : Fin 8)
  | se (i : Fin 16)
  | mp (i : Fin 16)
  | bank (i : Fin 64)
  | plk (i : Fin 8)
  | sorter
  | query
  | hrp
deriving DecidableEq, Repr

/-- An access to I/O virtual memory that may wait on a translation; the kinds are the rows of Tables 131 and 134 (R499, R520). -/
inductive Access
  | run (se : Fin 16)
  | armDesc (se : Fin 16)
  | treelet (slot : Fin 256)
  | segment (q : Nat) (ord : Nat)
  | weights (arr : Fin 2) (batch : Nat)
  | vector (d : Nat) (blk : Nat) (item : Nat)
  | candidate (d : Nat) (blk : Nat) (pos : Nat)
  | neural (tg : Fin 8) (batch : Nat)
  | image (addr : DWord)
  | param (d : Nat)
  | asDesc (d : Nat)
  | keyset (d : Nat)
  | record (c : Cls)
  | sched (i : Fin 32)
  | completion (c : Cls)
  | lane (lc : Fin 16) (slot : Fin 64) (lanes : Word)
  | copy (lc : Fin 16) (slot : Fin 64) (ctr : Fin 8)
  | code (lc : Fin 16) (slot : Fin 64)
  | template (d : Nat) (stage : Nat)
  | tableEntry (d : Nat) (treelet : Nat)
  | layerTable (d : Nat) (stage : Nat)
  | failList (c : Cls)
  | served (node : BitVec 12) (tag : Word) (cls : Cls)
  | mailbox
deriving DecidableEq, Repr

/-- A translation response at the translation port (R759). -/
structure XlatResp where
  pa : BitVec 40
  size : Fin 4
  readOk : Bool
  writeOk : Bool
  fault : Fin 16
deriving DecidableEq, Repr

/-- The invalidation kinds of Table 132 (R506). -/
inductive InvKind
  | range | pasid | all
deriving DecidableEq, Repr

/-- An invalidation at the translation port (R506, R759); `addr` is ADDR[63:12]. -/
structure Inval where
  kind : InvKind
  addr : BitVec 52
  sizeLog2 : Nat
  pasid : BitVec 20
  pasidV : Bool
  id : Fin 8
deriving DecidableEq, Repr

/-- What a failed check shows (Table 164, R639).  Watchdogs, timeouts, peer losses, dips and thermal events have commands of
their own and raise their classes there. -/
inductive FaultCause
  | corr (u : EUnit)
  | uncData (store : Fin 7) (line : Nat) (bank : Fin 64)
  | uncCtrl (u : EUnit) (word : Half)
  | bothCopies (u : Option EUnit) (word : Half) (items : List (Nat × Nat))
  | cfgStore (word : Half) (reload : ReadOutcome)
  | spillDirty (tc : Fin 32) (entry : Nat)
  | cacheParity (tc : Fin 32) (spill : Bool) (entry : Nat) (tagOk : Bool)
  | laneState (lc : Fin 16) (slot : Fin 64) (lanes : Word)
  | wsTile (arr : Fin 2) (place : Nat)
  | xlatProtocol (iova : DWord)
deriving DecidableEq, Repr

/-- The wake sources of Table 158 (R622). -/
inductive WakeSource
  | host | tail | frame | peer | mgmt
deriving DecidableEq, Repr

/-- Who starts a WARM reset other than the input (R612). -/
inductive WarmSource
  | owner (m : Master)
  | management
deriving DecidableEq, Repr

/-- The clocks that the SoC supplies (Table 153). -/
inductive SuppliedClock
  | aon | hif | mem | plk | hrp | uart
deriving DecidableEq, Repr

/-- A peer-link packet as it arrives: the head flit of Table 183 field by field, and its payload flits (R711, R712). -/
structure Packet where
  typ : Byte
  cls : Fin 4
  rsp : Bool
  svc : Fin 4
  len : Byte
  hops : Byte
  dst : BitVec 12
  src : BitVec 12
  seq : BitVec 12
  ack : BitVec 12
  credits : List Byte
  arg : DWord
  crc : Word
  payload : List Byte
deriving DecidableEq, Repr

/-- The commands the engine takes: one constructor for each row of the table of operations and events, in the table's order; those
without an operand stand last, so that the compiler can represent every constructor. -/
inductive Instr
  /-- R85. The owner's LOAD command starts validation of the image at LDR_ADDR, or is rejected with LOAD_BUSY or STAGE_BUSY when the loader is busy. -/
  | ldrLoad (m : Master)
  /-- R85. Validation finishes: the image is staged and the loader enters HOLDING, or the first failed check is reported and the loader returns to IDLE. -/
  | validationEnd (r : LoadRead)
  /-- R93. ACTIVATE re-enters HOLDING for an image in STAGED and has no effect in any other state. -/
  | ldrActivate (m : Master)
  /-- R93. DISCARD abandons validation or discards the staged image, releases any hold and reports DISCARDED. -/
  | ldrDiscard (m : Master)
  /-- R100. The owner advances DQc_TAIL, or the write is ignored and OVERFLOW is set when it would exceed DQc_SIZE. -/
  | dqTailWrite (m : Master) (c : Cls) (v : Word)
  /-- R103. ENABLE lets the engine take records from DQc under R102. -/
  | queueEnable (m : Master) (c : Cls)
  /-- R103. PAUSE stops the taking of records from DQc while running dispatches continue. -/
  | queuePause (m : Master) (c : Cls)
  /-- R103. FLUSH takes every pending record without running it and completes each with status FLUSHED. -/
  | queueFlush (m : Master) (c : Cls)
  /-- R101. The read of the record at the head of an enabled queue completes, and the engine keeps the copy, or the queue pauses on an uncorrectable error. -/
  | dispatchRecordRead (c : Cls) (r : ReadOutcome)
  /-- R107. When the conditions of R102 hold, the engine takes the head record, advances DQc_HEAD, assigns SEQ and checks the record. -/
  | dispatchTake (c : Cls)
  /-- R106. The read of the parameter block, and of the acceleration-structure descriptor, completes and the dispatch starts, or it completes PARAM_FAULT. -/
  | paramBlockRead (d : Nat) (r : ReadOutcome) (desc : ReadOutcome)
  /-- R108. After the final records of all its items, the completion record is written in SEQ order with DONE_MARK last. -/
  | completionWrite (c : Cls)
  /-- R587. The owner's read of DONE_LOST_HI while VALID is 1 clears VALID and releases the queue's waiting completion records. -/
  | doneLostHiRead (m : Master) (c : Cls)
  /-- R119. A preempted unit reaches its preemption point, saves its state and begins class 0 work. -/
  | preemptionPoint (u : EUnit)
  /-- R123. When no class 0 work remains for a preempted unit, it restores its saved state and resumes lower-class work. -/
  | preemptReturn (u : EUnit)
  /-- R760. A frame event at the dispatch port fires the enabled standing-schedule entries that name its number. -/
  | frameEvent (n : Fin 16)
  /-- R127. The schedule entry read completes, and the entry is placed in DQc ahead of every record not yet taken. -/
  | schedEntryPlaced (i : Fin 32) (r : ReadOutcome)
  /-- R136. A master's claim opens a 256-clock election window when there is no owner; otherwise it has no effect. -/
  | ownClaim (m : Master) (id : Master)
  /-- R137. With RELEASE 0, ownership passes at once to SUCCESSOR. -/
  | ownHandover (m : Master) (succ : Master)
  /-- R137. With RELEASE 1, the owner releases ownership and the engine has no owner. -/
  | ownRelease (m : Master)
  /-- R138. The owner's write to OWN_HEARTBEAT restarts the heartbeat timer. -/
  | ownHeartbeat (m : Master) (v : Word)
  /-- R237. The ray sorter takes a ray or query, checks validity and the descriptor, writes CLASS, computes the sort key and appends the item to a treelet queue. -/
  | rayIntake (d : Nat) (stage : Nat)
  /-- R247. A pipeline whose batch is spent is given a batch of up to 256 rays from the best eligible resident queue. -/
  | batchPick (tc : Fin 32) (p : Fin 4)
  /-- R193. A pipeline pops a ray's stack entry and tests the node's child boxes, or handles a leaf or instance, pushing children or ending the ray. -/
  | nodeStep (tc : Fin 32) (p : Fin 4) (ray : Nat)
  /-- R201. The intersection block tests a ray against one triangle and passes the candidate to hit selection. -/
  | triangleTest (tc : Fin 32) (ray : Nat)
  /-- R213. A ray is suspended and its callout record is posted to a lane core of the same group. -/
  | calloutPost (tc : Fin 32) (ray : Nat)
  /-- R216. A callout reply arrives, is applied to the suspended ray's candidate, and the ray resumes or ends. -/
  | calloutReply (tc : Fin 32) (ray : Nat)
  /-- R225. A neural sample batch closes when BATCH_TIMEOUT traversal clocks have passed since its first sample, and it is sent to a quadrant or a group matrix unit. -/
  | neuralBatchTimeout (tg : Fin 8) (batch : Nat)
  /-- R224. The evaluation of a sample batch completes, and each ray finds its bracket, refines it or yields no candidate. -/
  | neuralBatchDone (tg : Fin 8) (batch : Nat) (r : ReadOutcome)
  /-- R251. The last byte of a treelet arrives and the slot becomes RESIDENT. -/
  | treeletFetchDone (slot : Fin 256) (r : ReadOutcome)
  /-- R257. The ray sorter refills a queue's spilled segments in ordinal order, two ahead of use. -/
  | segmentRefill (q : Nat) (r : ReadOutcome)
  /-- R264. The RETURN stage releases a hit record to a channel buffer, in free order or under the order hold of R267. -/
  | hitRelease (d : Nat) (stage : Nat)
  /-- R267. A held record becomes releasable when no earlier ticket of its key and dispatch remains, and it is released to channel K[1:0]. -/
  | orderHoldRelease (d : Nat) (ch : Fin 4)
  /-- R262. A channel with credit transfers one hit record with its sideband and spends one credit. -/
  | hitTransfer (ch : Fin 4)
  /-- R761. The partner returns one credit on a hit return channel. -/
  | hrCreditReturn (ch : Fin 4)
  /-- R285. The key-set descriptor read for the dispatch's first valid query completes and is checked. -/
  | keysetDescRead (d : Nat) (r : ReadOutcome)
  /-- R290. A query is walked through one key node or one key block, pushing children or inserting keys into its list. -/
  | queryNodeStep (tc : Fin 32) (p : Fin 4) (q : Nat)
  /-- R299. An open gather block closes BLOCK_TIMEOUT clocks after its first query and is appended as a gather tile. -/
  | gatherBlockTimeout (d : Nat)
  /-- R304. A quadrant finishes scoring a gather tile, and each query's SCORED top-K list and result record are written.  `lost` names
  the vector reads that failed: 4 · index + 2 for the QVEC of query `index`, 4 · index for the candidate at that position of
  UNION, 1 more for an uncorrectable error in place of an ABORT. -/
  | scoreBlockDone (d : Nat) (blk : Nat) (quad : Fin 8) (lost : List Nat)
  /-- R345. A batch of VB vectors is given to the array group that is free first. -/
  | matmulBatchAssign (d : Nat) (stage : Nat) (arr : Fin 2)
  /-- R314. A quadrant tile finishes loading into a quadrant's idle weight half. -/
  | weightHalfLoaded (arr : Fin 2) (q : Fin 4) (kslice : Nat) (nblk : Nat) (r : ReadOutcome)
  /-- R315. A SWAP step exchanges a quadrant's active and idle halves once the idle half has finished loading. -/
  | swap (arr : Fin 2) (q : Fin 4)
  /-- R316. A quadrant applies one quadrant tile to a run of vectors and accumulates each slice sum into the accumulator store. -/
  | tileStep (arr : Fin 2) (q : Fin 4) (first : Nat) (count : Nat) (bad : List Nat)
  /-- R352. The post-unit scales, biases, activates and converts a finished N-block and writes the output tiles. -/
  | postUnit (arr : Fin 2) (nblk : Nat) (r : ReadOutcome)
  /-- R365. A forming thread group closes when GATHER clocks have passed since its first thread was assigned. -/
  | groupCloseTimeout (lc : Fin 16) (form : Nat)
  /-- R374. A lane core admits a waiting group when its slots, registers, local store and callout reserve allow. -/
  | groupAdmit (lc : Fin 16) (form : Nat)
  /-- R422. A 128-byte code line arrives in the code buffer and the waiting group becomes ready. -/
  | codeLineArrive (lc : Fin 16) (addr : DWord) (r : ReadOutcome)
  /-- R429. Integer add, register or immediate form. -/
  | iadd (lc : Fin 16) (slot : Fin 64)
  /-- R429. Integer subtract. -/
  | isub (lc : Fin 16) (slot : Fin 64)
  /-- R429. Low 32 bits of an integer product. -/
  | imul (lc : Fin 16) (slot : Fin 64)
  /-- R429. High 32 bits of a signed or unsigned integer product. -/
  | imulhi (lc : Fin 16) (slot : Fin 64)
  /-- R429. Integer multiply-add. -/
  | imad (lc : Fin 16) (slot : Fin 64)
  /-- R429. Bitwise AND. -/
  | and (lc : Fin 16) (slot : Fin 64)
  /-- R429. Bitwise OR. -/
  | or (lc : Fin 16) (slot : Fin 64)
  /-- R429. Bitwise XOR. -/
  | xor (lc : Fin 16) (slot : Fin 64)
  /-- R429. Shift left. -/
  | shl (lc : Fin 16) (slot : Fin 64)
  /-- R429. Logical or arithmetic shift right. -/
  | shr (lc : Fin 16) (slot : Fin 64)
  /-- R429. Lesser of two integers. -/
  | imin (lc : Fin 16) (slot : Fin 64)
  /-- R429. Greater of two integers. -/
  | imax (lc : Fin 16) (slot : Fin 64)
  /-- R430. Integer compare that writes a predicate. -/
  | isetp (lc : Fin 16) (slot : Fin 64)
  /-- R429. Selects a source by a predicate. -/
  | sel (lc : Fin 16) (slot : Fin 64)
  /-- R429. Register move. -/
  | mov (lc : Fin 16) (slot : Fin 64)
  /-- R429. Immediate move. -/
  | movi (lc : Fin 16) (slot : Fin 64)
  /-- R429. Population count. -/
  | popc (lc : Fin 16) (slot : Fin 64)
  /-- R429. Count of leading zero bits. -/
  | clz (lc : Fin 16) (slot : Fin 64)
  /-- R429. 64-bit add of a register pair and a sign-extended operand. -/
  | iadd64 (lc : Fin 16) (slot : Fin 64)
  /-- R431. Reads a special launch value. -/
  | s2r (lc : Fin 16) (slot : Fin 64)
  /-- R431. Group vote ANY, ALL or BALLOT over a predicate. -/
  | vote (lc : Fin 16) (slot : Fin 64)
  /-- R432. Reads a register of another lane, register or immediate form. -/
  | shfl (lc : Fin 16) (slot : Fin 64)
  /-- R431. Predicate logic AND, OR or XOR. -/
  | plop (lc : Fin 16) (slot : Fin 64)
  /-- R433. FP32 add. -/
  | fadd (lc : Fin 16) (slot : Fin 64)
  /-- R433. FP32 multiply. -/
  | fmul (lc : Fin 16) (slot : Fin 64)
  /-- R433. FP32 fused multiply-add with one rounding. -/
  | ffma (lc : Fin 16) (slot : Fin 64)
  /-- R435. FP32 minimum. -/
  | fmin (lc : Fin 16) (slot : Fin 64)
  /-- R435. FP32 maximum. -/
  | fmax (lc : Fin 16) (slot : Fin 64)
  /-- R430. FP32 compare that writes a predicate. -/
  | fsetp (lc : Fin 16) (slot : Fin 64)
  /-- R433. FP32 divide. -/
  | fdiv (lc : Fin 16) (slot : Fin 64)
  /-- R436. Correctly rounded special function. -/
  | mufu (lc : Fin 16) (slot : Fin 64)
  /-- R433. Paired FP16 or BF16 add. -/
  | hadd2 (lc : Fin 16) (slot : Fin 64)
  /-- R433. Paired FP16 or BF16 multiply. -/
  | hmul2 (lc : Fin 16) (slot : Fin 64)
  /-- R433. Paired FP16 or BF16 fused multiply-add. -/
  | hfma2 (lc : Fin 16) (slot : Fin 64)
  /-- R433. FP32 multiply by an immediate. -/
  | fmuli (lc : Fin 16) (slot : Fin 64)
  /-- R433. FP32 add of an immediate. -/
  | faddi (lc : Fin 16) (slot : Fin 64)
  /-- R438. FP32 to integer conversion. -/
  | f2i (lc : Fin 16) (slot : Fin 64)
  /-- R438. Integer to FP32 conversion. -/
  | i2f (lc : Fin 16) (slot : Fin 64)
  /-- R437. FP32 to a narrow format, written into an element lane. -/
  | f2f (lc : Fin 16) (slot : Fin 64)
  /-- R437. Narrow element lane to FP32, converted exactly. -/
  | x2f (lc : Fin 16) (slot : Fin 64)
  /-- R439. Load from a GLOBAL, FIELD, LOCAL or IN space. -/
  | ld (lc : Fin 16) (slot : Fin 64)
  /-- R439. Store to a GLOBAL, FIELD or LOCAL space. -/
  | st (lc : Fin 16) (slot : Fin 64)
  /-- R382. The data of an outstanding load arrives, and the waiting lanes' destination registers are written. -/
  | loadDataReturn (lc : Fin 16) (slot : Fin 64) (unc : Word)
  /-- R443. Atomic operation in lane order at engine scope. -/
  | atom (lc : Fin 16) (slot : Fin 64)
  /-- R403. Tries to acquire a lock word without waiting and sets a per-lane success predicate. -/
  | lockTry (lc : Fin 16) (slot : Fin 64)
  /-- R404. Acquires a lock word or waits for it, raising SELF_WAIT when the holder is in the lane's own group. -/
  | lockWait (lc : Fin 16) (slot : Fin 64)
  /-- R405. When a lock word is written with 0, the first waiting lane is granted the lock. -/
  | lockRetry (space : Fin 2) (addr : DWord)
  /-- R406. Releases a held lock word with release order. -/
  | unlock (lc : Fin 16) (slot : Fin 64)
  /-- R411. Memory fence at GROUP, ENGINE or SYSTEM scope. -/
  | fence (lc : Fin 16) (slot : Fin 64)
  /-- R446. Branch with divergence under R385. -/
  | bra (lc : Fin 16) (slot : Fin 64)
  /-- R447. Indirect branch by register. -/
  | brx (lc : Fin 16) (slot : Fin 64)
  /-- R446. Branch that writes the return offset. -/
  | call (lc : Fin 16) (slot : Fin 64)
  /-- R385. Marks a reconvergence point by pushing the active mask. -/
  | rmark (lc : Fin 16) (slot : Fin 64)
  /-- R385. Reconvergence point that pops the divergence stack. -/
  | rjoin (lc : Fin 16) (slot : Fin 64)
  /-- R446. The selected lanes exit, ending their items and releasing their locks. -/
  | exit (lc : Fin 16) (slot : Fin 64)
  /-- R408. Group barrier, or DIVERGENT_BARRIER when the active mask differs from the live mask. -/
  | bar (lc : Fin 16) (slot : Fin 64)
  /-- R408. A barrier ends once every access issued before it has been performed. -/
  | barRelease (lc : Fin 16) (slot : Fin 64)
  /-- R446. No operation. -/
  | nop (lc : Fin 16) (slot : Fin 64)
  /-- R450. Starts an asynchronous copy counted on an arrival counter. -/
  | cp (lc : Fin 16) (slot : Fin 64)
  /-- R393. An asynchronous copy writes its last byte and adds 1 to DONE. -/
  | copyDone (lc : Fin 16) (slot : Fin 64) (ctr : Fin 8) (unc : Bool)
  /-- R394. Waits until a counter's outstanding copies are at most the bound. -/
  | cpwait (lc : Fin 16) (slot : Fin 64)
  /-- R451. Group 16x16x16 matrix multiply-accumulate on the group matrix unit. -/
  | mma (lc : Fin 16) (slot : Fin 64)
  /-- R400. An MMA's occupation of the group matrix unit ends and its result becomes available. -/
  | mmaComplete (lc : Fin 16)
  /-- R452. The selected lanes append records to the output queue. -/
  | emit (lc : Fin 16) (slot : Fin 64)
  /-- R453. Publishes the group's output tile. -/
  | emitT (lc : Fin 16) (slot : Fin 64)
  /-- R449. Ends the lane's item with FAIL_PROG. -/
  | failitem (lc : Fin 16) (slot : Fin 64)
  /-- R453. Reserves the group's output tile slot and returns its FIELD offset. -/
  | tout (lc : Fin 16) (slot : Fin 64)
  /-- R216. Gives the callout reply and exits the lane. -/
  | cret (lc : Fin 16) (slot : Fin 64)
  /-- R462. ARM claims the ACTIVE or SHADOW slot and reads the descriptor, or reports ARM_OVERRUN or NOT_IN_SERVICE. -/
  | seArm (m : Master) (se : Fin 16) (v : Word)
  /-- R463. The armed descriptor read completes and is checked, and the run is taken into a slot or released with BAD_DESC or DESC_FAULT. -/
  | armDescRead (se : Fin 16) (r : ReadOutcome)
  /-- R464. ABORT ends the active run with ABORTED after its issued transfers complete. -/
  | seAbort (m : Master) (se : Fin 16) (v : Word)
  /-- R464. CLEAR_SHADOW discards the shadow run without starting it. -/
  | seClearShadow (m : Master) (se : Fin 16) (v : Word)
  /-- R467. A STREAM stage places an item's template run on a qualifying engine of SE_MASK. -/
  | streamRunPlace (d : Nat) (stage : Nat) (r : ReadOutcome)
  /-- R480. A stream engine translates the next elements and issues a transfer of up to 128 sectors. -/
  | streamTransferIssue (se : Fin 16)
  /-- R481. A transfer completes, tiles become visible or are appended, and a run that has delivered its last element ends. -/
  | streamTransferDone (se : Fin 16) (t : Nat)
  /-- R492. A DICT run that waits on an empty ring reads TAIL again every DICT_POLL clocks. -/
  | dictPoll (se : Fin 16)
  /-- R473. A memory port issues one 64-byte request in a slot of the matching class while holding a tag. -/
  | memRequestIssue (mp : Fin 16) (pos : Fin 8)
  /-- R758. A KMP response frees its tag and delivers data, or reports POISON or ERROR as UNC_DATA; a stray tag is counted. -/
  | memResponse (mp : Fin 16) (tag : Fin 2048) (status : Fin 4)
  /-- R645. A request that has held a tag for 100 µs raises TIMEOUT, and its memory port is fenced. -/
  | memRequestTimeout (mp : Fin 16) (tag : Fin 2048)
  /-- R502. A micro-TLB miss sends a translation request to the IOMMU. -/
  | xlatRequest (req : Fin 64) (page : BitVec 52) (write : Bool) (acc : Access)
  /-- R500. A translation response fills a micro-TLB entry, is discarded under R509, or reports a fault. -/
  | xlatResponse (id : Fin 64) (resp : XlatResp)
  /-- R505. A translation request unanswered for 100 µs is sent once more; the second expiry is treated as a fault with reason ERROR. -/
  | xlatRequestTimeout (id : Fin 64)
  /-- R507. An IOMMU invalidation arrives and blocks the micro-TLB entries it overlaps. -/
  | invalidation (inv : Inval)
  /-- R507. When the tagged requests under the blocked entries have completed, those entries and the matching cache lines are removed and the acknowledgement is sent. -/
  | invalidationAck (id : Fin 8) (clks : Nat)
  /-- R518. RESUME closes a fault record, and its requesters translate again. -/
  | faultResume (m : Master) (slot : Fin 16)
  /-- R520. ABORT closes a fault record, and each requester ends its faulting access as Table 134 sets. -/
  | faultAbort (m : Master) (slot : Fin 16)
  /-- R521. A record open for TIMEOUT_MS is answered with ABORT by the engine itself. -/
  | faultRecordTimeout (slot : Fin 16)
  /-- R527. A write of 1 to POP removes the oldest record from the hot FIFO. -/
  | hotPop (m : Master) (v : Word)
  /-- R534. A node-cache line fill from the Treelet Store completes, and the blocked requester resumes. -/
  | ncFillDone (tc : Fin 32) (r : Fin 5)
  /-- R538. A spill-cache line fill from the Shared Field completes, and the blocked requester resumes. -/
  | spcFillDone (tc : Fin 32) (r : Fin 5)
  /-- R543. An eviction-buffer line has been written to the Shared Field and its entry frees. -/
  | evictWriteDone (tc : Fin 32)
  /-- R545. Cache maintenance CLEAN writes dirty spill lines in scope to the Shared Field. -/
  | cmClean (m : Master) (w : Word)
  /-- R546. Cache maintenance INV invalidates lines in scope, and is refused as BUSY for a spill cache that holds items. -/
  | cmInv (m : Master) (w : Word)
  /-- R545. Cache maintenance CLEAN_INV cleans and then invalidates the lines in scope. -/
  | cmCleanInv (m : Master) (w : Word)
  /-- R571. A write to a register without a row of its own, checked for size, ownership and guard, takes effect immediately or when next used. -/
  | regWrite (m : Master) (addr : BitVec 20) (size : Fin 5) (v : Word)
  /-- R572. A write to a buffered field enters the write buffer, or sets BUF_OVF, and starts the hold of R117. -/
  | bufferedWrite (m : Master) (addr : BitVec 20) (size : Fin 5) (v : Word)
  /-- R13. A read of an RC counter returns its value and clears it. -/
  | rcCounterRead (m : Master) (addr : BitVec 20)
  /-- R581. A write to KEY_UNLOCK opens the guard with the key or closes it and sets KEY_BAD. -/
  | keyUnlock (m : Master) (v : Word)
  /-- R576. DISCARD drops every pending buffered write and ends the hold. -/
  | discardPending (m : Master) (w : Word)
  /-- R578. The background scan checks configuration parity, and a failing register is reset to its reset value and captured. -/
  | cfgParityScan (addr : BitVec 20) (buffer : Bool)
  /-- R658. The owner's FENCE command fences a unit with the fault sequence and opens a recovery window. -/
  | rasFenceCmd (m : Master) (w : Word)
  /-- R658. The owner's RETURN command wipes a unit it fenced and returns it to service, or is refused. -/
  | rasReturnCmd (m : Master) (w : Word)
  /-- R646. A failed check, watchdog expiry or declared loss captures a fault and, if the fault fences, opens the recovery window. -/
  | faultDetected (f : FaultCause)
  /-- R646. The fenced unit's requests have drained, and the unit leaves service. -/
  | fenceComplete (u : EUnit)
  /-- R646. Every item of the fenced unit is held by a peer or has ended, schedules are recomputed, and the recovery hold begins. -/
  | fullService (u : EUnit)
  /-- R644. A unit that holds work but completes no step for WD_MS raises TIMEOUT and is fenced. -/
  | unitWatchdog (u : EUnit)
  /-- R641. The scrub visits store lines and writes back corrected ones. -/
  | scrub (store : Fin 4) (line : Nat) (corrected : Bool)
  /-- R666. Every 4 active hours the path-delay monitors are read, and V_ADJ or the ageing cap is raised. -/
  | ageingInterval (readings : List (List Nat))
  /-- R671. MEASURE reads every domain's monitors at once, as at an ageing interval. -/
  | ageMeasure (m : Master) (v : Word) (readings : List (List Nat))
  /-- R595. CLEAR sets every performance counter and PC_OVF to 0. -/
  | pcClear (m : Master) (w : Word)
  /-- R607. A write to CP_OP_REQ begins an operating-point change of the domains whose target moves. -/
  | opRequest (m : Master) (v : Word)
  /-- R611. A guarded write to CP_OP_OVR sets or removes the override of the owner's and thermal OP. -/
  | opOverride (m : Master) (v : Word)
  /-- R756. The supply acknowledges a voltage request, and the domain's clock switch proceeds. -/
  | vackToggle (rail : Fin 11)
  /-- R609. A domain's clock switch completes, and the change sequence moves to the next domain. -/
  | clockSwitchDone (dom : Fin 11)
  /-- R606. A domain turned on at an epoch finishes its wipe, and its units enter service. -/
  | domainInService (dom : Fin 30)
  /-- R619. REQ = NAP requests entry to NAP and holds class 1 to 3 dispatches. -/
  | lpReqNap (m : Master) (w : Word)
  /-- R619. REQ = SLEEP requests entry to SLEEP and holds class 1 to 3 dispatches. -/
  | lpReqSleep (m : Master) (w : Word)
  /-- R619. REQ = RUN cancels a pending entry or wakes the engine. -/
  | lpReqRun (m : Master) (w : Word)
  /-- R622. An enabled wake source wakes the engine from NAP or SLEEP and records LAST_WAKE. -/
  | wake (src : WakeSource)
  /-- R614. SOFT stops new requests and flits, drains memory and resets every domain except PD_AON and PD_MGT. -/
  | softReset (m : Master) (w : Word)
  /-- R612. A WARM reset from the owner or the input drains memory and resets every domain. -/
  | warmReset (src : WarmSource) (w : Word)
  /-- R616. RST_DOMAIN GO requests a reset of one domain at the next engine epoch, or sets DOM_REJ. -/
  | domainResetRequest (m : Master) (w : Word)
  /-- R616. The domain's wipe ends, its units return to service, and DOM_DONE sets. -/
  | domainResetDone (dom : Fin 30)
  /-- R754. Assertion of POR_N resets the whole engine, and its release begins the start-up sequence. -/
  | por (strap : BitVec 12)
  /-- R754. Assertion of WARM_N starts a WARM reset, and its release begins start-up at step 2. -/
  | warmInput (strap : BitVec 12)
  /-- R615. Start-up reaches step 7: the register port opens, PRESENT rises, and INT_OWNER is asserted. -/
  | startupComplete (failed : List EUnit) (age : List (List (List Nat)))
  /-- R699. A guarded LCY_REQ write is checked against Table 176 and is accepted or refused. -/
  | lifecycleRequest (m : Master) (v : Word)
  /-- R630. A guarded WIPE_CTRL GO schedules a wipe of the named stores at the next engine epoch. -/
  | wipeRequest (m : Master) (w : Word)
  /-- R632. A supply below the warning level puts its domain at half rate and raises a SUPPLY fault. -/
  | supplyDip (dom : Fin 30)
  /-- R633. After 10 µs above the warning level the domain returns to full rate. -/
  | supplyRecover (dom : Fin 30) (clks : Nat)
  /-- R598. A supplied clock moves to a new frequency within its range, and rates follow it. -/
  | suppliedClockChange (clk : SuppliedClock) (khz : Nat)
  /-- R685. The mailbox command checks an image and writes it into the slot that is not running. -/
  | fwUpdate (m : Master) (r : ReadOutcome) (flashOk : Bool)
  /-- R686. The mailbox command appends a TRY record and performs a WARM reset, or ends NOT_STAGED. -/
  | fwActivate (m : Master)
  /-- R709. The mailbox command copies committed log entries to memory. -/
  | logCopy (m : Master) (r : ReadOutcome)
  /-- R700. The key command installs a development public key in an EMPTY slot. -/
  | installDev (m : Master) (slot : Fin 4)
  /-- R700. The key command installs a production public key in an EMPTY slot. -/
  | installProd (m : Master) (slot : Fin 4)
  /-- R700. The key command makes a slot REVOKED, unless refused. -/
  | revoke (m : Master) (slot : Fin 4)
  /-- R688. A buffered log entry is programmed to flash, with sector erase ahead of the cursor. -/
  | logProgram (ok : Bool)
  /-- R693. Every 1 ms the thermal loop moves each domain's thermal limit by one OP as its hottest sensor requires. -/
  | thermalLoopTick (temps : List (BitVec 16))
  /-- R694. A sensor reaching TRIP starts a change of every domain to OP5 and asserts THERM_ALERT. -/
  | thermalTrip (sensor : Fin 24) (temp : BitVec 16)
  /-- R695. The power-cap loop lowers or raises array and traversal-group limits by one OP. -/
  | powerCapTick (mw : Nat)
  /-- R696. After 10 s without a dip the brown-out limit rises by one OP. -/
  | brownoutRecover (dom : Fin 30)
  /-- R703. The monitor receives an input line, held up to 256 B, and answers an overrun or a line too long with an error. -/
  | monLine (text : List Byte) (lost : Bool)
  /-- R706. Monitor peek reads up to 64 words. -/
  | monPeek (addr : BitVec 20) (n : Nat)
  /-- R706. Monitor poke writes one word as MON_MASTER. -/
  | monPoke (addr : BitVec 20) (v : Word)
  /-- R706. Monitor log prints the last n committed entries. -/
  | monLog (n : Nat)
  /-- R706. Monitor fence writes KEY_UNLOCK and RAS_FENCE and reports RESULT. -/
  | monFence (kind : Nat) (index : Nat)
  /-- R706. Monitor fence return writes KEY_UNLOCK and a RETURN command. -/
  | monFenceReturn (kind : Nat) (index : Nat)
  /-- R708. Monitor own auth sig verifies the signature and unlocks the monitor. -/
  | monOwnAuthSig (sig : List Byte)
  /-- R706. Monitor op writes CP_OP_REQ. -/
  | monOp (n : Nat)
  /-- R716. An enabled port in DOWN sends INIT every 1 ms. -/
  | plkInitSend (port : Fin 8)
  /-- R716. A received INIT records the partner, resets the link state and brings the port to INIT or UP, or to DUP_NODE. -/
  | plkInit (port : Fin 8) (p : Packet)
  /-- R718. A received GOODBYE puts the port in DOWN and replays the partner's items without a fence. -/
  | plkGoodbye (port : Fin 8) (p : Packet)
  /-- R724. A received KEEPALIVE restarts the partner-loss count. -/
  | plkKeepalive (port : Fin 8) (p : Packet)
  /-- R721. A received ACK frees covered packets from the replay buffer and returns credits. -/
  | plkAck (port : Fin 8) (p : Packet)
  /-- R721. A received NAK resends every packet from the named SEQ; the 16th NAK in a row for one SEQ loses the port. -/
  | plkNak (port : Fin 8) (p : Packet)
  /-- R731. A received RAY packet is forwarded, or queued as a guest ray and acknowledged. -/
  | plkRay (port : Fin 8) (p : Packet)
  /-- R734. A received RAY_ACK frees the sender's queue entry. -/
  | plkRayAck (port : Fin 8) (p : Packet)
  /-- R734. A received HIT is appended at the origin as the TRAVERSE output, or discarded as a duplicate. -/
  | plkHit (port : Fin 8) (p : Packet)
  /-- R731. A received QUERY packet is forwarded, or queued as a guest query and acknowledged. -/
  | plkQuery (port : Fin 8) (p : Packet)
  /-- R733. A received QRES delivers a query's result at the origin. -/
  | plkQres (port : Fin 8) (p : Packet)
  /-- R735. A received UNREACHABLE ends the refused item with FAIL_LINK, or ends a window read. -/
  | plkUnreachable (port : Fin 8) (p : Packet)
  /-- R737. A received RREAD is performed as a service request in the remote slots and answered with RDATA. -/
  | plkRread (port : Fin 8) (p : Packet) (r : ReadOutcome)
  /-- R737. A received RDATA delivers a remote window read or reports its failure. -/
  | plkRdata (port : Fin 8) (p : Packet)
  /-- R743. The multicast source records a request and serves the model's resident tiles, or answers MC_NAK. -/
  | plkMcReq (port : Fin 8) (p : Packet)
  /-- R744. A member writes a received multicast tile part into its Weight Store place. -/
  | plkMcTile (port : Fin 8) (p : Packet)
  /-- R744. A member fetches the tiles it lacks itself. -/
  | plkMcNak (port : Fin 8) (p : Packet)
  /-- R746. A received EVENT fires standing-schedule entries and is a PEER wake source. -/
  | plkEvent (port : Fin 8) (p : Packet)
  /-- R701. A received TELEM_REQ is answered with TELEM within 1 ms. -/
  | plkTelemReq (port : Fin 8) (p : Packet)
  /-- R747. A telemetry record from a peer is received. -/
  | plkTelem (port : Fin 8) (p : Packet)
  /-- R747. A peer subscribes or unsubscribes, and a subscription beyond 8 is counted. -/
  | plkSubscribe (port : Fin 8) (p : Packet)
  /-- R739. A received NODE_LOST marks the named node lost and replays or ends the items that depend on it. -/
  | plkNodeLost (port : Fin 8) (p : Packet)
  /-- R714. A packet of an unlisted TYPE is discarded and counted in PLK_DISCARDS. -/
  | plkUnknownType (port : Fin 8) (p : Packet)
  /-- R719. A port that has sent no head flit for 64 clocks sends an ACK. -/
  | plkAckTimer (port : Fin 8)
  /-- R724. An UP port sends KEEPALIVE every 2,048 clocks. -/
  | plkKeepaliveSend (port : Fin 8)
  /-- R739. 8,192 clocks without a KEEPALIVE declare the partner lost, fence the port and send NODE_LOST. -/
  | partnerLost (port : Fin 8)
  /-- R746. A write to PLK_EVT_SEND sends an EVENT packet to one node or to every routed node. -/
  | plkEvtSend (m : Master) (v : Word)
  /-- R744. No MC_TILE arrives for MC_TIMEOUT µs, and the member fetches the tiles it lacks. -/
  | mcTimeout (model : Nat)
  /-- R762. PLp_LANE_UP changes, enabling or stopping the sending of flits on the port. -/
  | laneUpChange (port : Fin 8) (up : Bool)
  /-- R721. A received sequenced packet whose CRC fails or whose SEQ is not the one expected is discarded with every later packet until the expected SEQ arrives, one NAK is sent, and PLK_CRC_ERR and a CORR fault are counted. -/
  | plkCrcErr (port : Fin 8) (p : Packet)
  /-- R421. A group issues an instruction word whose OPC is absent from the tables, and ILLEGAL with cause BAD_OPCODE is raised in every active lane. -/
  | undefinedWord (lc : Fin 16) (slot : Fin 64)
  /-- R658. The wipe of a unit returned by the owner ends within 50 µs, the unit re-enters service, GO clears and RESULT reads OK. -/
  | returnedToService (u : EUnit)
  /-- R89. The first engine epoch in HOLDING starts SWITCHING, which copies the configuration, invalidates the stores and clears the ZERO_ON_ACTIVATE regions. -/
  | imageEpoch
  /-- R89. The end of SWITCHING releases the hold, sets IDLE, reports the new IMAGE_ID, raises INT_DONE and begins fetching resident weights. -/
  | switchingEnd
  /-- R92. When LDR_ACT_TIMEOUT expires in HOLDING, the hold is released, the loader enters STAGED and ACT_TIMEOUT is reported. -/
  | actTimeout
  /-- R117. At an engine epoch the pending buffered writes are applied in order, and the hold of R117 ends. -/
  | engineEpoch
  /-- R117. When no engine epoch comes within LDR_ACT_TIMEOUT, the hold is released and EPOCH_WAIT is set. -/
  | epochHoldTimeout
  /-- R136. At the end of the claim window, ownership goes to the lowest claiming ID and the heartbeat timer starts. -/
  | claimWindowEnd
  /-- R138. When TIMEOUT_MS passes without a heartbeat, the engine releases ownership and sets TIMED_OUT. -/
  | heartbeatTimeout
  /-- R248. The ray sorter fetches the best needed treelet into a free or evicted slot and invalidates that slot's node-cache lines. -/
  | treeletFetchIssue
  /-- R254. When the free RAYQ segments fall below SPILL_LOW, a victim queue segment is spilled to memory. -/
  | segmentSpill
  /-- R526. Every DECAY_MS, all hot-page counts are halved and low entries clear FLAGGED. -/
  | hotDecay
  /-- R547. A maintenance operation completes; GO clears and DONE sets with RESULT. -/
  | cmOpDone
  /-- R662. At the first engine epoch under the recovery hold, writes and bank layouts are applied and the EPOCH_FENCE record is written. -/
  | recoveryEpoch
  /-- R662. When no epoch comes within LDR_ACT_TIMEOUT, the recovery hold is released and LATE is set. -/
  | recoveryHoldTimeout
  /-- R619. At the first qualifying engine epoch the engine applies pending writes and enters the requested low-power state. -/
  | lpEntry
  /-- R623. The wake ends, wiped memories are ready, and the waking event is acted on. -/
  | wakeComplete
  /-- R613. Every tagged memory request has completed, PRESENT falls, and the reset proceeds. -/
  | resetDrainDone
  /-- R614. The SOFT reset ends, SOFT clears, CAUSE reads SOFT and PRESENT rises. -/
  | softResetEnd
  /-- R699. The fuse change ends and the LIFECYCLE reset follows. -/
  | lifecycleCommit
  /-- R629. A wipe completes, GO clears, and DONE sets. -/
  | wipeDone
  /-- R675. The 1 s management watchdog expires and restarts the processor from its boot ROM. -/
  | mgtWatchdog
  /-- R682. The boot code chooses, verifies and starts a firmware slot from the boot records. -/
  | firmwareBoot
  /-- R684. Trial firmware that has not confirmed within 2 s causes a WARM reset. -/
  | trialTimeout
  /-- R684. Trial firmware writes its confirming record, and the SVN counter is raised. -/
  | trialConfirm
  /-- R709. A mailbox command ends: BUSY clears, DONE sets with RESULT, and INT_MGMT is raised. -/
  | mailboxDone
  /-- R700. A key command ends with its result and sets KEY_DONE. -/
  | keyCommandDone
  /-- R694. After 100 ms below LIMIT − 5 °C the trip ends and THERM_ALERT falls. -/
  | thermalTripEnd
  /-- R701. Every PERIOD_MS the telemetry record is sent to each subscribed peer. -/
  | telemetryPush
  /-- R706. Monitor stat reports lifecycle, owner, OPs, limits, fences and firmware. -/
  | monStat
  /-- R706. Monitor sens prints every sensor, supply and the power estimate. -/
  | monSens
  /-- R706. Monitor trace on prints each log entry as it is written. -/
  | monTraceOn
  /-- R706. Monitor trace off stops the tracing of log entries. -/
  | monTraceOff
  /-- R706. Monitor own shows ownership. -/
  | monOwn
  /-- R706. Monitor own claim writes OWN_CLAIM as MON_MASTER. -/
  | monOwnClaim
  /-- R706. Monitor own release writes OWN_HANDOVER with RELEASE 1. -/
  | monOwnRelease
  /-- R706. Monitor own hb writes OWN_HEARTBEAT. -/
  | monOwnHb
  /-- R708. Monitor own auth answers CHAL with a fresh nonce. -/
  | monOwnAuth
  /-- R708. Monitor own lock ends the unlock. -/
  | monOwnLock
  /-- R706. Monitor help lists the commands allowed now. -/
  | monHelp
  /-- R619. Entry to NAP or SLEEP ends within 5 or 10 µs after its engine epoch, and STATE moves from ENTERING to NAP or SLEEP. -/
  | lowPowerEntryEnd
deriving DecidableEq, Repr

end Sys2Proof
end

