-- ==== Sys2Proof/Machine/Bits.lean ====
section
/-! DEFINITION. Bit fields, signed readings and byte orders of the manual's numbers (R9, R10), as arithmetic on `Nat`
and `Int`, which Lean's kernel evaluates. -/

namespace Sys2Proof.Machine

/-- Bits [lo + w − 1 : lo] of `v`, shifted down (R9). -/
def bits (v lo w : Nat) : Nat := (v >>> lo) % 2 ^ w

/-- Bit `i` of `v` as a Boolean. -/
def bit (v i : Nat) : Bool := v.testBit i

/-- `v` with bit `i` set to `b`. -/
def withBit (v i : Nat) (b : Bool) : Nat :=
  if v.testBit i = b then v else if b then v + 2 ^ i else v - 2 ^ i

/-- The two's-complement reading of the low `w` bits of `v`. -/
def signed (w v : Nat) : Int :=
  let u := v % 2 ^ w
  if u < 2 ^ (w - 1) then (u : Int) else (u : Int) - 2 ^ w

/-- The `w`-bit two's-complement pattern of an integer: the value modulo 2^w. -/
def wrap (w : Nat) (i : Int) : Nat := (i % (2 ^ w : Int)).toNat

/-- The nearest integer to `i` that a `w`-bit two's-complement number holds. -/
def satSigned (w : Nat) (i : Int) : Int :=
  let top : Int := 2 ^ (w - 1)
  if i < -top then -top else if i ≥ top then top - 1 else i

/-- A 0 or 1 from a Boolean. -/
def boolNat (b : Bool) : Nat := if b then 1 else 0

/-- The number of 1 bits among the low `w` bits of `v`. -/
def popCount (w v : Nat) : Nat := (List.range w).foldl (fun n i => n + boolNat (v.testBit i)) 0

/-- The indices of the 1 bits among the low `w` bits of `v`, rising. -/
def bitsOf (w v : Nat) : List Nat := (List.range w).filter v.testBit

/-- The lowest 1 bit among the low `w` bits of `v`. -/
def lowestBit (w v : Nat) : Option Nat := (List.range w).find? v.testBit

/-- The mask whose 1 bits are the members of `l`. -/
def maskOf (l : List Nat) : Nat := l.foldl (fun m i => withBit m i true) 0

/-- The little-endian value of a list of bytes (R10). -/
def leVal : List Byte → Nat
  | [] => 0
  | b :: r => b.toNat + 256 * leVal r

/-- The `n` little-endian bytes of a value (R10). -/
def leBytes : Nat → Nat → List Byte
  | 0, _ => []
  | n + 1, v => BitVec.ofNat 8 v :: leBytes n (v / 256)

/-- The number of the highest 1 bit plus 1, and 0 for 0. -/
def bitLen (v : Nat) : Nat := if v = 0 then 0 else Nat.log2 v + 1

/-- A list without its repeats, keeping first places. -/
def dedup (l : List Nat) : List Nat := l.foldl (fun a x => if a.contains x then a else a ++ [x]) []

/-- The list with the element at place `i` replaced by `f` of it. -/
def modifyAt {α : Type} (f : α → α) : Nat → List α → List α
  | _, [] => []
  | 0, x :: r => f x :: r
  | i + 1, x :: r => x :: modifyAt f i r

/-- The element of `l` that is least by `lt`, the earlier one on a tie. -/
def leastBy {α : Type} (lt : α → α → Bool) : List α → Option α
  | [] => none
  | x :: r =>
    match leastBy lt r with
    | none => some x
    | some y => if lt y x then some y else some x

/-- The CRC step over one byte: `poly` reflected, register `crc`, 8 shifts to the right. -/
def crcByteReflected (poly crc : Nat) (b : Byte) : Nat :=
  (List.range 8).foldl (fun c _ => if c % 2 = 1 then (c >>> 1) ^^^ poly else c >>> 1) (crc ^^^ b.toNat)

/-- CRC-32C of a list of bytes: reflected polynomial 0x82F6_3B78, initial value and final complement all ones. -/
def crc32c (l : List Byte) : Nat := (l.foldl (crcByteReflected 0x82F63B78) 0xFFFFFFFF) ^^^ 0xFFFFFFFF

end Sys2Proof.Machine
end

