-- ==== Sys2Proof/Machine/Float.lean ====
section
/-! DEFINITION. The number formats and their exact arithmetic (R16, R433–R438 and the formats of "Matrix Arrays and
Numerics"): a bit pattern decodes to an exact value, operations are exact, and one rounding gives the result's pattern. -/

namespace Sys2Proof.Machine

/-- How a format uses its largest exponent: infinities and NaNs as IEEE 754, one NaN and no infinity (E4M3), or numbers only. -/
inductive FTop
  | ieee
  | nanOnly
  | finite
deriving DecidableEq, Repr

/-- A binary floating-point format: exponent and mantissa widths, bias, the use of the top exponent, and its NaN pattern. -/
structure FFmt where
  ebits : Nat
  mbits : Nat
  bias : Nat
  top : FTop
  nanBits : Nat
deriving DecidableEq, Repr

def fp32 : FFmt := ⟨8, 23, 127, .ieee, 0x7FC00000⟩
def fp16 : FFmt := ⟨5, 10, 15, .ieee, 0x7E00⟩
def bf16 : FFmt := ⟨8, 7, 127, .ieee, 0x7FC0⟩
def e4m3 : FFmt := ⟨4, 3, 7, .nanOnly, 0x7F⟩
def e5m2 : FFmt := ⟨5, 2, 15, .ieee, 0x7E⟩
def e2m1 : FFmt := ⟨2, 1, 1, .finite, 0⟩
def e2m3 : FFmt := ⟨2, 3, 1, .finite, 0⟩
def e3m2 : FFmt := ⟨3, 2, 3, .finite, 0⟩

/-- An exact dyadic number n · 2^e. -/
structure Dy where
  n : Int
  e : Int
deriving DecidableEq, Repr

/-- 2^k for a signed exponent, 1 below 0. -/
def pow2 (k : Int) : Nat := 2 ^ k.toNat

/-- The sum of two dyadic numbers, exact. -/
def Dy.add (a b : Dy) : Dy :=
  if a.e ≤ b.e then ⟨a.n + b.n * (pow2 (b.e - a.e) : Int), a.e⟩
  else ⟨a.n * (pow2 (a.e - b.e) : Int) + b.n, b.e⟩

/-- The product of two dyadic numbers, exact. -/
def Dy.mul (a b : Dy) : Dy := ⟨a.n * b.n, a.e + b.e⟩

/-- The negative. -/
def Dy.neg (a : Dy) : Dy := ⟨-a.n, a.e⟩

/-- The difference, exact. -/
def Dy.sub (a b : Dy) : Dy := a.add b.neg

/-- The dyadic number of an integer. -/
def Dy.int (n : Int) : Dy := ⟨n, 0⟩

/-- The absolute value. -/
def Dy.abs (a : Dy) : Dy := ⟨(a.n.natAbs : Int), a.e⟩

/-- a ≤ b, exact. -/
def Dy.le (a b : Dy) : Bool := decide ((a.sub b).n ≤ 0)

/-- a < b, exact. -/
def Dy.lt (a b : Dy) : Bool := decide ((a.sub b).n < 0)

/-- The floor of a dyadic number. -/
def Dy.floor (a : Dy) : Int :=
  if a.e ≥ 0 then a.n * (pow2 a.e : Int) else a.n / (pow2 (-a.e) : Int)

/-- The value of a bit pattern: NaN, a signed infinity, or a signed finite m · 2^e (zeros keep their sign). -/
inductive Fv
  | nan
  | inf (neg : Bool)
  | fin (neg : Bool) (m : Nat) (e : Int)
deriving DecidableEq, Repr

/-- The value of a pattern in a format. -/
def decF (f : FFmt) (x : Nat) : Fv :=
  let m := bits x 0 f.mbits
  let e := bits x f.mbits f.ebits
  let s := bit x (f.mbits + f.ebits)
  let top := 2 ^ f.ebits - 1
  if e = top ∧ f.top = .ieee then (if m = 0 then .inf s else .nan)
  else if e = top ∧ f.top = .nanOnly ∧ m = 2 ^ f.mbits - 1 then .nan
  else if e = 0 then .fin s m (1 - (f.bias : Int) - f.mbits)
  else .fin s (m + 2 ^ f.mbits) ((e : Int) - f.bias - f.mbits)

/-- Whether a pattern is a NaN. -/
def isNan (f : FFmt) (x : Nat) : Bool := match decF f x with | .nan => true | _ => false

/-- Whether a pattern is finite. -/
def isFin (f : FFmt) (x : Nat) : Bool := match decF f x with | .fin _ _ _ => true | _ => false

/-- The exact dyadic value of a finite value; 0 otherwise. -/
def Fv.dy : Fv → Dy
  | .fin s m e => ⟨if s then -(m : Int) else m, e⟩
  | _ => ⟨0, 0⟩

/-- The exact value of a finite pattern. -/
def valF (f : FFmt) (x : Nat) : Dy := (decF f x).dy

/-- The exact FP32 value of a finite pattern. -/
def val32 (x : Nat) : Dy := valF fp32 x

/-- The pattern of a signed infinity of an IEEE format. -/
def infBits (f : FFmt) (neg : Bool) : Nat :=
  (if neg then 2 ^ (f.ebits + f.mbits) else 0) + (2 ^ f.ebits - 1) * 2 ^ f.mbits

/-- The pattern of the largest finite value, with sign. -/
def maxBits (f : FFmt) (neg : Bool) : Nat :=
  (if neg then 2 ^ (f.ebits + f.mbits) else 0) +
    (match f.top with
     | .ieee => (2 ^ f.ebits - 1) * 2 ^ f.mbits - 1
     | .nanOnly => 2 ^ (f.ebits + f.mbits) - 2
     | .finite => 2 ^ (f.ebits + f.mbits) - 1)

/-- The pattern of a signed zero. -/
def zeroBits (f : FFmt) (neg : Bool) : Nat := if neg then 2 ^ (f.ebits + f.mbits) else 0

/-- Whether the magnitude q + r/b (r < b) rounds up: direction 0 nearest even, 1 toward zero, 2 toward +∞, 3 toward −∞. -/
def roundsUp (rm : Nat) (neg : Bool) (q r b : Nat) : Bool :=
  match rm with
  | 0 => decide (2 * r > b) || (decide (2 * r = b) && decide (q % 2 = 1))
  | 1 => false
  | 2 => !neg && decide (r ≠ 0)
  | _ => neg && decide (r ≠ 0)

/-- ⌊log2 (num / den)⌋ for positive num and den. -/
def log2Ratio (num den : Nat) : Int :=
  let k : Int := (bitLen num : Int) - bitLen den
  if num * pow2 (-k) ≥ den * pow2 k then k else k - 1

/-- The magnitude pattern of (num / den) · 2^e rounded once, for num > 0, before any overflow is looked at. -/
def roundMag (f : FFmt) (rm : Nat) (neg : Bool) (num den : Nat) (e : Int) : Nat :=
  let k := log2Ratio num den + e
  let emin : Int := 1 - (f.bias : Int)
  let q := (if k < emin then emin else k) - f.mbits
  let a := num * pow2 (e - q)
  let b := den * pow2 (q - e)
  let m := a / b + boolNat (roundsUp rm neg (a / b) (a % b) b)
  if m < 2 ^ f.mbits then m
  else
    let ex := (q + f.mbits + f.bias).toNat
    if m = 2 ^ (f.mbits + 1) then (ex + 1) * 2 ^ f.mbits else ex * 2 ^ f.mbits + (m - 2 ^ f.mbits)

/-- The pattern of ± (num / den) · 2^e rounded once to a format; `sat` makes an overflow saturate in every direction, as E4M3
and the number-only formats always do. -/
def roundF (f : FFmt) (rm : Nat) (sat neg : Bool) (num den : Nat) (e : Int) : Nat :=
  if num = 0 then zeroBits f neg else
  let mag := roundMag f rm neg num den e
  if mag > maxBits f false then
    (if sat || f.top != .ieee then maxBits f neg
     else match rm with
       | 0 => infBits f neg
       | 1 => maxBits f neg
       | 2 => if neg then maxBits f neg else infBits f neg
       | _ => if neg then infBits f neg else maxBits f neg)
  else zeroBits f neg + mag

/-- Whether a value overflows a format when rounded to nearest; an infinity does. -/
def overF (f : FFmt) (v : Fv) : Bool :=
  match v with
  | .nan => false
  | .inf _ => true
  | .fin s m e => m != 0 && decide (roundMag f 0 s m 1 e > maxBits f false)

/-- A dyadic number rounded once; an exact zero takes the sign `zneg`. -/
def roundDy (f : FFmt) (rm : Nat) (zneg : Bool) (d : Dy) : Nat :=
  if d.n = 0 then zeroBits f zneg else roundF f rm false (decide (d.n < 0)) d.n.natAbs 1 d.e

/-- A quotient of dyadic numbers, rounded once; the divisor is not 0. -/
def roundQuot (f : FFmt) (rm : Nat) (a b : Dy) : Nat :=
  let neg := decide (a.n < 0) != decide (b.n < 0)
  roundF f rm false neg a.n.natAbs b.n.natAbs (a.e - b.e)

/-- Conversion of a value to a format (R437): NaN to the format's NaN, an infinity to infinity or, saturating, to the largest
finite value. -/
def convF (f : FFmt) (rm : Nat) (sat : Bool) (v : Fv) : Nat :=
  match v with
  | .nan => f.nanBits
  | .inf s => if sat || f.top != .ieee then maxBits f s else infBits f s
  | .fin s m e => roundF f rm sat s m 1 e

/-- The sign that an exact zero sum takes: that of two zeros of one sign, else + except toward −∞. -/
def zeroSum (rm : Nat) (s t : Bool) : Bool := if s = t then s else decide (rm = 3)

/-- A + B (R433). -/
def fAdd (f : FFmt) (rm a b : Nat) : Nat :=
  match decF f a, decF f b with
  | .nan, _ => f.nanBits
  | _, .nan => f.nanBits
  | .inf s, .inf t => if s = t then infBits f s else f.nanBits
  | .inf s, _ => infBits f s
  | _, .inf t => infBits f t
  | .fin s m e, .fin t n g => roundDy f rm (zeroSum rm s t) ((Fv.fin s m e).dy.add (Fv.fin t n g).dy)

/-- A × B (R433). -/
def fMul (f : FFmt) (rm a b : Nat) : Nat :=
  match decF f a, decF f b with
  | .nan, _ => f.nanBits
  | _, .nan => f.nanBits
  | .inf s, .inf t => infBits f (s != t)
  | .inf s, .fin t n _ => if n = 0 then f.nanBits else infBits f (s != t)
  | .fin s m _, .inf t => if m = 0 then f.nanBits else infBits f (s != t)
  | .fin s m e, .fin t n g => roundF f rm false (s != t) (m * n) 1 (e + g)

/-- A × B + C of values with one rounding. -/
def fmaV (f : FFmt) (rm : Nat) (a b c : Fv) : Nat :=
  match a, b, c with
  | .nan, _, _ => f.nanBits
  | _, .nan, _ => f.nanBits
  | _, _, .nan => f.nanBits
  | .fin s m e, .fin t n g, .fin u k h =>
    roundDy f rm (zeroSum rm (s != t) u) (((Fv.fin s m e).dy.mul (Fv.fin t n g).dy).add (Fv.fin u k h).dy)
  | .fin _ _ _, .fin _ _ _, .inf u => infBits f u
  | va, vb, vc =>
    let sp := (match va with | .inf s => s | .fin s _ _ => s | .nan => false) !=
      (match vb with | .inf s => s | .fin s _ _ => s | .nan => false)
    let zeroTimesInf := match va, vb with
      | .inf _, .fin _ n _ => decide (n = 0)
      | .fin _ m _, .inf _ => decide (m = 0)
      | _, _ => false
    if zeroTimesInf then f.nanBits
    else match vc with
      | .inf u => if u = sp then infBits f u else f.nanBits
      | _ => infBits f sp

/-- A × B + C with one rounding (R433). -/
def fFma (f : FFmt) (rm a b c : Nat) : Nat := fmaV f rm (decF f a) (decF f b) (decF f c)

/-- A ÷ B (R433). -/
def fDiv (f : FFmt) (rm a b : Nat) : Nat :=
  match decF f a, decF f b with
  | .nan, _ => f.nanBits
  | _, .nan => f.nanBits
  | .inf _, .inf _ => f.nanBits
  | .inf s, .fin t _ _ => infBits f (s != t)
  | .fin s _ _, .inf t => zeroBits f (s != t)
  | .fin s m e, .fin t n g =>
    if n = 0 then (if m = 0 then f.nanBits else infBits f (s != t))
    else roundF f rm false (s != t) m n (e - g)

/-- The order of two non-NaN values: less, equal or greater as −1, 0, 1; −0 equals +0. -/
def cmpF (f : FFmt) (a b : Nat) : Int :=
  match decF f a, decF f b with
  | .inf s, .inf t => if s = t then 0 else if s then -1 else 1
  | .inf s, _ => if s then -1 else 1
  | _, .inf t => if t then 1 else -1
  | x, y => (x.dy.sub y.dy).n.sign

/-- a < b for non-NaN patterns. -/
def ltF (f : FFmt) (a b : Nat) : Bool := !isNan f a && !isNan f b && decide (cmpF f a b < 0)

/-- a ≤ b for non-NaN patterns. -/
def leF (f : FFmt) (a b : Nat) : Bool := !isNan f a && !isNan f b && decide (cmpF f a b ≤ 0)

/-- a = b for non-NaN patterns. -/
def eqF (f : FFmt) (a b : Nat) : Bool := !isNan f a && !isNan f b && decide (cmpF f a b = 0)

/-- The lesser of two values: −0 below +0, a single NaN gives the other operand (R435). -/
def fMin (f : FFmt) (a b : Nat) : Nat :=
  if isNan f a then (if isNan f b then f.nanBits else b)
  else if isNan f b then a
  else if cmpF f a b < 0 then a else if cmpF f a b > 0 then b
  else if bit a (f.ebits + f.mbits) then a else b

/-- The greater of two values (R435). -/
def fMax (f : FFmt) (a b : Nat) : Nat :=
  if isNan f a then (if isNan f b then f.nanBits else b)
  else if isNan f b then a
  else if cmpF f a b > 0 then a else if cmpF f a b < 0 then b
  else if bit a (f.ebits + f.mbits) then b else a

/-- An integer in FP32, rounded once (R438). -/
def fOfInt (rm : Nat) (i : Int) : Nat := roundDy fp32 rm false ⟨i, 0⟩

/-- ⌊ ⌋, nearest or directed rounding of a finite value to an integer. -/
def Dy.round (rm : Nat) (d : Dy) : Int :=
  let a := d.n.natAbs * pow2 d.e
  let b := pow2 (-d.e)
  let neg := decide (d.n < 0)
  let m := a / b + boolNat (roundsUp rm neg (a / b) (a % b) b)
  if neg then -(m : Int) else m

/-- FP32 to an integer pattern (R438): NaN to 0, beyond the range to its nearest end. -/
def f2i (rm : Nat) (uns : Bool) (x : Nat) : Nat :=
  let lo : Int := if uns then 0 else -(2 ^ 31)
  let hi : Int := if uns then 2 ^ 32 - 1 else 2 ^ 31 - 1
  match decF fp32 x with
  | .nan => 0
  | .inf s => wrap 32 (if s then lo else hi)
  | v =>
    let i := v.dy.round rm
    wrap 32 (if i < lo then lo else if i > hi then hi else i)

/-- The magnitude pattern with sign bit cleared or flipped, for source modifiers (R434). -/
def fAbs (f : FFmt) (x : Nat) : Nat := x % 2 ^ (f.ebits + f.mbits)
def fNeg (f : FFmt) (x : Nat) : Nat :=
  if bit x (f.ebits + f.mbits) then fAbs f x else fAbs f x + 2 ^ (f.ebits + f.mbits)

end Sys2Proof.Machine
end

