-- ==== Sys2Proof/Machine/WorkTypes.lean ====
section
/-! DEFINITION. Plain data of configuration and work: structure images, dispatch records, hand-over queues, dispatches and
standing schedules ("Structure Images", "Dispatch, Service Classes and Ownership"). -/

namespace Sys2Proof.Machine

/-- A stage of a chain (Table 21); 0xFF and 0xFFFF are the none values. -/
structure Stage where
  kind : Nat
  input : Nat
  out0 : Nat
  out1 : Nat
  routeSel : Nat
  routeBit : Nat
  tgMask : Nat
  quadMask : Nat
  seMask : Nat
  prog : Nat
  strmFirst : Nat
  strmCount : Nat
  model : Nat
  settings : Nat
deriving DecidableEq, Repr

/-- A hand-over queue record (Table 23). -/
structure QueueRec where
  region : Nat
  entrySize : Nat
  offset : Nat
  capacity : Nat
deriving DecidableEq, Repr

/-- A chain (Table 19) with its stages, queues and listed peers. -/
structure Chain where
  classMask : Nat
  trigger : Nat
  triggerArg : Nat
  ordered : Bool
  fillAhead : Bool
  mcastArrays : Nat
  allPeers : Bool
  peers : List Nat
  paramSize : Nat
  stages : List Stage
  queues : List QueueRec
deriving DecidableEq, Repr

/-- A program header (Table 26) and the I/O virtual address of its code, which is read from memory (R53). -/
structure Prog where
  codeAddr : Nat
  codeLen : Nat
  regs : Nat
  split : Nat
  maxGroups : Nat
  entries : List Nat
deriving DecidableEq, Repr

/-- A Shared Field region (Tables 24 and 25), in units of 64 KiB. -/
structure Region where
  kind : Nat
  zero : Bool
  start : Nat
  size : Nat
deriving DecidableEq, Repr

/-- A Treelet Store range (Table 24). -/
structure TsRange where
  first : Nat
  count : Nat
  classMask : Nat
deriving DecidableEq, Repr

/-- The partition of the stores and the class bindings (R66). -/
structure Part where
  tgClass : List Nat
  quadClass : List Nat
  regions : List Region
  ranges : List TsRange
deriving DecidableEq, Repr

/-- A WREF entry (R73). -/
structure Wref where
  layerCount : Nat
  tileCount : Nat
  layerTable : Nat
deriving DecidableEq, Repr

/-- A RESI entry (R78); `spill` is MODE 1. -/
structure Resi where
  model : Nat
  spill : Bool
  halves : Nat
deriving DecidableEq, Repr

/-- A TRAV entry (Table 27). -/
structure TravCfg where
  maxDepth : Nat
  samples : Nat
  anyhit : Nat
  isect : Nat
  refine : Nat
  arrayBatch : Nat
deriving DecidableEq, Repr

/-- A QRY entry (R75). -/
structure QryCfg where
  dims : Nat
  kMax : Nat
  output : Nat
  candMax : Nat
  scoreDim : Nat
deriving DecidableEq, Repr

/-- A QOS entry (R76). -/
structure Qos where
  maxInflight : Nat
  coalesce : Nat
deriving DecidableEq, Repr

/-- A layer of a model that the loader placed for residency (R80): its model, layer, first place and tile count. -/
structure PlacedLayer where
  model : Nat
  layer : Nat
  place : Nat
  tiles : Nat
deriving DecidableEq, Repr

/-- The configuration of a validated structure image, and where in memory the parts stand that are read from it (R47). -/
structure Image where
  id : Nat
  addr : Nat
  len : Nat
  chains : List Chain
  progs : List Prog
  part : Part
  strmAddr : Nat
  strmCount : Nat
  wrefs : List Wref
  resis : List Resi
  travs : List TravCfg
  qrys : List QryCfg
  qos : List Qos
  placeA : List PlacedLayer
  placeB : List PlacedLayer
  minPlk : Nat
deriving DecidableEq, Repr

/-- A dispatch record (Table 34). -/
structure DispRec where
  chain : Nat
  cls : Nat
  irq : Bool
  afterPrev : Bool
  itemCount : Nat
  paramAddr : Nat
  doneAddr : Nat
  failAddr : Nat
  failCap : Nat
  tag : Nat
  doneRing : Nat
deriving DecidableEq, Repr

/-- An entry of a hand-over queue, the `pos`-th ever appended.  Its bytes stand in the Shared Field at place `slot` of the queue; a
tile covers `count` items from `item`; `flags` holds the flags of the ray that produced it (R58) in its low 16 bits and that
ray's PIXEL_KEY above them; `ended` marks items already ended failed whose record flows on; `held` is set while a consumer holds
the entry (R373); `ray` is one more than the ray whose hit record it is, and 0 for any other entry; `used` counts the
vectors of a tile that batches have taken; `src` is one more than the item of the STREAM stage that filled it, and 0 for any other
entry (R469). -/
structure QEntry where
  pos : Nat
  slot : Nat
  item : Nat
  count : Nat
  flags : Nat
  ended : Bool
  held : Bool
  ray : Nat
  used : Nat
  src : Nat
deriving DecidableEq, Repr

/-- A hand-over queue at run time: the entries not yet freed, oldest first, and how many were ever appended (R61). -/
structure HQueue where
  entries : List QEntry
  appended : Nat
deriving DecidableEq, Repr

/-- A stage at run time: the items its first stage has taken, the next template run of a STREAM stage, and whether it ended. -/
structure StageSt where
  taken : Nat
  runs : Nat
  finished : Bool
deriving DecidableEq, Repr

/-- A run of a dispatch's failure list as last written (R112): first item, count, status, unit kind and index. -/
structure FailRun where
  first : Nat
  count : Nat
  status : Nat
  kind : Nat
  index : Nat
deriving DecidableEq, Repr

/-- Where a dispatch stands. -/
inductive DPhase
  | paramWait
  | running
  | ended
deriving DecidableEq, Repr

/-- A dispatch that has been taken and whose completion record is not yet written.  `endedItems` holds the items that have
ended, as disjoint rising runs (first, count), so that each item ends exactly once (R30); `lost` names the cluster whose lost spill line has
ended every item (R554). -/
structure Dispatch where
  id : Nat
  queue : Nat
  rcd : DispRec
  seq : Nat
  imageId : Nat
  phase : DPhase
  fixedStatus : Nat
  param : List Byte
  asDesc : List Byte
  asFail : Nat
  ksAddr : Option Nat
  ksDesc : Option (List Byte)
  ksFail : Nat
  done : Nat
  fail : Nat
  endedItems : List (Nat × Nat)
  failLast : Option FailRun
  failEntries : Nat
  failFull : Bool
  preempted : Bool
  recovery : Bool
  triggered : Bool
  stages : List StageSt
  queues : List HQueue
  intake : Nat
  deadTreelets : List (Nat × Nat)
  lost : Option EUnit
deriving DecidableEq, Repr

/-- A standing-schedule firing: the entry, its record once read, and the firing number since the enable bit was set (R128). -/
structure Firing where
  entry : Nat
  rcd : DispRec
  k : Nat
deriving DecidableEq, Repr

/-- A completion record or failure entry that waits to be written (R110, R115). -/
structure PWrite where
  addr : Nat
  bytes : List Byte
  entry : Bool
  irq : Bool
deriving DecidableEq, Repr

/-- The engine's side of a dispatch queue beside its registers: the copy of the head record (R101), the firings placed ahead of
the ring (R127), the writes that wait, those sent and not yet answered, and those lost while DONE_LOST held another (R115), the flush
limit and the ENABLE state
beside it (R103) and the records since DONE_PEND was cleared (R114). -/
structure QState where
  head : Option DispRec
  firings : List Firing
  writes : List PWrite
  sent : List PWrite
  lost : List PWrite
  flushTo : Option Nat
  enabled : Bool
  sinceDone : Nat
deriving DecidableEq, Repr

/-- A pending buffered write (R572); `bad` marks an entry that failed parity (R580). -/
structure WEntry where
  addr : Nat
  value : Nat
  bad : Bool
deriving DecidableEq, Repr

end Sys2Proof.Machine
end

