-- ==== Sys2Proof/Machine/LaneTypes.lean ====
section
/-! DEFINITION. Plain data of the lane cores: thread groups with their registers, predicates, divergence stacks, waits, copies
and locks ("Lane Core Execution Model"). -/

namespace Sys2Proof.Machine

/-- The input of one lane: its item, its input window's bytes, its queue entry, or the ray of a callout; `ended` is set once it
has emitted, failed its item or replied (R369). -/
structure LaneIn where
  item : Nat
  flags : Nat
  bytes : List Byte
  entry : Option Nat
  tc : Nat
  ray : Nat
  ended : Bool
deriving DecidableEq, Repr

/-- An arrival counter (R393): ISSUED and DONE, 16-bit and wrapping. -/
structure Counter where
  issued : Nat
  done : Nat
deriving DecidableEq, Repr

/-- An asynchronous copy in flight (R393, R450): its counter, the code offset of its CP, and its ends; spaces 0 GLOBAL, 1 FIELD,
2 LOCAL. -/
structure Copy where
  ctr : Nat
  pc : Nat
  srcSpace : Nat
  src : Nat
  dstSpace : Nat
  dst : Nat
  len : Nat
deriving DecidableEq, Repr

/-- A lock word that a lane holds (R403): the lane, the space (0 GLOBAL, 1 FIELD) and the address. -/
structure LockHeld where
  lane : Nat
  space : Nat
  addr : Nat
deriving DecidableEq, Repr

/-- A load whose data has not arrived: space, size in bytes, sign extension, destination and the lanes with their addresses. -/
structure LoadSt where
  space : Nat
  size : Nat
  sign : Bool
  dest : Nat
  addrs : List (Nat × Nat)
deriving DecidableEq, Repr

/-- What a group waits on (R382): a load's data, a counter with its bound, lock words by lane with the time it began to wait, or
its barrier. -/
inductive GWait
  | none
  | load (l : LoadSt)
  | counter (c n : Nat)
  | locks (space since : Nat) (w : List (Nat × Nat))
  | barrier
deriving DecidableEq, Repr

/-- An MMA in the group matrix unit: its group and slot, the D run, the results by key 256 · lane + register, and its clocks. -/
structure MmaOp where
  slot : Nat
  group : Nat
  d : Nat
  vals : List (Nat × Nat)
  clks : Nat
deriving DecidableEq, Repr

/-- A group of 32 lanes (R364).  `launch` is the LAUNCH value of Table 100; `regs` holds register r of lane l at key 256·l + r;
`preds` holds the lane masks of p0 to p6; `divs` is the part of the divergence stack that the core keeps, top first, and `spilled` how
many entries have spilled to memory (R386); `frame` and `frameLen` are its local store
frame; `tile` is the Shared Field address of a tile input, and `out` the place of the output queue that TOUT reserved.  A group not
yet admitted has no slot, and `open_` while it still takes threads; a preempted group is `saved`, with its registers from row
`saveRow` of the core's save area on and its frame at its place there (R69, R119). -/
structure Group where
  id : Nat
  lc : Nat
  slot : Option Nat
  disp : Nat
  stage : Nat
  cls : Nat
  prog : Nat
  launch : Nat
  open_ : Bool
  age : Nat
  live : Nat
  active : Nat
  pc : Nat
  divs : List (Nat × Nat)
  spilled : Nat
  regs : List (Nat × Nat)
  preds : List Nat
  lanes : List LaneIn
  tile : Nat
  tileFirst : Nat
  tileCount : Nat
  tilePos : Nat
  tileDone : Bool
  out : Option Nat
  frame : Nat
  frameLen : Nat
  counters : List Counter
  copies : List Copy
  wait : GWait
  locks : List LockHeld
  saved : Bool
  saveRow : Nat
deriving DecidableEq, Repr

/-- The state of one lane core beside its groups: the split, the local store, the cache part's lines, oldest first (128 B lines by I/O
virtual address ÷ 128 with their bytes, R391, R504), the code buffer lines held, oldest first (the same), the MMA in the group matrix unit and the groups admitted so far. -/
structure LaneCore where
  split : Nat
  store : List Host.Cell
  cache : List (Nat × List Byte)
  code : List (Nat × List Byte)
  mma : Option MmaOp
  admitted : Nat
deriving DecidableEq, Repr

end Sys2Proof.Machine
end

