-- ==== Sys2Proof/Config.lean ====
section
/-! DEFINITION. What an implementation or the outside world fixes and the manual leaves open: constants with no body, so that a
claim holds whatever they are. -/

namespace Sys2Proof.Config

/-- A free value for each number drawn, 256 bits wide: what a result is where the manual leaves it open. -/
opaque freeValue : Nat → BitVec 256

/-- How many clocks of a supplied or internal clock pass in one tick of the idle engine, by clock index and tick number
(R599: no domain's clock stands in a fixed relation to another). -/
opaque clocks : Nat → Nat → Nat

/-- A value that the manual leaves open for some operands, by a tag of the model's for the place and by the operands. -/
opaque openVal : Nat → List Nat → Nat

/-- The voltage code of an operating point without ageing offset, by rail and OP: the manual gives the OP's base voltage no value (R667,
R756). -/
opaque baseCode : Nat → Nat → Nat

/-- The public keys in the boot ROM (R673): 0 firmware release, 1 firmware development, 2 device class of the monitor. -/
opaque romKey : Nat → List (BitVec 8)

/-- The bytes of the external flash (R676); outside 4 MiB to 256 MiB the nearer bound stands for it. -/
opaque flashBytes : Nat

/-- The free choice among things of one rank where the manual fixes none, by the number drawn and how many there are. -/
opaque pick : Nat → Nat → Nat

end Sys2Proof.Config
end

