-- ==== Sys2Proof/Machine/TravTypes.lean ====
section
/-! DEFINITION. Plain data of traversal, queries and hit return: rays and queries in the ray sorter and the clusters, treelet
queues and slots, neural sample batches, gather blocks and order holds ("Ray Traversal and Intersection", "Ray Sorting,
Treelet Streaming and Hit Return", "Spatial Queries and Attention Retrieval"). -/

namespace Sys2Proof.Machine

/-- A hit or candidate (Table 64); `t`, `u`, `v` are FP32 bit patterns. -/
structure Hit where
  t : Nat
  u : Nat
  v : Nat
  prim : Nat
  geom : Nat
  kind : Nat
  inst : Nat
deriving DecidableEq, Repr

/-- A ray-stack entry: a child reference with its box entry distance, or the EXIT mark of an instance (R193).  `bad` is the cause
with which the ray fails when it enters the child (R179); `raw` marks an INNER entry that comes from a node reference. -/
structure SEntry where
  exit : Bool
  bad : Nat
  typ : Nat
  treelet : Nat
  offset : Nat
  count : Nat
  raw : Bool
  te : Nat
deriving DecidableEq, Repr

/-- The coordinate frame of one instance level: origin and direction as FP32 patterns, and the flags of R211 in force. -/
structure Frame where
  o : List Nat
  d : List Nat
  flip : Bool
  noCull : Bool
  force : Option Bool
  inst : Nat
deriving DecidableEq, Repr

/-- A leaf being worked through: its stack entry, the block or record index, the index within it, the block as read, and the order in
which its cluster's pipelines asked for triangle tests (R191). -/
structure Leaf where
  entry : SEntry
  blk : Nat
  idx : Nat
  bytes : List Byte
  seq : Nat
deriving DecidableEq, Repr

/-- What a suspended ray waits for: a callout (kind 1 ANYHIT, 2 ISECT, 3 REFINE) with its candidate and bracket, still to be
posted or posted to a lane core, or the samples of a neural leaf. -/
structure Callout where
  kind : Nat
  cand : Hit
  user : Nat
  tLo : Nat
  tHi : Nat
  gLo : Nat
  gHi : Nat
  lc : Option Nat
  reply : Option (Nat × Nat × Nat × Nat)
  fault : Bool
deriving DecidableEq, Repr

/-- The evaluation of a neural leaf for one ray (R221–R226): samples `n`, segment, step, values so far, then the bracket under
refinement and the steps left.  `left` counts samples not yet evaluated. -/
structure Neural where
  desc : Nat
  n : Nat
  t0 : Nat
  t1 : Nat
  h : Nat
  refining : Bool
  lo : Nat
  hi : Nat
  gHi : Nat
  steps : Nat
  left : Nat
deriving DecidableEq, Repr

/-- Where a ray or query stands. -/
inductive RayLoc
  | queued
  | overflow
  | batch
  | ctx
  | callout
  | neural
  | remote
  | ended
  | settled
deriving DecidableEq, Repr

/-- The origin block of a guest item (Table 186). -/
structure GuestItem where
  origin : Nat
  handle : Nat
  gen : Nat
  chain : Nat
  asGen : Nat
  intake : Nat
  imageLo : Nat
deriving DecidableEq, Repr

/-- The continuation state that stands with a queue entry: what a ray or query replayed from the entry starts from (R243, R651). -/
structure RayCont where
  started : Bool
  stack : List SEntry
  frames : List Frame
  best : Option Hit
  bestT : Nat
  list : List (Nat × Nat)
  total : Nat
  lines : Nat
deriving DecidableEq, Repr

/-- A ray or query taken by the ray sorter whose final record is not yet accepted.  `rcd` is the record as taken, `key` the low
12 bits of its sort key, `tq` and `pos` its queue entry; `ticket` is R266; `guest` is its origin block when it came
from a peer; `gen` is its replay generation as origin and `link` the port on which it was last sent (R734, R735).  `pipe` is 4
for a ray that may resume in any pipeline; `home` is the place of its stack and state home in the RAYQ regions once a cluster has held it
(R196, R537), and `lines` marks the spill lines written since that home was assigned (R538); `fin` is its final record once it has ended,
and `cont` the state its queue entry holds. -/
structure Ray where
  id : Nat
  disp : Nat
  stage : Nat
  item : Nat
  query : Bool
  cls : Nat
  rcd : List Byte
  intake : Nat
  key : Nat
  ticket : Bool
  replayed : Bool
  failed : Bool
  loc : RayLoc
  tq : Nat
  pos : Nat
  tc : Nat
  pipe : Nat
  treelet : Nat
  started : Bool
  stack : List SEntry
  frames : List Frame
  best : Option Hit
  bestT : Nat
  leaf : Option Leaf
  call : Option Callout
  neural : Option Neural
  list : List (Nat × Nat)
  total : Nat
  guest : Option GuestItem
  gen : Nat
  link : Option Nat
  home : Option Nat
  lines : Nat
  fin : List Byte
  nodes : Nat
  cont : RayCont
deriving DecidableEq, Repr

/-- An entry of a queue segment (R242, R243): the ray, and whether it is untaken (0), taken (1) or freed (2). -/
structure SegEntry where
  ray : Nat
  st : Nat
deriving DecidableEq, Repr

/-- Where a segment stands: in the Shared Field, spilled to memory, or being refilled (R254, R257). -/
inductive SegPlace
  | field
  | spilled
  | refilling
deriving DecidableEq, Repr

/-- A segment of a treelet queue, of ordinal `ord`, with up to 64 entries in order; `raw` tells that its coded form took the whole slot
when it was last spilled (R256). -/
structure Seg where
  ord : Nat
  place : SegPlace
  raw : Bool
  entries : List SegEntry
deriving DecidableEq, Repr

/-- A treelet queue (R240), of rays or of queries, whose structures differ; `desc` is its queue descriptor, none once released while entries
still stand. -/
structure TQueue where
  id : Nat
  desc : Option Nat
  disp : Nat
  query : Bool
  cls : Nat
  treelet : Nat
  appended : Nat
  evicted : Bool
  segs : List Seg
deriving DecidableEq, Repr

/-- A batch that a pipeline holds (R244, R249): the queue, the Treelet Store slot it pins and the rays still held. -/
structure Batch where
  tc : Nat
  pipe : Nat
  tq : Nat
  slot : Nat
  rays : List Nat
deriving DecidableEq, Repr

/-- Treelet Store slot states (Table 70). -/
inductive TSState
  | free
  | fetching
  | resident
deriving DecidableEq, Repr

/-- A Treelet Store slot: state, tag (AS_ADDR, GENERATION), treelet, its address and size in memory, its last use, and the stream engine that
fetches it with the transfers charged to it (R251). -/
structure TSlot where
  state : TSState
  asAddr : Nat
  gen : Nat
  treelet : Nat
  addr : Nat
  bytes : Nat
  lastUse : Nat
  se : Nat
  charged : Nat
  cls : Nat
deriving DecidableEq, Repr

/-- One sample of a neural batch: the ray and the FP32 parameter t at which it is taken. -/
structure NSample where
  ray : Nat
  t : Nat
deriving DecidableEq, Repr

/-- A batch of neural-leaf samples of one traversal group and one WEIGHTS address (R225); `disp` is that of its first sample. -/
structure NBatch where
  id : Nat
  tg : Nat
  weights : Nat
  disp : Nat
  closed : Bool
  quad : Option Nat
  lc : Nat
  samples : List NSample
deriving DecidableEq, Repr

/-- A callout record in a lane core's callout buffer (R367). -/
structure CallRec where
  lc : Nat
  tc : Nat
  ray : Nat
  kind : Nat
  prog : Nat
  disp : Nat
  bytes : List Byte
deriving DecidableEq, Repr

/-- An ended query in a gather block (Table 79), with its TOTAL, whether its list was cut, and the unit that failed it; once the block has been
scored, `list` is its SCORED list of scores and key indices, and `cause` what the scoring found wrong (R304, R306). -/
structure GQuery where
  ray : Nat
  item : Nat
  qid : Nat
  qvec : Nat
  k : Nat
  status : Nat
  kind : Nat
  index : Nat
  total : Nat
  truncated : Bool
  cands : List Nat
  cause : Nat
  list : List (Nat × Nat)
deriving DecidableEq, Repr

/-- A gather block (R299): open; `full`, when it takes no query more and waits for room in its stage's output; or closed, when it stands as a
tile there.  `scored` tells that a quadrant has scored it, `done` counts its queries ended by the scoring stage, `lost` holds the vector reads that were answered with ABORT, and
`quad` is the quadrant that scores it (R301). -/
structure GBlock where
  id : Nat
  disp : Nat
  stage : Nat
  full : Bool
  closed : Bool
  queries : List GQuery
  scored : Bool
  done : Nat
  lost : List Nat
  quad : Option Nat
deriving DecidableEq, Repr

/-- A hit record at the hit return port with its sideband (R261). -/
structure HitRec where
  bytes : List Byte
  key : Nat
  cls : Nat
  ordered : Bool
deriving DecidableEq, Repr

/-- A hit record in a return buffer (R263), with the dispatch and item whose final record it is; `ended` when the item has ended
before. -/
structure HitSlot where
  hit : HitRec
  disp : Nat
  item : Nat
  ended : Bool
deriving DecidableEq, Repr

/-- A record in an order hold (R267): intake position of its ticket, or none when it holds no ticket. -/
structure HoldRec where
  disp : Nat
  item : Nat
  ray : Nat
  ended : Bool
  intake : Option Nat
  replayed : Bool
  queue : Nat
  pos : Nat
  hit : HitRec
deriving DecidableEq, Repr

end Sys2Proof.Machine
end

