-- ==== Sys2Proof/Machine/CoreTypes.lean ====
section
/-! DEFINITION. Plain data shared by every part of the engine: integration parameters, what the engine puts on its ports, fault
sequences, preemption, resets and power ("Fault Containment and Ageing", "Reset, Power and Clocks", "Integration Interface"). -/

namespace Sys2Proof.Machine

/-- The integration parameters (Table 191), which no command changes; `flashFit` says that the external flash offers what R676 requires. -/
structure Integ where
  memPorts : Nat
  plkPorts : Nat
  masters : Nat
  monMaster : Nat
  streamId : Nat
  plkEnReset : Nat
  serial : Nat
  hifKhz : Nat
  memKhz : Nat
  flashFit : Bool
deriving DecidableEq, Repr

/-- What the engine puts on its ports, in order.  The model keeps it as a trace, so that order rules can be stated. -/
inductive Out
  | memWrite (addr : Nat) (bytes : List Byte)
  | hit (ch : Nat) (r : HitRec)
  | kmp (port tag : Nat) (write : Bool) (addr : Nat)
  | xlat (id page : Nat) (write : Bool) (stream pasid : Nat) (pasidV : Bool)
  | invAck (id : Nat)
  | packet (port : Nat) (p : Packet)
  | vreq (rail code : Nat)
  | uart (text : List Byte)
  | monData (key value : Nat)
  | regRead (master addr value : Nat)
deriving DecidableEq, Repr

/-- An access whose translation has faulted (R514–R517): the slot of its record, none while it waits for a free one, and what it
brings to the record. -/
structure FWait where
  slot : Option Nat
  acc : Access
  req : Nat
  page : Nat
  pasid : Nat
  reason : Nat
  write : Bool
  cls : Nat
deriving DecidableEq, Repr

/-- The single-fault sequence or owner fence of a unit (R646, R658): whether the owner started it, and whether the fence is complete. -/
structure FSeq where
  unit : EUnit
  owner : Bool
  fenced : Bool
deriving DecidableEq, Repr

/-- The open recovery window (R661–R664). -/
structure Window where
  firstSeq : Nat
  replayed : Nat
  failed : Nat
  faults : Nat
  holding : Bool
  late : Bool
  imageEnded : Bool
deriving DecidableEq, Repr

/-- A preempted unit (R118–R123): asked to stop, at its preemption point running class 0, or restored. -/
structure Preempt where
  unit : EUnit
  saved : Bool
deriving DecidableEq, Repr

/-- The OP change of one domain in progress (R608, R609): rail index, the OP it moves to, whether it raises, and whether the second of its
two parts is under way (the clock switch when raising, the voltage request when lowering). -/
structure OpMove where
  rail : Nat
  target : Nat
  raising : Bool
  second : Bool
deriving DecidableEq, Repr

/-- The reset that drains before it acts (R613): its kind by the CAUSE code of Table 162. -/
structure ResetSt where
  cause : Nat
  drained : Bool
deriving DecidableEq, Repr

/-- The ageing record of one domain (R667–R669). -/
structure Ageing where
  vadj : List Nat
  cap : Nat
  warn : Bool
  slack : Nat
  changes : Nat
deriving DecidableEq, Repr

end Sys2Proof.Machine
end

