-- ==== Sys2Proof/Machine/MgmtTypes.lean ====
section
/-! DEFINITION. Plain data of the management subsystem: firmware, flash log, lifecycle and key fuses, control loops, mailbox and
monitor ("Management Subsystem and Monitor"). -/

namespace Sys2Proof.Machine

/-- A log entry that waits to be programmed (R690): TYPE, MGT_COUNT and the 12 bytes of DATA (Tables 173 and 174). -/
structure LogEntry where
  typ : Nat
  count : Nat
  data : List Byte
deriving DecidableEq, Repr

/-- A key slot (R700): 0 EMPTY, 1 VALID development, 2 VALID production, 3 REVOKED, and its 32 key bytes. -/
structure KeySlot where
  state : Nat
  key : List Byte
deriving DecidableEq, Repr

/-- A control loop's limits of one domain with an OP (R693, R695, R696): the three limits, the milliseconds the domain has been
cool, and the age in ms of each dip counted towards the next brown-out step. -/
structure LoopDom where
  thermal : Nat
  power : Nat
  brown : Nat
  coolMs : Nat
  dips : List Nat
deriving DecidableEq, Repr

/-- A mailbox command in progress (Table 181) with the result it will report. -/
structure MailOp where
  cmd : Nat
  result : Nat
deriving DecidableEq, Repr

/-- The management subsystem beside its registers.  `flash` holds the complement of each byte, so that an erased byte is not listed;
`erases` counts the erasures of each log sector; `logSeq` is the SEQ of the next entry, `logPos` the place of the next entry to be
programmed, in entries from the start of the log region; `count` counts CK_MGT clocks since step 2 of start-up; `fenceHist` holds the
active hours of every engine fence by unit code (R659); `keyOp` is a key command in progress and `mail` a mailbox command. -/
structure Mgmt where
  flash : List Host.Cell
  erases : List (Nat × Nat)
  running : Option Nat
  trial : Bool
  down : Bool
  version : Nat
  svn : Nat
  key : Nat
  fwStaged : Bool
  svnFuse : Nat
  lifecycle : Nat
  lcyTarget : Option Nat
  keys : List KeySlot
  keyOp : Option (Nat × Nat)
  mail : Option MailOp
  logBuf : List LogEntry
  logSeq : Nat
  logPos : Nat
  dropped : Nat
  boots : Nat
  count : Nat
  records : Nat
  corrTotal : Nat
  otherTotal : Nat
  corrPer : List (Nat × Nat)
  hours : Nat
  fenceHist : List (Nat × Nat)
  loops : List LoopDom
  capCool : Nat
  trip : Bool
  nonce : Option (List Byte)
  auth : Bool
  trace : Bool
  overrun : Bool
deriving DecidableEq, Repr

end Sys2Proof.Machine
end

