-- ==== Sys2Proof/Machine/MxTypes.lean ====
section
/-! DEFINITION. Plain data of the matrix arrays: weight halves, quadrants, Weight Store halves and the batches of MATMUL stages
("Matrix Arrays and Numerics"). -/

namespace Sys2Proof.Machine

/-- What a weight half of a quadrant holds (R310): one quadrant tile of a batch's layer, with its attributes; or, where `query` is set, the
query vectors of the gather block `batch`, for 128 dimensions (R301).  `next` is set on a tile of layer 0 loaded ahead for the next batch of
that dispatch and stage (R349). -/
structure HalfW where
  query : Bool
  next : Option (Nat × Nat)
  batch : Nat
  layer : Nat
  kslice : Nat
  nblk : Nat
  data : List Byte
  attr : List Byte
deriving DecidableEq, Repr

/-- A quadrant: its two weight halves, and whether it has applied a tile, so that its next one takes a SWAP step (R315). -/
structure Quad where
  half0 : Option HalfW
  half1 : Option HalfW
  applied : Bool
deriving DecidableEq, Repr

/-- A streaming tile of a Weight Store half (R79, R348): its number 0 to 3, the weight tile that it holds or is to hold for a dispatch, by
model, layer and index, the class it was taken for, whether the tile has arrived, and its attribute block. -/
structure STile where
  slot : Nat
  disp : Nat
  model : Nat
  layer : Nat
  tile : Nat
  cls : Nat
  arrived : Bool
  attr : List Byte
deriving DecidableEq, Repr

/-- A Weight Store half: the bytes of its places, 0 to 251 resident and 252 to 255 streaming tiles; the resident places whose tile has
arrived; and the streaming tiles taken. -/
structure WStore where
  bytes : List Host.Cell
  arrived : List Nat
  tiles : List STile
deriving DecidableEq, Repr

/-- A vector of a batch: its item, whether it takes no computation and no further record (R344), and the bytes of its slot in
the present layer's input. -/
structure MVec where
  item : Nat
  dead : Bool
  bytes : List Byte
deriving DecidableEq, Repr

/-- A batch of a MATMUL stage (R345): the array whose group runs it, and the one that it was given to first, whose part of the work area it
uses; the layer it runs, and where in the Shared Field that layer's input stands, none for layer 0; its vectors, the accumulator words by
key (N-block · 2048 + vector) · 128 + column, the K-slices added so far by N-block · 2048 + vector (R327), the post-unit's FP32 or
INT32 results of the layer by N-block, one list to a vector, and, once every layer has run, how many vectors have been
written to output tiles. -/
structure MBatch where
  id : Nat
  disp : Nat
  stage : Nat
  arr : Nat
  model : Nat
  area : Nat
  layer : Nat
  input : Option Nat
  vecs : List MVec
  acc : List (Nat × Nat)
  slices : List (Nat × Nat)
  outs : List (Nat × List (List Nat))
  emitted : Option Nat
deriving DecidableEq, Repr

end Sys2Proof.Machine
end

