-- ==== Sys2Proof/Machine/DataTypes.lean ====
section
/-! DEFINITION. Plain data of data movement: stream runs and claims, memory-port requests, micro-TLBs, translation requests,
invalidations, hot pages, node caches and spill caches ("Stream Engines and Data Movement", "Address Translation and Page
Faults", "Node and Spill Caches"). -/

namespace Sys2Proof.Machine

/-- A stream descriptor (Table 121): bases, strides and counts of dimensions 1–4 (0–4), and its modes. -/
structure SDesc where
  src : Nat
  dst : Nat
  sstride : List Int
  dstride : List Int
  countM1 : List Nat
  space : Nat
  elem : Nat
  mode : Nat
  flags : Nat
  tileLog2 : Nat
  bind : Nat
  rsvOk : Bool
deriving DecidableEq, Repr

/-- Where a transfer stands: its reads are out, its data waits for its turn, or its writes are out. -/
inductive XPhase
  | reading
  | ready
  | writing
deriving DecidableEq, Repr

/-- A transfer of a run in flight (R456): its first element and how many elements it carries; in DICT mode the first byte of the ring
record's buffer and how many bytes. -/
structure Xfer where
  first : Nat
  count : Nat
  phase : XPhase
deriving DecidableEq, Repr

/-- Who owns a run: the owner's ARM, or a dispatch's STREAM stage for one item and template. -/
inductive RunOwner
  | armed
  | stage (disp stage item tmpl : Nat) (entry : Option Nat)
deriving DecidableEq, Repr

/-- A run in a stream engine's ACTIVE or SHADOW slot: `next` is the next element to issue, `delivered` the count delivered in
order, `limit` the element at which delivery stops, `tile` the bytes delivered and not yet appended to OUT0, `tiles` the tiles
appended, `endWith` a status it ends with once its transfers have completed, `bad` the sectors whose reads failed.  In DICT mode `ring`
holds HEAD and the TAIL last read (R490–R492), `ringTaken` the bytes taken of the present record, `left` bytes that do not yet fill an
element and `sawEnd` that the record with END has been taken; `taken` tells that a peer has taken the run over from a fenced engine and no
transfer of it has issued since (R487). -/
structure Run where
  owner : RunOwner
  cls : Nat
  desc : SDesc
  sbase : Int
  dbase : Int
  item : Nat
  next : Nat
  delivered : Nat
  limit : Nat
  xfers : List Xfer
  tile : List Byte
  tiles : Nat
  endWith : Option Nat
  bad : List Nat
  ring : Option (Nat × Nat)
  ringTaken : Nat
  left : List Byte
  sawEnd : Bool
  taken : Bool
deriving DecidableEq, Repr

/-- An item that a STREAM stage has taken and not ended (R466): its input entry with that entry's bases, the template of its next or
present run, whether that run is placed, and the run itself while it waits to continue on a peer of a fenced engine (R487). -/
structure StreamItem where
  disp : Nat
  stage : Nat
  item : Nat
  entry : Option Nat
  src : Nat
  dst : Nat
  tmpl : Nat
  busy : Bool
  saved : Option Run
deriving DecidableEq, Repr

/-- A claimed slot of a stream engine (R462): a claim whose descriptor is still being read, with the number of its ARM and the bytes that
stood at SE_ARM_ADDR when it was made, or a run. -/
inductive SSlot
  | free
  | pending (arm cls addr : Nat) (bytes : List Byte)
  | run (r : Run)
deriving DecidableEq, Repr

/-- A stream engine beside its registers: the slots, how often it has been armed, the service transfers charged to it, the cause it
waits on, and whether it has taken over service requests of a fenced engine of which none has issued yet (R487). -/
structure StreamEng where
  active : SSlot
  shadow : SSlot
  arms : Nat
  service : Nat
  wait : Nat
  taken : Bool
deriving DecidableEq, Repr

/-- A request of one 64 B sector at a memory port: its address and physical address, whether it is translated, kind, prefetch mark,
whether it is peer traffic, its requester, the invalidations that wait for it once it holds a tag (R507), the access that it
serves, and `seq`, the order in which requests were made, which they keep through every move (R480, R507, R654). -/
structure MemReq where
  seq : Nat
  addr : Nat
  pa : Nat
  ready : Bool
  write : Bool
  prefetch : Bool
  remote : Bool
  req : Nat
  stale : List Nat
  acc : Access
deriving DecidableEq, Repr

/-- A memory port: requests waiting for a slot, oldest first, requests that hold a tag, and tags whose response is discarded. -/
structure MemPort where
  queue : List MemReq
  tags : List (Nat × MemReq)
  discard : List Nat
deriving DecidableEq, Repr

/-- A micro-TLB entry (R500); `blocked` is set by an invalidation (R507). -/
structure TlbEntry where
  page : Nat
  size : Nat
  pa : Nat
  readOk : Bool
  writeOk : Bool
  blocked : Bool
deriving DecidableEq, Repr

/-- A translation request, outstanding at the IOMMU or waiting for the port (R502): the requester, the 4 KiB page, the accesses that wait
on it with their kinds, whether it was sent again (R505), and the invalidations that have arrived since it was made (R509). -/
structure XReq where
  id : Nat
  req : Nat
  page : Nat
  write : Bool
  accs : List (Access × Bool)
  retried : Bool
  since : List Inval
deriving DecidableEq, Repr

/-- An entry of the hot-page table (R524). -/
structure HotEntry where
  region : Nat
  count : Nat
  flagged : Bool
deriving DecidableEq, Repr

/-- A node-cache line: slot and line within it, whether its fill is outstanding, and its bytes. -/
structure NcLine where
  slot : Nat
  line : Nat
  filling : Bool
  data : List Byte
deriving DecidableEq, Repr

/-- A spill-cache line: Shared Field line address, dirty mark, whether its fill is outstanding, and its bytes, whose form is internal
(R196): what an item's entries mean stands in the ray. -/
structure SpcLine where
  addr : Nat
  dirty : Bool
  filling : Bool
  data : List Byte
deriving DecidableEq, Repr

/-- The caches of one traversal cluster: node-cache ways by index 4·set + way, spill-cache entries, their replacement tree bits
(keys 4·set + node for the node cache), the eviction buffer oldest first with an issued mark and the bytes, the missing requesters with the
line they wait for, and the lines each requester has had of the accesses it is making. -/
structure Caches where
  nc : List (Nat × NcLine)
  ncTree : List Nat
  spc : List (Nat × SpcLine)
  spcTree : List Nat
  evict : List (Nat × Bool × List Byte)
  ncMiss : List (Nat × Nat)
  spcMiss : List (Nat × Nat)
  ncGot : List (Nat × Nat)
  spcGot : List (Nat × Nat)
deriving DecidableEq, Repr

/-- A maintenance operation in progress (R545–R551): the CM_CMD data word and the operands taken with it, and the lines that were being
filled when it reached them, as (cluster, line), which it still waits for (R549). -/
structure CmOp where
  word : Nat
  addr : Nat
  lines : Nat
  entry : Nat
  busy : Bool
  late : List (Nat × Nat)
deriving DecidableEq, Repr

end Sys2Proof.Machine
end

