-- ==== Sys2Proof/Machine/PlkTypes.lean ====
section
/-! DEFINITION. Plain data of the peer link: ports with their replay buffers and credits, guest pairs, reads of remote windows
and weight multicast ("Peer Link and Multi-Engine Systems"). -/

namespace Sys2Proof.Machine

/-- A packet that waits to be sent, with the receive pool space it still takes at this engine (port, pool, flits) when it is a
forwarded packet (R720). -/
structure TxPacket where
  pkt : Packet
  holds : Option (Nat × Nat × Nat)
deriving DecidableEq, Repr

/-- The engine's side of a peer-link port.  `sent` and `freed` count flits per pool since the port entered UP; `credit` counts the
8-flit units the partner has freed, and `lastCredit` its last CREDITS bytes (R719); `replay` holds the packets no ACK covers
(R721); `nak` is the SEQ last named by a NAK and how often in a row (R722); `rot` is the class served last (R723). -/
structure PlkPort where
  txSeq : Nat
  rxSeq : Nat
  nakSent : Bool
  nak : Option (Nat × Nat)
  queue : List TxPacket
  replay : List Packet
  sent : List Nat
  credit : List Nat
  lastCredit : List Nat
  freed : List Nat
  rot : Nat
deriving DecidableEq, Repr

/-- A pair of (origin node, handle) with the guest descriptor read at its first guest item (R731).  `key` stands for the pair in
place of a dispatch; `gone` says that its guest table entry or descriptor was answered with ABORT. -/
structure GuestPair where
  key : Nat
  cls : Nat
  dead : List (Nat × Nat)
  origin : Nat
  handle : Nat
  chain : Nat
  stage : Nat
  asAddr : Nat
  asDesc : List Byte
  ksAddr : Nat
  ksDesc : List Byte
  gone : Bool
deriving DecidableEq, Repr

/-- A read of a remote window that is outstanding (R736): its tag, the serving node, the address, the sectors and the access
that asked for it. -/
structure RRead where
  tag : Nat
  node : Nat
  addr : Nat
  sectors : Nat
  cls : Nat
  acc : Access
deriving DecidableEq, Repr

/-- A model that a member takes by multicast (R743, R744): its source, and the parts that have arrived of tiles that are not whole, as
(half, place, part). -/
structure McMember where
  model : Nat
  source : Nat
  parts : List (Nat × Nat × Nat)
deriving DecidableEq, Repr

/-- The peer link beside its registers: `laneDown` names the ports whose lanes are not up (R762), and `data` holds the bytes that
RDATA has brought from remote windows, by I/O virtual address; `aborted` names the reads that packets still waiting on their links
asked for and that an owner has answered with ABORT. -/
structure Plk where
  ports : List PlkPort
  lost : List Nat
  subscribers : List Nat
  pairs : List GuestPair
  rreads : List RRead
  nextTag : Nat
  mcast : List McMember
  mcWait : List (Nat × List Nat)
  laneDown : List Nat
  data : List Host.Cell
  aborted : List Access
deriving DecidableEq, Repr

end Sys2Proof.Machine
end

