-- ==== Sys2Proof/Machine/RegFields.lean ====
section
/-! DEFINITION. The names of the register fields: every field of every register table of the manual, with its window
address, lowest bit and width.  A family of registers at a stride takes its index. -/

namespace Sys2Proof.Machine

/-- A register field: the window address of its register, its lowest bit and its width. -/
structure RField where
  addr : Nat
  lo : Nat
  width : Nat
deriving DecidableEq, Repr

namespace F

/-- Table 146, VENDOR [31:16], RO. -/
def glbIdVendor : RField := ⟨0x00000, 16, 16⟩
/-- Table 146, PART [15:0], RO. -/
def glbIdPart : RField := ⟨0x00000, 0, 16⟩
/-- Table 146, MAJOR [23:16], RO. -/
def glbRevMajor : RField := ⟨0x00004, 16, 8⟩
/-- Table 146, MINOR [15:8], RO. -/
def glbRevMinor : RField := ⟨0x00004, 8, 8⟩
/-- Table 146, IMG_FMT [7:0], RO. -/
def glbRevImgFmt : RField := ⟨0x00004, 0, 8⟩
/-- Table 146, MP_COUNT [20:16], RO. -/
def glbCfgMpCount : RField := ⟨0x00008, 16, 5⟩
/-- Table 146, PLK_COUNT [11:8], RO. -/
def glbCfgPlkCount : RField := ⟨0x00008, 8, 4⟩
/-- Table 146, MASTERS [3:0], RO. -/
def glbCfgMasters : RField := ⟨0x00008, 0, 4⟩
/-- Table 146, STREAM_ID [15:0], RO. -/
def glbStream : RField := ⟨0x0000C, 0, 16⟩
/-- Table 146, KEY [31:0], WO. -/
def keyUnlock : RField := ⟨0x00010, 0, 32⟩
/-- Table 146, UNLOCKED [0], RO. -/
def keyUnlocked : RField := ⟨0x00010, 0, 1⟩
/-- Table 146, IMAGE_ACTIVE [31], RO. -/
def glbStatusImageActive : RField := ⟨0x00014, 31, 1⟩
/-- Table 146, HOLD [30], RO. -/
def glbStatusHold : RField := ⟨0x00014, 30, 1⟩
/-- Table 146, EPOCH_WAIT [29], RO. -/
def glbStatusEpochWait : RField := ⟨0x00014, 29, 1⟩
/-- Table 146, PEND_DROP [23], W1C. -/
def glbStatusPendDrop : RField := ⟨0x00014, 23, 1⟩
/-- Table 146, BUF_OVF [22], W1C. -/
def glbStatusBufOvf : RField := ⟨0x00014, 22, 1⟩
/-- Table 146, GUARD_DENIED [21], W1C. -/
def glbStatusGuardDenied : RField := ⟨0x00014, 21, 1⟩
/-- Table 146, KEY_BAD [20], W1C. -/
def glbStatusKeyBad : RField := ⟨0x00014, 20, 1⟩
/-- Table 146, SIZE_ERR [19], W1C. -/
def glbStatusSizeErr : RField := ⟨0x00014, 19, 1⟩
/-- Table 146, PEND_COUNT [6:0], RO. -/
def glbStatusPendCount : RField := ⟨0x00014, 0, 7⟩
/-- Table 146, DISCARD [15], MW. -/
def glbCtrl : RField := ⟨0x00018, 15, 1⟩
/-- Table 146, RAISED [7:0], W1C. -/
def intStatus : RField := ⟨0x00020, 0, 8⟩
/-- Table 146, ENABLE [7:0], RW. -/
def intEnable : RField := ⟨0x00024, 0, 8⟩
/-- Table 146, ASSERTED [7:0], RO. -/
def intLevel : RField := ⟨0x00028, 0, 8⟩
/-- Table 42, MASTERS [19:16], RO. -/
def ownStatusMasters : RField := ⟨0x01000, 16, 4⟩
/-- Table 42, OWNED [7], RO. -/
def ownStatusOwned : RField := ⟨0x01000, 7, 1⟩
/-- Table 42, OWNER_ID [1:0], RO. -/
def ownStatusOwnerId : RField := ⟨0x01000, 0, 2⟩
/-- Table 42, ID [1:0], WO. -/
def ownClaim : RField := ⟨0x01004, 0, 2⟩
/-- Table 42, RELEASE [2], WO. -/
def ownHandoverRelease : RField := ⟨0x01008, 2, 1⟩
/-- Table 42, SUCCESSOR [1:0], WO. -/
def ownHandoverSuccessor : RField := ⟨0x01008, 0, 2⟩
/-- Table 42, HEARTBEAT [31:0], WO. -/
def ownHeartbeat : RField := ⟨0x0100C, 0, 32⟩
/-- Table 42, TIMEOUT_MS [15:0], RW. -/
def ownHbTimeout : RField := ⟨0x01010, 0, 16⟩
/-- Table 42, DENIED [3], W1C. -/
def ownEventDenied : RField := ⟨0x01014, 3, 1⟩
/-- Table 42, TIMED_OUT [2], W1C. -/
def ownEventTimedOut : RField := ⟨0x01014, 2, 1⟩
/-- Table 42, RELEASED [1], W1C. -/
def ownEventReleased : RField := ⟨0x01014, 1, 1⟩
/-- Table 42, GRANTED [0], W1C. -/
def ownEventGranted : RField := ⟨0x01014, 0, 1⟩
/-- Table 42, MASTER [31:30], RO. -/
def ownDeniedMaster : RField := ⟨0x01018, 30, 2⟩
/-- Table 42, OFFSET [19:0], RO. -/
def ownDeniedOffset : RField := ⟨0x01018, 0, 20⟩
/-- Table 42, CHANGES [31:0], RO. -/
def ownChanges : RField := ⟨0x0101C, 0, 32⟩
/-- Table 147, BASE_LO [31:6], RW. -/
def dqBaseLo (i : Nat) : RField := ⟨0x02000 + 0x100 * i, 6, 26⟩
/-- Table 147, BASE_HI [31:0], RW. -/
def dqBaseHi (i : Nat) : RField := ⟨0x02004 + 0x100 * i, 0, 32⟩
/-- Table 147, SIZE_LOG2 [3:0], RW. -/
def dqSize (i : Nat) : RField := ⟨0x02008 + 0x100 * i, 0, 4⟩
/-- Table 147, TAIL [15:0], RW. -/
def dqTail (i : Nat) : RField := ⟨0x0200C + 0x100 * i, 0, 16⟩
/-- Table 147, HEAD [15:0], RO. -/
def dqHead (i : Nat) : RField := ⟨0x02010 + 0x100 * i, 0, 16⟩
/-- Table 147, CMD [3:0], WO. -/
def dqCtrl (i : Nat) : RField := ⟨0x02014 + 0x100 * i, 0, 4⟩
/-- Table 147, OVERFLOW [31], W1C. -/
def dqStatusOverflow (i : Nat) : RField := ⟨0x02018 + 0x100 * i, 31, 1⟩
/-- Table 147, CFG_REJ [30], W1C. -/
def dqStatusCfgRej (i : Nat) : RField := ⟨0x02018 + 0x100 * i, 30, 1⟩
/-- Table 147, STATE [25:24], RO. -/
def dqStatusState (i : Nat) : RField := ⟨0x02018 + 0x100 * i, 24, 2⟩
/-- Table 147, RUNNING [20:16], RO. -/
def dqStatusRunning (i : Nat) : RField := ⟨0x02018 + 0x100 * i, 16, 5⟩
/-- Table 147, PENDING [15:0], RO. -/
def dqStatusPending (i : Nat) : RField := ⟨0x02018 + 0x100 * i, 0, 16⟩
/-- Table 147, SEQ [31:0], RO. -/
def dqSeq (i : Nat) : RField := ⟨0x0201C + 0x100 * i, 0, 32⟩
/-- Table 147, ADDR_LO [31:4], RO. -/
def doneLostLoAddrLo (i : Nat) : RField := ⟨0x02020 + 0x100 * i, 4, 28⟩
/-- Table 147, KIND [1], RO. -/
def doneLostLoKind (i : Nat) : RField := ⟨0x02020 + 0x100 * i, 1, 1⟩
/-- Table 147, VALID [0], RO. -/
def doneLostLoValid (i : Nat) : RField := ⟨0x02020 + 0x100 * i, 0, 1⟩
/-- Table 147, ADDR_HI [31:0], RO. -/
def doneLostHi (i : Nat) : RField := ⟨0x02024 + 0x100 * i, 0, 32⟩
/-- Table 147, WORD [31:0], RO. -/
def doneLostW (i j : Nat) : RField := ⟨0x02028 + 0x100 * i + 4 * j, 0, 32⟩
/-- Table 147, DONE [3:0], W1C. -/
def donePend : RField := ⟨0x02400, 0, 4⟩
/-- Table 148, CMD [3:0], WO. -/
def ldrCmd : RField := ⟨0x04000, 0, 4⟩
/-- Table 148, ADDR_LO [31:0], RW. -/
def ldrAddrLo : RField := ⟨0x04004, 0, 32⟩
/-- Table 148, ADDR_HI [31:0], RW. -/
def ldrAddrHi : RField := ⟨0x04008, 0, 32⟩
/-- Table 148, STATUS [31:24], RO. -/
def ldrStateStatus : RField := ⟨0x0400C, 24, 8⟩
/-- Table 148, STATE [18:16], RO. -/
def ldrStateState : RField := ⟨0x0400C, 16, 3⟩
/-- Table 148, TIMEOUT [2], W1C. -/
def ldrStateTimeout : RField := ⟨0x0400C, 2, 1⟩
/-- Table 148, ACT_DONE [1], W1C. -/
def ldrStateActDone : RField := ⟨0x0400C, 1, 1⟩
/-- Table 148, LOAD_END [0], W1C. -/
def ldrStateLoadEnd : RField := ⟨0x0400C, 0, 1⟩
/-- Table 148, DETAIL_LO [31:0], RO. -/
def ldrDetailLo : RField := ⟨0x04010, 0, 32⟩
/-- Table 148, DETAIL_HI [31:0], RO. -/
def ldrDetailHi : RField := ⟨0x04014, 0, 32⟩
/-- Table 148, TIMEOUT_US [23:0], RW. -/
def ldrActTimeout : RField := ⟨0x04018, 0, 24⟩
/-- Table 148, ACTIVE_LO [31:0], RO. -/
def ldrActiveLo : RField := ⟨0x04020, 0, 32⟩
/-- Table 148, ACTIVE_HI [31:0], RO. -/
def ldrActiveHi : RField := ⟨0x04024, 0, 32⟩
/-- Table 148, STAGED_LO [31:0], RO. -/
def ldrStagedLo : RField := ⟨0x04028, 0, 32⟩
/-- Table 148, STAGED_HI [31:0], RO. -/
def ldrStagedHi : RField := ⟨0x0402C, 0, 32⟩
/-- Table 161, OP [2:0], RW. -/
def cpOpReq : RField := ⟨0x08000, 0, 3⟩
/-- Table 161, EN [31], RW. -/
def cpOpOvrEn : RField := ⟨0x08004, 31, 1⟩
/-- Table 161, OVR_OP [2:0], RW. -/
def cpOpOvrOvrOp : RField := ⟨0x08004, 0, 3⟩
/-- Table 161, TG_OP [23:0], RO. -/
def cpOpTg : RField := ⟨0x08008, 0, 24⟩
/-- Table 161, CHANGING [31], RO. -/
def cpOpCoreChanging : RField := ⟨0x0800C, 31, 1⟩
/-- Table 161, SRT_OP [10:8], RO. -/
def cpOpCoreSrtOp : RField := ⟨0x0800C, 8, 3⟩
/-- Table 161, MXB_OP [6:4], RO. -/
def cpOpCoreMxbOp : RField := ⟨0x0800C, 4, 3⟩
/-- Table 161, MXA_OP [2:0], RO. -/
def cpOpCoreMxaOp : RField := ⟨0x0800C, 0, 3⟩
/-- Table 161, ON [29:0], RW. -/
def cpPdReq : RField := ⟨0x08010, 0, 30⟩
/-- Table 161, ON [29:0], RO. -/
def cpPdState : RField := ⟨0x08014, 0, 30⟩
/-- Table 161, PD_REJ [31], W1C. -/
def cpPdStatusPdRej : RField := ⟨0x08018, 31, 1⟩
/-- Table 161, REJ_DOMAIN [4:0], RO. -/
def cpPdStatusRejDomain : RField := ⟨0x08018, 0, 5⟩
/-- Table 161, PEER [6], MW. -/
def cpLpCtrlPeer : RField := ⟨0x08020, 6, 1⟩
/-- Table 161, FRAME [5], MW. -/
def cpLpCtrlFrame : RField := ⟨0x08020, 5, 1⟩
/-- Table 161, TAIL [4], MW. -/
def cpLpCtrlTail : RField := ⟨0x08020, 4, 1⟩
/-- Table 161, REQ [1:0], MW. -/
def cpLpCtrlReq : RField := ⟨0x08020, 0, 2⟩
/-- Table 161, LAST_WAKE [10:8], RO. -/
def cpLpStatusLastWake : RField := ⟨0x08024, 8, 3⟩
/-- Table 161, STATE [2:0], RO. -/
def cpLpStatusState : RField := ⟨0x08024, 0, 3⟩
/-- Table 161, RET [29:0], RW. -/
def cpNapRet : RField := ⟨0x08028, 0, 30⟩
/-- Table 161, HALF [29:0], RO. -/
def cpSupStretch : RField := ⟨0x08030, 0, 30⟩
/-- Table 161, CP_SUP_DIPS [31:0], RC. -/
def cpSupDips : RField := ⟨0x08034, 0, 32⟩
/-- Table 161, CP_SUP_LONGEST [31:0], RC. -/
def cpSupLongest : RField := ⟨0x08038, 0, 32⟩
/-- Table 161, COUNT_LO [31:0], RO. -/
def cpAonCountLo : RField := ⟨0x08040, 0, 32⟩
/-- Table 161, COUNT_HI [31:0], RO. -/
def cpAonCountHi : RField := ⟨0x08044, 0, 32⟩
/-- Table 162, SOFT [15], MW. -/
def rstCtrlSoft : RField := ⟨0x0A000, 15, 1⟩
/-- Table 162, WARM [14], MW. -/
def rstCtrlWarm : RField := ⟨0x0A000, 14, 1⟩
/-- Table 162, GO [15], MW. -/
def rstDomainGo : RField := ⟨0x0A004, 15, 1⟩
/-- Table 162, DOMAIN [4:0], MW. -/
def rstDomainDomain : RField := ⟨0x0A004, 0, 5⟩
/-- Table 162, CAUSE [31:28], RO. -/
def rstStatusCause : RField := ⟨0x0A008, 28, 4⟩
/-- Table 162, DOM_DONE [27], W1C. -/
def rstStatusDomDone : RField := ⟨0x0A008, 27, 1⟩
/-- Table 162, DOM_REJ [26], W1C. -/
def rstStatusDomRej : RField := ⟨0x0A008, 26, 1⟩
/-- Table 162, SOFT_BUSY [25], RO. -/
def rstStatusSoftBusy : RField := ⟨0x0A008, 25, 1⟩
/-- Table 162, RST_DROPPED [31:0], RO. -/
def rstDropped : RField := ⟨0x0A00C, 0, 32⟩
/-- Table 162, STATE [1:0], RO. -/
def lcyState : RField := ⟨0x0A010, 0, 2⟩
/-- Table 162, TARGET [1:0], WO. -/
def lcyReq : RField := ⟨0x0A014, 0, 2⟩
/-- Table 162, RESULT [3:0], RO. -/
def lcyStatus : RField := ⟨0x0A018, 0, 4⟩
/-- Table 162, GO [15], MW. -/
def wipeCtrlGo : RField := ⟨0x0A020, 15, 1⟩
/-- Table 162, SET [5:0], MW. -/
def wipeCtrlSet : RField := ⟨0x0A020, 0, 6⟩
/-- Table 162, DONE [31], W1C. -/
def wipeStatusDone : RField := ⟨0x0A024, 31, 1⟩
/-- Table 162, PENDING [30], RO. -/
def wipeStatusPending : RField := ⟨0x0A024, 30, 1⟩
/-- Table 150, RECOVERING [31], RO. -/
def rasStatusRecovering : RField := ⟨0x0C000, 31, 1⟩
/-- Table 150, CLASS_SEEN [26:16], W1C. -/
def rasStatusClassSeen : RField := ⟨0x0C000, 16, 11⟩
/-- Table 150, VALID [31], W1C. -/
def rasCapValid : RField := ⟨0x0C004, 31, 1⟩
/-- Table 150, CLASS [27:24], RO. -/
def rasCapClass : RField := ⟨0x0C004, 24, 4⟩
/-- Table 150, UNIT_KIND [19:16], RO. -/
def rasCapUnitKind : RField := ⟨0x0C004, 16, 4⟩
/-- Table 150, UNIT_INDEX [5:0], RO. -/
def rasCapUnitIndex : RField := ⟨0x0C004, 0, 6⟩
/-- Table 150, INFO [31:0], RO. -/
def rasCapInfo : RField := ⟨0x0C008, 0, 32⟩
/-- Table 150, SEQ [31:0], RO. -/
def rasCapSeq : RField := ⟨0x0C00C, 0, 32⟩
/-- Table 150, RAS_CORR_COUNT [31:0], RC. -/
def rasCorrCount : RField := ⟨0x0C010, 0, 32⟩
/-- Table 150, RAS_UNC_COUNT [31:0], RC. -/
def rasUncCount : RField := ⟨0x0C014, 0, 32⟩
/-- Table 150, VALID [31], W1C. -/
def rasCfgParValid : RField := ⟨0x0C018, 31, 1⟩
/-- Table 150, ADDR [19:2], RO. -/
def rasCfgParAddr : RField := ⟨0x0C018, 2, 18⟩
/-- Table 150, BUFFER [1], RO. -/
def rasCfgParBuffer : RField := ⟨0x0C018, 1, 1⟩
/-- Table 150, GO [15], MW. -/
def rasFenceGo : RField := ⟨0x0C020, 15, 1⟩
/-- Table 150, OP [13:12], MW. -/
def rasFenceOp : RField := ⟨0x0C020, 12, 2⟩
/-- Table 150, UNIT_KIND [11:8], MW. -/
def rasFenceUnitKind : RField := ⟨0x0C020, 8, 4⟩
/-- Table 150, UNIT_INDEX [5:0], MW. -/
def rasFenceUnitIndex : RField := ⟨0x0C020, 0, 6⟩
/-- Table 150, RESULT [3:0], RO. -/
def rasFenceStatus : RField := ⟨0x0C024, 0, 4⟩
/-- Table 150, TC [31:0], RO. -/
def rasFencedTc : RField := ⟨0x0C028, 0, 32⟩
/-- Table 150, SE [31:16], RO. -/
def rasFencedASe : RField := ⟨0x0C02C, 16, 16⟩
/-- Table 150, LC [15:0], RO. -/
def rasFencedALc : RField := ⟨0x0C02C, 0, 16⟩
/-- Table 150, MP [31:16], RO. -/
def rasFencedBMp : RField := ⟨0x0C030, 16, 16⟩
/-- Table 150, PLK [15:8], RO. -/
def rasFencedBPlk : RField := ⟨0x0C030, 8, 8⟩
/-- Table 150, QUAD [7:0], RO. -/
def rasFencedBQuad : RField := ⟨0x0C030, 0, 8⟩
/-- Table 150, SF_LO [31:0], RO. -/
def rasFencedSfLo : RField := ⟨0x0C034, 0, 32⟩
/-- Table 150, SF_HI [31:0], RO. -/
def rasFencedSfHi : RField := ⟨0x0C038, 0, 32⟩
/-- Table 169, LATE [31], W1C. -/
def rasRecovLate : RField := ⟨0x0C040, 31, 1⟩
/-- Table 169, EF_WRITTEN [30], W1C. -/
def rasRecovEfWritten : RField := ⟨0x0C040, 30, 1⟩
/-- Table 169, IN_WINDOW [15:0], RO. -/
def rasRecovInWindow : RField := ⟨0x0C040, 0, 16⟩
/-- Table 169, EF_SEQ [31:0], RO. -/
def rasEfSeq : RField := ⟨0x0C044, 0, 32⟩
/-- Table 169, BASE_LO [31:5], RW. -/
def rasEfBaseLo : RField := ⟨0x0C048, 5, 27⟩
/-- Table 169, BASE_HI [31:0], RW. -/
def rasEfBaseHi : RField := ⟨0x0C04C, 0, 32⟩
/-- Table 169, SIZE_LOG2 [3:0], RW. -/
def rasEfSize : RField := ⟨0x0C050, 0, 4⟩
/-- Table 169, WD_MS [15:0], RW. -/
def rasWd : RField := ⟨0x0C054, 0, 16⟩
/-- Table 169, PEND_LO [31:0], RO. -/
def rasSfPendLo : RField := ⟨0x0C058, 0, 32⟩
/-- Table 169, PEND_HI [31:0], RO. -/
def rasSfPendHi : RField := ⟨0x0C05C, 0, 32⟩
/-- Table 169, LOST_LO [31:0], W1C. -/
def rasSfLostLo : RField := ⟨0x0C060, 0, 32⟩
/-- Table 169, LOST_HI [31:0], W1C. -/
def rasSfLostHi : RField := ⟨0x0C064, 0, 32⟩
/-- Table 169, DOMAIN [3:0], RW. -/
def rasAgeSel : RField := ⟨0x0C080, 0, 4⟩
/-- Table 169, V_ADJ [23:0], RO. -/
def rasAgeAdj : RField := ⟨0x0C084, 0, 24⟩
/-- Table 169, WARN [31], RO. -/
def rasAgeStatusWarn : RField := ⟨0x0C088, 31, 1⟩
/-- Table 169, CAP [30:28], RO. -/
def rasAgeStatusCap : RField := ⟨0x0C088, 28, 3⟩
/-- Table 169, LAST_SLACK [23:16], RO. -/
def rasAgeStatusLastSlack : RField := ⟨0x0C088, 16, 8⟩
/-- Table 169, CHANGES [15:0], RO. -/
def rasAgeStatusChanges : RField := ⟨0x0C088, 0, 16⟩
/-- Table 169, HOURS [31:0], RO. -/
def rasAgeHours : RField := ⟨0x0C08C, 0, 32⟩
/-- Table 169, SLACK_MIN [7:0], RW. -/
def rasAgeCfg : RField := ⟨0x0C090, 0, 8⟩
/-- Table 169, MEASURE [0], WO. -/
def rasAgeCmd : RField := ⟨0x0C094, 0, 1⟩
/-- Table 67, LC_IN_SERVICE [5:4], RO. -/
def tgStatusLcInService (i : Nat) : RField := ⟨0x10000 + 0x1000 * i, 4, 2⟩
/-- Table 67, TC_IN_SERVICE [3:0], RO. -/
def tgStatusTcInService (i : Nat) : RField := ⟨0x10000 + 0x1000 * i, 0, 4⟩
/-- Table 67, BATCH_TIMEOUT [15:0], RW. -/
def tgNbCfg (i : Nat) : RField := ⟨0x10004 + 0x1000 * i, 0, 16⟩
/-- Table 67, COUNT [9:0], RO. -/
def tgSuspended (i : Nat) : RField := ⟨0x10008 + 0x1000 * i, 0, 10⟩
/-- Table 67, FAIL_COUNT [31:0], RC. -/
def tgFailCount (i : Nat) : RField := ⟨0x1000C + 0x1000 * i, 0, 32⟩
/-- Table 67, VALID [31], W1C. -/
def tgFailInfoValid (i : Nat) : RField := ⟨0x10010 + 0x1000 * i, 31, 1⟩
/-- Table 67, CLUSTER [21:20], RO. -/
def tgFailInfoCluster (i : Nat) : RField := ⟨0x10010 + 0x1000 * i, 20, 2⟩
/-- Table 67, CAUSE [15:8], RO. -/
def tgFailInfoCause (i : Nat) : RField := ⟨0x10010 + 0x1000 * i, 8, 8⟩
/-- Table 67, STATUS [7:0], RO. -/
def tgFailInfoStatus (i : Nat) : RField := ⟨0x10010 + 0x1000 * i, 0, 8⟩
/-- Table 67, RAY_ID [31:0], RO. -/
def tgFailRay (i : Nat) : RField := ⟨0x10014 + 0x1000 * i, 0, 32⟩
/-- Table 67, TREELET [19:0], RO. -/
def tgFailTreelet (i : Nat) : RField := ⟨0x10018 + 0x1000 * i, 0, 20⟩
/-- Table 71, ACTIVE_QUEUES [28:16], RO. -/
def srtStatusActiveQueues : RField := ⟨0x18000, 16, 13⟩
/-- Table 71, FETCHES [6:0], RO. -/
def srtStatusFetches : RField := ⟨0x18000, 0, 7⟩
/-- Table 71, FREE [13:0], RO. -/
def srtSegments : RField := ⟨0x18004, 0, 14⟩
/-- Table 71, SPILL_LOW [31:16], RW. -/
def srtSpillCfgSpillLow : RField := ⟨0x18008, 16, 16⟩
/-- Table 71, EN [4], RW. -/
def srtSpillCfgEn : RField := ⟨0x18008, 4, 1⟩
/-- Table 71, DEPTH_LOG2 [3:0], RW. -/
def srtSpillCfgDepthLog2 : RField := ⟨0x18008, 0, 4⟩
/-- Table 71, BASE_LO [31:12], RW. -/
def spillBaseLo : RField := ⟨0x1800C, 12, 20⟩
/-- Table 71, BASE_HI [31:0], RW. -/
def spillBaseHi : RField := ⟨0x18010, 0, 32⟩
/-- Table 71, COUNT [20:0], RO. -/
def srtSpilled : RField := ⟨0x18014, 0, 21⟩
/-- Table 71, SRT_RAYS_IN [31:0], RC. -/
def srtRaysIn : RField := ⟨0x18020, 0, 32⟩
/-- Table 71, SRT_REBINS [31:0], RC. -/
def srtRebins : RField := ⟨0x18024, 0, 32⟩
/-- Table 71, SRT_BATCHES [31:0], RC. -/
def srtBatches : RField := ⟨0x18028, 0, 32⟩
/-- Table 71, SRT_FETCHES [31:0], RC. -/
def srtFetches : RField := ⟨0x1802C, 0, 32⟩
/-- Table 71, SRT_REFETCHES [31:0], RC. -/
def srtRefetches : RField := ⟨0x18030, 0, 32⟩
/-- Table 71, SRT_OVF_RAYS [31:0], RC. -/
def srtOvfRays : RField := ⟨0x18034, 0, 32⟩
/-- Table 71, SRT_SEG_SPILLS [31:0], RC. -/
def srtSegSpills : RField := ⟨0x18038, 0, 32⟩
/-- Table 71, SRT_SEG_RAW [31:0], RC. -/
def srtSegRaw : RField := ⟨0x1803C, 0, 32⟩
/-- Table 71, SRT_SEG_REFILLS [31:0], RC. -/
def srtSegRefills : RField := ⟨0x18040, 0, 32⟩
/-- Table 71, CREDIT3 [31:24], RO. -/
def hrpCreditsCredit3 : RField := ⟨0x18100, 24, 8⟩
/-- Table 71, CREDIT2 [23:16], RO. -/
def hrpCreditsCredit2 : RField := ⟨0x18100, 16, 8⟩
/-- Table 71, CREDIT1 [15:8], RO. -/
def hrpCreditsCredit1 : RField := ⟨0x18100, 8, 8⟩
/-- Table 71, CREDIT0 [7:0], RO. -/
def hrpCreditsCredit0 : RField := ⟨0x18100, 0, 8⟩
/-- Table 71, FILL3 [31:24], RO. -/
def hrpFillFill3 : RField := ⟨0x18104, 24, 8⟩
/-- Table 71, FILL2 [23:16], RO. -/
def hrpFillFill2 : RField := ⟨0x18104, 16, 8⟩
/-- Table 71, FILL1 [15:8], RO. -/
def hrpFillFill1 : RField := ⟨0x18104, 8, 8⟩
/-- Table 71, FILL0 [7:0], RO. -/
def hrpFillFill0 : RField := ⟨0x18104, 0, 8⟩
/-- Table 71, HRP_RECORDS [31:0], RC. -/
def hrpRecords : RField := ⟨0x18108, 0, 32⟩
/-- Table 71, HRP_FULL_CLK [31:0], RC. -/
def hrpFullClk : RField := ⟨0x1810C, 0, 32⟩
/-- Table 71, COUNT [16:0], RO. -/
def hrpHeld : RField := ⟨0x18110, 0, 17⟩
/-- Table 80, ACTIVE [31:16], RO. -/
def qryStatusActive : RField := ⟨0x1A000, 16, 16⟩
/-- Table 80, OPEN_BLOCKS [7:0], RO. -/
def qryStatusOpenBlocks : RField := ⟨0x1A000, 0, 8⟩
/-- Table 80, BLOCK_TIMEOUT [15:0], RW. -/
def qryCfg : RField := ⟨0x1A004, 0, 16⟩
/-- Table 80, QRY_FAIL_COUNT [31:0], RC. -/
def qryFailCount : RField := ⟨0x1A008, 0, 32⟩
/-- Table 80, VALID [31], W1C. -/
def qryFailInfoValid : RField := ⟨0x1A00C, 31, 1⟩
/-- Table 80, UNIT_INDEX [28:24], RO. -/
def qryFailInfoUnitIndex : RField := ⟨0x1A00C, 24, 5⟩
/-- Table 80, UNIT_KIND [23:20], RO. -/
def qryFailInfoUnitKind : RField := ⟨0x1A00C, 20, 4⟩
/-- Table 80, CAUSE [15:8], RO. -/
def qryFailInfoCause : RField := ⟨0x1A00C, 8, 8⟩
/-- Table 80, STATUS [7:0], RO. -/
def qryFailInfoStatus : RField := ⟨0x1A00C, 0, 8⟩
/-- Table 80, QUERY_ID [31:0], RO. -/
def qryFailId : RField := ⟨0x1A010, 0, 32⟩
/-- Table 80, TREELET [19:0], RO. -/
def qryFailTreelet : RField := ⟨0x1A014, 0, 20⟩
/-- Table 80, QRY_TAKEN [31:0], RC. -/
def qryTaken : RField := ⟨0x1A020, 0, 32⟩
/-- Table 80, QRY_NODE_STEPS [31:0], RC. -/
def qryNodeSteps : RField := ⟨0x1A024, 0, 32⟩
/-- Table 80, QRY_KEY_TESTS [31:0], RC. -/
def qryKeyTests : RField := ⟨0x1A028, 0, 32⟩
/-- Table 80, QRY_BLOCKS [31:0], RC. -/
def qryBlocks : RField := ⟨0x1A02C, 0, 32⟩
/-- Table 80, QRY_UNION_KEYS [31:0], RC. -/
def qryUnionKeys : RField := ⟨0x1A030, 0, 32⟩
/-- Table 95, BUSY [11:8], RO. -/
def mxStatusBusy (i : Nat) : RField := ⟨0x20000 + 0x4000 * i, 8, 4⟩
/-- Table 95, Q_IN_SERVICE [3:0], RO. -/
def mxStatusQInService (i : Nat) : RField := ⟨0x20000 + 0x4000 * i, 0, 4⟩
/-- Table 95, ACTIVE_HALF [3:0], RO. -/
def mxHalf (i : Nat) : RField := ⟨0x20004 + 0x4000 * i, 0, 4⟩
/-- Table 95, MAC_LO [31:0], RO. -/
def mxMacLo (i : Nat) : RField := ⟨0x20008 + 0x4000 * i, 0, 32⟩
/-- Table 95, MAC_HI [31:0], RO. -/
def mxMacHi (i : Nat) : RField := ⟨0x2000C + 0x4000 * i, 0, 32⟩
/-- Table 95, MX_SAT_COUNT [31:0], RC. -/
def mxSatCount (i : Nat) : RField := ⟨0x20010 + 0x4000 * i, 0, 32⟩
/-- Table 95, MX_NAN_COUNT [31:0], RC. -/
def mxNanCount (i : Nat) : RField := ⟨0x20014 + 0x4000 * i, 0, 32⟩
/-- Table 95, MX_STALL_WEIGHT [31:0], RC. -/
def mxStallWeight (i : Nat) : RField := ⟨0x20018 + 0x4000 * i, 0, 32⟩
/-- Table 95, MX_STALL_DATA [31:0], RC. -/
def mxStallData (i : Nat) : RField := ⟨0x2001C + 0x4000 * i, 0, 32⟩
/-- Table 95, MX_STALL_PREEMPT [31:0], RC. -/
def mxStallPreempt (i : Nat) : RField := ⟨0x20020 + 0x4000 * i, 0, 32⟩
/-- Table 95, MX_STALL_RECOVERY [31:0], RC. -/
def mxStallRecovery (i : Nat) : RField := ⟨0x20024 + 0x4000 * i, 0, 32⟩
/-- Table 95, MX_STALL_FAULT [31:0], RC. -/
def mxStallFault (i : Nat) : RField := ⟨0x20028 + 0x4000 * i, 0, 32⟩
/-- Table 95, MX_REFETCH [31:0], RC. -/
def mxRefetch (i : Nat) : RField := ⟨0x2002C + 0x4000 * i, 0, 32⟩
/-- Table 95, VALID [31], W1C. -/
def mxFailInfoValid (i : Nat) : RField := ⟨0x20030 + 0x4000 * i, 31, 1⟩
/-- Table 95, QUAD [17:16], RO. -/
def mxFailInfoQuad (i : Nat) : RField := ⟨0x20030 + 0x4000 * i, 16, 2⟩
/-- Table 95, CAUSE [15:8], RO. -/
def mxFailInfoCause (i : Nat) : RField := ⟨0x20030 + 0x4000 * i, 8, 8⟩
/-- Table 95, STATUS [7:0], RO. -/
def mxFailInfoStatus (i : Nat) : RField := ⟨0x20030 + 0x4000 * i, 0, 8⟩
/-- Table 95, ITEM [31:0], RO. -/
def mxFailItem (i : Nat) : RField := ⟨0x20034 + 0x4000 * i, 0, 32⟩
/-- Table 95, LAYER [7:0], RO. -/
def mxFailLayer (i : Nat) : RField := ⟨0x20038 + 0x4000 * i, 0, 8⟩
/-- Table 106, SPLIT [25:24], RO. -/
def lcStatusSplit (i : Nat) : RField := ⟨0x28000 + 0x400 * i, 24, 2⟩
/-- Table 106, FREE_BLOCKS [23:12], RO. -/
def lcStatusFreeBlocks (i : Nat) : RField := ⟨0x28000 + 0x400 * i, 12, 12⟩
/-- Table 106, IN_SERVICE [8], RO. -/
def lcStatusInService (i : Nat) : RField := ⟨0x28000 + 0x400 * i, 8, 1⟩
/-- Table 106, GROUPS [6:0], RO. -/
def lcStatusGroups (i : Nat) : RField := ⟨0x28000 + 0x400 * i, 0, 7⟩
/-- Table 106, GATHER [15:0], RW. -/
def lcCfg (i : Nat) : RField := ⟨0x28004 + 0x400 * i, 0, 16⟩
/-- Table 106, WAITING [8:0], RO. -/
def lcCallouts (i : Nat) : RField := ⟨0x28008 + 0x400 * i, 0, 9⟩
/-- Table 106, ISSUED_LO [31:0], RO. -/
def lcIssuedLo (i : Nat) : RField := ⟨0x2800C + 0x400 * i, 0, 32⟩
/-- Table 106, ISSUED_HI [31:0], RO. -/
def lcIssuedHi (i : Nat) : RField := ⟨0x28010 + 0x400 * i, 0, 32⟩
/-- Table 106, LC_STALL_DATA [31:0], RC. -/
def lcStallData (i : Nat) : RField := ⟨0x28014 + 0x400 * i, 0, 32⟩
/-- Table 106, LC_STALL_BANK [31:0], RC. -/
def lcStallBank (i : Nat) : RField := ⟨0x28018 + 0x400 * i, 0, 32⟩
/-- Table 106, LC_STALL_XLAT [31:0], RC. -/
def lcStallXlat (i : Nat) : RField := ⟨0x2801C + 0x400 * i, 0, 32⟩
/-- Table 106, LC_STALL_FAULT [31:0], RC. -/
def lcStallFault (i : Nat) : RField := ⟨0x28020 + 0x400 * i, 0, 32⟩
/-- Table 106, LC_STALL_CREDIT [31:0], RC. -/
def lcStallCredit (i : Nat) : RField := ⟨0x28024 + 0x400 * i, 0, 32⟩
/-- Table 106, LC_STALL_PREEMPT [31:0], RC. -/
def lcStallPreempt (i : Nat) : RField := ⟨0x28028 + 0x400 * i, 0, 32⟩
/-- Table 106, LC_MMA_BUSY [31:0], RC. -/
def lcMmaBusy (i : Nat) : RField := ⟨0x2802C + 0x400 * i, 0, 32⟩
/-- Table 106, LC_LOCK_RELEASED [31:0], RC. -/
def lcLockReleased (i : Nat) : RField := ⟨0x28030 + 0x400 * i, 0, 32⟩
/-- Table 106, LC_PROG_FAULTS [31:0], RC. -/
def lcProgFaults (i : Nat) : RField := ⟨0x28034 + 0x400 * i, 0, 32⟩
/-- Table 106, VALID [31], W1C. -/
def lcFailInfoValid (i : Nat) : RField := ⟨0x28040 + 0x400 * i, 31, 1⟩
/-- Table 106, SLOT [29:24], RO. -/
def lcFailInfoSlot (i : Nat) : RField := ⟨0x28040 + 0x400 * i, 24, 6⟩
/-- Table 106, LANE [20:16], RO. -/
def lcFailInfoLane (i : Nat) : RField := ⟨0x28040 + 0x400 * i, 16, 5⟩
/-- Table 106, CAUSE [15:8], RO. -/
def lcFailInfoCause (i : Nat) : RField := ⟨0x28040 + 0x400 * i, 8, 8⟩
/-- Table 106, PROG [5:0], RO. -/
def lcFailInfoProg (i : Nat) : RField := ⟨0x28040 + 0x400 * i, 0, 6⟩
/-- Table 106, PC [17:0], RO. -/
def lcFailPc (i : Nat) : RField := ⟨0x28044 + 0x400 * i, 0, 18⟩
/-- Table 106, ITEM [31:0], RO. -/
def lcFailItem (i : Nat) : RField := ⟨0x28048 + 0x400 * i, 0, 32⟩
/-- Table 125, RUN_STATUS [31:24], RO. -/
def seStatusRunStatus (i : Nat) : RField := ⟨0x30000 + 0x400 * i, 24, 8⟩
/-- Table 125, DICT_EXCESS [23], RO. -/
def seStatusDictExcess (i : Nat) : RField := ⟨0x30000 + 0x400 * i, 23, 1⟩
/-- Table 125, WAIT [19:16], RO. -/
def seStatusWait (i : Nat) : RField := ⟨0x30000 + 0x400 * i, 16, 4⟩
/-- Table 125, OUTSTANDING [10:8], RO. -/
def seStatusOutstanding (i : Nat) : RField := ⟨0x30000 + 0x400 * i, 8, 3⟩
/-- Table 125, SHADOW [2], RO. -/
def seStatusShadow (i : Nat) : RField := ⟨0x30000 + 0x400 * i, 2, 1⟩
/-- Table 125, ACTIVE [1], RO. -/
def seStatusActive (i : Nat) : RField := ⟨0x30000 + 0x400 * i, 1, 1⟩
/-- Table 125, IN_SERVICE [0], RO. -/
def seStatusInService (i : Nat) : RField := ⟨0x30000 + 0x400 * i, 0, 1⟩
/-- Table 125, ADDR_LO [31:6], RW. -/
def seArmAddrLo (i : Nat) : RField := ⟨0x30004 + 0x400 * i, 6, 26⟩
/-- Table 125, ADDR_HI [31:0], RW. -/
def seArmAddrHi (i : Nat) : RField := ⟨0x30008 + 0x400 * i, 0, 32⟩
/-- Table 125, CLASS [5:4], WO. -/
def seCmdClass (i : Nat) : RField := ⟨0x3000C + 0x400 * i, 4, 2⟩
/-- Table 125, CMD [3:0], WO. -/
def seCmdCmd (i : Nat) : RField := ⟨0x3000C + 0x400 * i, 0, 4⟩
/-- Table 125, ARM [3:0], RO. -/
def seArmResult (i : Nat) : RField := ⟨0x30010 + 0x400 * i, 0, 4⟩
/-- Table 125, DELIVERED_LO [31:0], RO. -/
def seDeliveredLo (i : Nat) : RField := ⟨0x30014 + 0x400 * i, 0, 32⟩
/-- Table 125, DELIVERED_HI [7:0], RO. -/
def seDeliveredHi (i : Nat) : RField := ⟨0x30018 + 0x400 * i, 0, 8⟩
/-- Table 125, I1 [31:16], RO. -/
def seRestart01I1 (i : Nat) : RField := ⟨0x3001C + 0x400 * i, 16, 16⟩
/-- Table 125, I0 [15:0], RO. -/
def seRestart01I0 (i : Nat) : RField := ⟨0x3001C + 0x400 * i, 0, 16⟩
/-- Table 125, I3 [31:16], RO. -/
def seRestart23I3 (i : Nat) : RField := ⟨0x30020 + 0x400 * i, 16, 16⟩
/-- Table 125, I2 [15:0], RO. -/
def seRestart23I2 (i : Nat) : RField := ⟨0x30020 + 0x400 * i, 0, 16⟩
/-- Table 125, I4 [15:0], RO. -/
def seRestart4 (i : Nat) : RField := ⟨0x30024 + 0x400 * i, 0, 16⟩
/-- Table 125, SE_TILES [31:0], RO. -/
def seTiles (i : Nat) : RField := ⟨0x30028 + 0x400 * i, 0, 32⟩
/-- Table 125, BYTES_LO [31:0], RO. -/
def seBytesLo (i : Nat) : RField := ⟨0x30030 + 0x400 * i, 0, 32⟩
/-- Table 125, BYTES_HI [31:0], RO. -/
def seBytesHi (i : Nat) : RField := ⟨0x30034 + 0x400 * i, 0, 32⟩
/-- Table 125, SE_RUNS [31:0], RC. -/
def seRuns (i : Nat) : RField := ⟨0x30038 + 0x400 * i, 0, 32⟩
/-- Table 125, SE_STALL_XLAT [31:0], RC. -/
def seStallXlat (i : Nat) : RField := ⟨0x3003C + 0x400 * i, 0, 32⟩
/-- Table 125, SE_STALL_FAULT [31:0], RC. -/
def seStallFault (i : Nat) : RField := ⟨0x30040 + 0x400 * i, 0, 32⟩
/-- Table 125, SE_STALL_CREDIT [31:0], RC. -/
def seStallCredit (i : Nat) : RField := ⟨0x30044 + 0x400 * i, 0, 32⟩
/-- Table 125, SE_STALL_BANK [31:0], RC. -/
def seStallBank (i : Nat) : RField := ⟨0x30048 + 0x400 * i, 0, 32⟩
/-- Table 125, SE_STALL_DATA [31:0], RC. -/
def seStallData (i : Nat) : RField := ⟨0x3004C + 0x400 * i, 0, 32⟩
/-- Table 125, SE_STALL_RECOVERY [31:0], RC. -/
def seStallRecovery (i : Nat) : RField := ⟨0x30050 + 0x400 * i, 0, 32⟩
/-- Table 129, MP_IN_SERVICE [31:16], RO. -/
def strmGlobalMpInService : RField := ⟨0x34000, 16, 16⟩
/-- Table 129, PEERLESS [9], RO. -/
def strmGlobalPeerless : RField := ⟨0x34000, 9, 1⟩
/-- Table 129, TAG_LIMITED [8], RO. -/
def strmGlobalTagLimited : RField := ⟨0x34000, 8, 1⟩
/-- Table 129, MP_COUNT [4:0], RO. -/
def strmGlobalMpCount : RField := ⟨0x34000, 0, 5⟩
/-- Table 129, DONE [15:0], W1C. -/
def seDonePend : RField := ⟨0x34004, 0, 16⟩
/-- Table 129, DICT_POLL [15:0], RW. -/
def strmDict : RField := ⟨0x34008, 0, 16⟩
/-- Table 129, MP_RD_SECTORS [31:0], RC. -/
def mpRdSectors (i : Nat) : RField := ⟨0x34100 + 0x10 * i, 0, 32⟩
/-- Table 129, MP_WR_SECTORS [31:0], RC. -/
def mpWrSectors (i : Nat) : RField := ⟨0x34104 + 0x10 * i, 0, 32⟩
/-- Table 129, MP_RM_SECTORS [31:0], RC. -/
def mpRmSectors (i : Nat) : RField := ⟨0x34108 + 0x10 * i, 0, 32⟩
/-- Table 129, MP_TAG_WAIT [31:0], RC. -/
def mpTagWait (i : Nat) : RField := ⟨0x3410C + 0x10 * i, 0, 32⟩
/-- Table 129, MP_RSP_STRAY [31:0], RC. -/
def mpRspStray (i : Nat) : RField := ⟨0x34200 + 4 * i, 0, 32⟩
/-- Table 136, XREQ [22:16], RO. -/
def xlatStatusXreq : RField := ⟨0x38000, 16, 7⟩
/-- Table 136, INV_PEND [11:8], RO. -/
def xlatStatusInvPend : RField := ⟨0x38000, 8, 4⟩
/-- Table 136, HOT_PEND [5], RO. -/
def xlatStatusHotPend : RField := ⟨0x38000, 5, 1⟩
/-- Table 136, OPEN [4:0], RO. -/
def xlatStatusOpen : RField := ⟨0x38000, 0, 5⟩
/-- Table 136, PASID_EN [20], RW. -/
def xlatPasidPasidEn : RField := ⟨0x38004, 20, 1⟩
/-- Table 136, PASID [19:0], RW. -/
def xlatPasidPasid : RField := ⟨0x38004, 0, 20⟩
/-- Table 136, TIMEOUT_MS [15:0], RW. -/
def xlatTimeout : RField := ⟨0x38008, 0, 16⟩
/-- Table 136, OPEN_MASK [15:0], RO. -/
def xlatOpen : RField := ⟨0x3800C, 0, 16⟩
/-- Table 136, XLAT_UTLB_MISS [31:0], RC. -/
def xlatUtlbMiss : RField := ⟨0x38010, 0, 32⟩
/-- Table 136, XLAT_FAULTS [31:0], RC. -/
def xlatFaults : RField := ⟨0x38014, 0, 32⟩
/-- Table 136, XLAT_COALESCED [31:0], RC. -/
def xlatCoalesced : RField := ⟨0x38018, 0, 32⟩
/-- Table 136, XLAT_INVALS [31:0], RC. -/
def xlatInvals : RField := ⟨0x3801C, 0, 32⟩
/-- Table 136, XLAT_INV_MAX [31:0], RC. -/
def xlatInvMax : RField := ⟨0x38020, 0, 32⟩
/-- Table 136, XLAT_TIMEOUTS [31:0], RC. -/
def xlatTimeouts : RField := ⟨0x38024, 0, 32⟩
/-- Table 136, EN [31], RW. -/
def xlatHotCfgEn : RField := ⟨0x38040, 31, 1⟩
/-- Table 136, THRESHOLD [15:0], RW. -/
def xlatHotCfgThreshold : RField := ⟨0x38040, 0, 16⟩
/-- Table 136, DECAY_MS [15:0], RW. -/
def xlatHotDecay : RField := ⟨0x38044, 0, 16⟩
/-- Table 136, REGION_LO [31:0], RO. -/
def xlatHotLo : RField := ⟨0x38048, 0, 32⟩
/-- Table 136, VALID [31], RO. -/
def xlatHotHiValid : RField := ⟨0x3804C, 31, 1⟩
/-- Table 136, REGION_HI [15:0], RO. -/
def xlatHotHiRegionHi : RField := ⟨0x3804C, 0, 16⟩
/-- Table 136, COUNT [15:0], RO. -/
def xlatHotCount : RField := ⟨0x38050, 0, 16⟩
/-- Table 136, POP [0], WO. -/
def xlatHotPop : RField := ⟨0x38054, 0, 1⟩
/-- Table 136, XLAT_HOT_DROPPED [31:0], RC. -/
def xlatHotDropped : RField := ⟨0x38058, 0, 32⟩
/-- Table 136, PAGE_LO [31:12], RO. -/
def fltVaLo (i : Nat) : RField := ⟨0x38100 + 0x20 * i, 12, 20⟩
/-- Table 136, PAGE_HI [31:0], RO. -/
def fltVaHi (i : Nat) : RField := ⟨0x38104 + 0x20 * i, 0, 32⟩
/-- Table 136, OPEN [31], RO. -/
def fltInfoOpen (i : Nat) : RField := ⟨0x38108 + 0x20 * i, 31, 1⟩
/-- Table 136, REASON [27:24], RO. -/
def fltInfoReason (i : Nat) : RField := ⟨0x38108 + 0x20 * i, 24, 4⟩
/-- Table 136, WRITE [23], RO. -/
def fltInfoWrite (i : Nat) : RField := ⟨0x38108 + 0x20 * i, 23, 1⟩
/-- Table 136, READ [22], RO. -/
def fltInfoRead (i : Nat) : RField := ⟨0x38108 + 0x20 * i, 22, 1⟩
/-- Table 136, CLASS [21:20], RO. -/
def fltInfoClass (i : Nat) : RField := ⟨0x38108 + 0x20 * i, 20, 2⟩
/-- Table 136, PASID [19:0], RO. -/
def fltInfoPasid (i : Nat) : RField := ⟨0x38108 + 0x20 * i, 0, 20⟩
/-- Table 136, REQ_LO [31:0], RO. -/
def fltReqLo (i : Nat) : RField := ⟨0x3810C + 0x20 * i, 0, 32⟩
/-- Table 136, REQ_HI [31:0], RO. -/
def fltReqHi (i : Nat) : RField := ⟨0x38110 + 0x20 * i, 0, 32⟩
/-- Table 136, RESP [1:0], WO. -/
def fltResp (i : Nat) : RField := ⟨0x38114 + 0x20 * i, 0, 2⟩
/-- Table 136, SEQ [31:0], RO. -/
def fltSeq (i : Nat) : RField := ⟨0x38118 + 0x20 * i, 0, 32⟩
/-- Table 139, GO [15], MW. -/
def cmCmdGo : RField := ⟨0x3C000, 15, 1⟩
/-- Table 139, SCOPE [13:12], MW. -/
def cmCmdScope : RField := ⟨0x3C000, 12, 2⟩
/-- Table 139, OP [11:10], MW. -/
def cmCmdOp : RField := ⟨0x3C000, 10, 2⟩
/-- Table 139, CACHE [9], MW. -/
def cmCmdCache : RField := ⟨0x3C000, 9, 1⟩
/-- Table 139, ALL_CLUSTERS [8], MW. -/
def cmCmdAllClusters : RField := ⟨0x3C000, 8, 1⟩
/-- Table 139, CLUSTER [4:0], MW. -/
def cmCmdCluster : RField := ⟨0x3C000, 0, 5⟩
/-- Table 139, ADDR [25:7], RW. -/
def cmAddr : RField := ⟨0x3C004, 7, 19⟩
/-- Table 139, LINES [18:0], RW. -/
def cmLen : RField := ⟨0x3C008, 0, 19⟩
/-- Table 139, ENTRY [8:0], RW. -/
def cmEntry : RField := ⟨0x3C00C, 0, 9⟩
/-- Table 139, DONE [31], W1C. -/
def cmStatusDone : RField := ⟨0x3C010, 31, 1⟩
/-- Table 139, LOST [30], W1C. -/
def cmStatusLost : RField := ⟨0x3C010, 30, 1⟩
/-- Table 139, MASK_ERR [29], W1C. -/
def cmStatusMaskErr : RField := ⟨0x3C010, 29, 1⟩
/-- Table 139, RESULT [3:0], RO. -/
def cmStatusResult : RField := ⟨0x3C010, 0, 4⟩
/-- Table 139, NC_EN [31:0], RW. -/
def cmNcEn : RField := ⟨0x3C014, 0, 32⟩
/-- Table 139, SPC_EN [31:0], RW. -/
def cmSpcEn : RField := ⟨0x3C018, 0, 32⟩
/-- Table 139, NC_ON [31:0], RO. -/
def cmNcOn : RField := ⟨0x3C01C, 0, 32⟩
/-- Table 139, SPC_ON [31:0], RO. -/
def cmSpcOn : RField := ⟨0x3C020, 0, 32⟩
/-- Table 139, NC_STALE [31:0], RO. -/
def cmNcStale : RField := ⟨0x3C024, 0, 32⟩
/-- Table 139, MASK_LO [31:0], RW. -/
def spcMaskLo (i : Nat) : RField := ⟨0x3C040 + 8 * i, 0, 32⟩
/-- Table 139, MASK_HI [15:0], RW. -/
def spcMaskHi (i : Nat) : RField := ⟨0x3C044 + 8 * i, 0, 16⟩
/-- Table 139, CM_NC_HIT [31:0], RC. -/
def cmNcHit : RField := ⟨0x3C080, 0, 32⟩
/-- Table 139, CM_NC_MISS [31:0], RC. -/
def cmNcMiss : RField := ⟨0x3C084, 0, 32⟩
/-- Table 139, CM_SPC_HIT [31:0], RC. -/
def cmSpcHit : RField := ⟨0x3C088, 0, 32⟩
/-- Table 139, CM_SPC_MISS [31:0], RC. -/
def cmSpcMiss : RField := ⟨0x3C08C, 0, 32⟩
/-- Table 139, CM_SPC_WB [31:0], RC. -/
def cmSpcWb : RField := ⟨0x3C090, 0, 32⟩
/-- Table 139, CM_SPC_SNOOP [31:0], RC. -/
def cmSpcSnoop : RField := ⟨0x3C094, 0, 32⟩
/-- Table 139, CM_NC_PAR [31:0], RC. -/
def cmNcPar : RField := ⟨0x3C098, 0, 32⟩
/-- Table 139, CM_SPC_PAR [31:0], RC. -/
def cmSpcPar : RField := ⟨0x3C09C, 0, 32⟩
/-- Table 139, VALID [31], W1C. -/
def cmParInfoValid : RField := ⟨0x3C0A0, 31, 1⟩
/-- Table 139, CLUSTER [28:24], RO. -/
def cmParInfoCluster : RField := ⟨0x3C0A0, 24, 5⟩
/-- Table 139, CACHE [23], RO. -/
def cmParInfoCache : RField := ⟨0x3C0A0, 23, 1⟩
/-- Table 139, DIRTY [22], RO. -/
def cmParInfoDirty : RField := ⟨0x3C0A0, 22, 1⟩
/-- Table 139, TAG_OK [21], RO. -/
def cmParInfoTagOk : RField := ⟨0x3C0A0, 21, 1⟩
/-- Table 139, ENTRY [8:0], RO. -/
def cmParInfoEntry : RField := ⟨0x3C0A0, 0, 9⟩
/-- Table 139, ADDR [25:7], RO. -/
def cmParAddr : RField := ⟨0x3C0A4, 7, 19⟩
/-- Table 180, CMD [7:0], WO. -/
def mbCmd : RField := ⟨0x40000, 0, 8⟩
/-- Table 180, ARG [31:0], RW. -/
def mbArg (i : Nat) : RField := ⟨0x40004 + 4 * i, 0, 32⟩
/-- Table 180, BUSY [31], RO. -/
def mbStatusBusy : RField := ⟨0x40014, 31, 1⟩
/-- Table 180, DONE [30], W1C. -/
def mbStatusDone : RField := ⟨0x40014, 30, 1⟩
/-- Table 180, LOST [29], W1C. -/
def mbStatusLost : RField := ⟨0x40014, 29, 1⟩
/-- Table 180, RESULT [7:0], RO. -/
def mbStatusResult : RField := ⟨0x40014, 0, 8⟩
/-- Table 180, SVN_FUSE [31:24], RO. -/
def mbFwSvnFuse : RField := ⟨0x40018, 24, 8⟩
/-- Table 180, SVN [23:16], RO. -/
def mbFwSvn : RField := ⟨0x40018, 16, 8⟩
/-- Table 180, TRIAL [8], RO. -/
def mbFwTrial : RField := ⟨0x40018, 8, 1⟩
/-- Table 180, SLOT [0], RO. -/
def mbFwSlot : RField := ⟨0x40018, 0, 1⟩
/-- Table 180, VERSION [31:0], RO. -/
def mbFwVer : RField := ⟨0x4001C, 0, 32⟩
/-- Table 180, NEXT [31:0], RO. -/
def mbLogSeq : RField := ⟨0x40020, 0, 32⟩
/-- Table 180, FLASH_ERR [5], W1C. -/
def mbEventFlashErr : RField := ⟨0x40024, 5, 1⟩
/-- Table 180, LOG_DROP [4], W1C. -/
def mbEventLogDrop : RField := ⟨0x40024, 4, 1⟩
/-- Table 180, AGE_WARN [3], W1C. -/
def mbEventAgeWarn : RField := ⟨0x40024, 3, 1⟩
/-- Table 180, TRIAL_FAILED [2], W1C. -/
def mbEventTrialFailed : RField := ⟨0x40024, 2, 1⟩
/-- Table 180, MGT_RESTART [1], W1C. -/
def mbEventMgtRestart : RField := ⟨0x40024, 1, 1⟩
/-- Table 180, KEY_DONE [0], W1C. -/
def mbEventKeyDone : RField := ⟨0x40024, 0, 1⟩
/-- Table 180, STATE [7:0], RO. -/
def mbKeyState : RField := ⟨0x40028, 0, 8⟩
/-- Table 180, CMD [5:4], WO. -/
def mbKeyCmdCmd : RField := ⟨0x4002C, 4, 2⟩
/-- Table 180, SLOT [1:0], WO. -/
def mbKeyCmdSlot : RField := ⟨0x4002C, 0, 2⟩
/-- Table 180, RESULT [3:0], RO. -/
def mbKeyStatus : RField := ⟨0x40030, 0, 4⟩
/-- Table 180, KEY [31:0], RW. -/
def mbKeyData (i : Nat) : RField := ⟨0x40040 + 4 * i, 0, 32⟩
/-- Table 180, PERIOD_MS [15:0], RW. -/
def mbTlm : RField := ⟨0x40060, 0, 16⟩
/-- Table 180, AUTH [31], RO. -/
def mbMonAuth : RField := ⟨0x40064, 31, 1⟩
/-- Table 180, MASTER [17:16], RO. -/
def mbMonMaster : RField := ⟨0x40064, 16, 2⟩
/-- Table 180, DIV [7:0], RW. -/
def mbMonDiv : RField := ⟨0x40064, 0, 8⟩
/-- Table 180, SERIAL_LO [31:0], RO. -/
def mbSerialLo : RField := ⟨0x40068, 0, 32⟩
/-- Table 180, SERIAL_HI [31:0], RO. -/
def mbSerialHi : RField := ⟨0x4006C, 0, 32⟩
/-- Table 41, BASE_LO [31:6], RW. -/
def schedBaseLo : RField := ⟨0x40400, 6, 26⟩
/-- Table 41, BASE_HI [31:0], RW. -/
def schedBaseHi : RField := ⟨0x40404, 0, 32⟩
/-- Table 41, SCHED_EN [31:0], RW. -/
def schedEn : RField := ⟨0x40408, 0, 32⟩
/-- Table 41, SCHED_OVR [31:0], W1C. -/
def schedOvr : RField := ⟨0x4040C, 0, 32⟩
/-- Table 41, SCHED_OVR_COUNT [31:0], RC. -/
def schedOvrCount : RField := ⟨0x40410, 0, 32⟩
/-- Table 190, NODE_ID [11:0], RW. -/
def plkNode : RField := ⟨0x44000, 0, 12⟩
/-- Table 190, HOP_LIMIT [31:24], RW. -/
def plkCfgHopLimit : RField := ⟨0x44004, 24, 8⟩
/-- Table 190, MC_TIMEOUT [15:0], RW. -/
def plkCfgMcTimeout : RField := ⟨0x44004, 0, 16⟩
/-- Table 190, EN [7:0], RW. -/
def plkEn : RField := ⟨0x44008, 0, 8⟩
/-- Table 190, ALT [31:0], RW. -/
def plkAlt : RField := ⟨0x4400C, 0, 32⟩
/-- Table 190, STATE [30:28], RO. -/
def plkPortState (i : Nat) : RField := ⟨0x44010 + 4 * i, 28, 3⟩
/-- Table 190, PARTNER [27:16], RO. -/
def plkPortPartner (i : Nat) : RField := ⟨0x44010 + 4 * i, 16, 12⟩
/-- Table 190, DUP_NODE [5], W1C. -/
def plkEventDupNode : RField := ⟨0x44030, 5, 1⟩
/-- Table 190, SUB_FULL [4], W1C. -/
def plkEventSubFull : RField := ⟨0x44030, 4, 1⟩
/-- Table 190, UNREACH [3], W1C. -/
def plkEventUnreach : RField := ⟨0x44030, 3, 1⟩
/-- Table 190, NOTICE [2], W1C. -/
def plkEventNotice : RField := ⟨0x44030, 2, 1⟩
/-- Table 190, GOODBYE [1], W1C. -/
def plkEventGoodbye : RField := ⟨0x44030, 1, 1⟩
/-- Table 190, LOST [0], W1C. -/
def plkEventLost : RField := ⟨0x44030, 0, 1⟩
/-- Table 190, NODE [11:0], RO. -/
def plkLostNode : RField := ⟨0x44034, 0, 12⟩
/-- Table 190, ALL [31], WO. -/
def plkEvtSendAll : RField := ⟨0x44040, 31, 1⟩
/-- Table 190, NODE [27:16], WO. -/
def plkEvtSendNode : RField := ⟨0x44040, 16, 12⟩
/-- Table 190, EVENT [7:0], WO. -/
def plkEvtSendEvent : RField := ⟨0x44040, 0, 8⟩
/-- Table 190, EN [31], RW. -/
def plkEvtOndoneEn (i : Nat) : RField := ⟨0x44060 + 4 * i, 31, 1⟩
/-- Table 190, ALL [30], RW. -/
def plkEvtOndoneAll (i : Nat) : RField := ⟨0x44060 + 4 * i, 30, 1⟩
/-- Table 190, NODE [27:16], RW. -/
def plkEvtOndoneNode (i : Nat) : RField := ⟨0x44060 + 4 * i, 16, 12⟩
/-- Table 190, CHAIN [13:8], RW. -/
def plkEvtOndoneChain (i : Nat) : RField := ⟨0x44060 + 4 * i, 8, 6⟩
/-- Table 190, EVENT [7:0], RW. -/
def plkEvtOndoneEvent (i : Nat) : RField := ⟨0x44060 + 4 * i, 0, 8⟩
/-- Table 190, BASE_LO [31:6], RW. -/
def plkGuestBaseLo : RField := ⟨0x44080, 6, 26⟩
/-- Table 190, BASE_HI [31:0], RW. -/
def plkGuestBaseHi : RField := ⟨0x44084, 0, 32⟩
/-- Table 190, BASE_LO [31:30], RW. -/
def plkWinLo (i : Nat) : RField := ⟨0x440A0 + 0x10 * i, 30, 2⟩
/-- Table 190, BASE_HI [31:0], RW. -/
def plkWinHi (i : Nat) : RField := ⟨0x440A4 + 0x10 * i, 0, 32⟩
/-- Table 190, EN [31], RW. -/
def plkWinCfgEn (i : Nat) : RField := ⟨0x440A8 + 0x10 * i, 31, 1⟩
/-- Table 190, NODE [27:16], RW. -/
def plkWinCfgNode (i : Nat) : RField := ⟨0x440A8 + 0x10 * i, 16, 12⟩
/-- Table 190, SIZE_LOG2 [5:0], RW. -/
def plkWinCfgSizeLog2 (i : Nat) : RField := ⟨0x440A8 + 0x10 * i, 0, 6⟩
/-- Table 190, PLK_FWD_ITEMS [31:0], RC. -/
def plkFwdItems : RField := ⟨0x440F0, 0, 32⟩
/-- Table 190, PLK_REPLAYS [31:0], RC. -/
def plkReplays : RField := ⟨0x440F4, 0, 32⟩
/-- Table 190, PLK_DUP_DROP [31:0], RC. -/
def plkDupDrop : RField := ⟨0x440F8, 0, 32⟩
/-- Table 190, PLK_UNREACH [31:0], RC. -/
def plkUnreach : RField := ⟨0x440FC, 0, 32⟩
/-- Table 190, PLK_TX_FLITS [31:0], RC. -/
def plkTxFlits (i : Nat) : RField := ⟨0x44100 + 0x20 * i, 0, 32⟩
/-- Table 190, PLK_RX_FLITS [31:0], RC. -/
def plkRxFlits (i : Nat) : RField := ⟨0x44104 + 0x20 * i, 0, 32⟩
/-- Table 190, PLK_CRC_ERR [31:0], RC. -/
def plkCrcErr (i : Nat) : RField := ⟨0x44108 + 0x20 * i, 0, 32⟩
/-- Table 190, PLK_RETRIES [31:0], RC. -/
def plkRetries (i : Nat) : RField := ⟨0x4410C + 0x20 * i, 0, 32⟩
/-- Table 190, PLK_STALL_CREDIT [31:0], RC. -/
def plkStallCredit (i : Nat) : RField := ⟨0x44110 + 0x20 * i, 0, 32⟩
/-- Table 190, PLK_DISCARDS [31:0], RC. -/
def plkDiscards (i : Nat) : RField := ⟨0x44114 + 0x20 * i, 0, 32⟩
/-- Table 190, ROUTE [31:0], RW. -/
def plkRoute (i : Nat) : RField := ⟨0x45000 + 4 * i, 0, 32⟩
/-- Table 152b, CLEAR [15], MW. -/
def pcCtrlClear : RField := ⟨0x48000, 15, 1⟩
/-- Table 152b, FREEZE [14], MW. -/
def pcCtrlFreeze : RField := ⟨0x48000, 14, 1⟩
/-- Table 152b, OVF [15:0], W1C. -/
def pcOvf : RField := ⟨0x48004, 0, 16⟩
/-- Table 152b, EN [31], RW. -/
def pcSelEn (i : Nat) : RField := ⟨0x48100 + 0x10 * i, 31, 1⟩
/-- Table 152b, ALL_UNITS [30], RW. -/
def pcSelAllUnits (i : Nat) : RField := ⟨0x48100 + 0x10 * i, 30, 1⟩
/-- Table 152b, ALL_INDEX [29], RW. -/
def pcSelAllIndex (i : Nat) : RField := ⟨0x48100 + 0x10 * i, 29, 1⟩
/-- Table 152b, CLASS_MASK [23:20], RW. -/
def pcSelClassMask (i : Nat) : RField := ⟨0x48100 + 0x10 * i, 20, 4⟩
/-- Table 152b, UNIT_KIND [19:16], RW. -/
def pcSelUnitKind (i : Nat) : RField := ⟨0x48100 + 0x10 * i, 16, 4⟩
/-- Table 152b, UNIT_INDEX [15:8], RW. -/
def pcSelUnitIndex (i : Nat) : RField := ⟨0x48100 + 0x10 * i, 8, 8⟩
/-- Table 152b, EVENT [7:0], RW. -/
def pcSelEvent (i : Nat) : RField := ⟨0x48100 + 0x10 * i, 0, 8⟩
/-- Table 152b, CNT_LO [31:0], RW. -/
def pcCntLo (i : Nat) : RField := ⟨0x48104 + 0x10 * i, 0, 32⟩
/-- Table 152b, CNT_HI [15:0], RW. -/
def pcCntHi (i : Nat) : RField := ⟨0x48108 + 0x10 * i, 0, 16⟩
/-- Table 182, TEMP [15:0], RO. -/
def snsTemp (i : Nat) : RField := ⟨0x4C000 + 4 * i, 0, 16⟩
/-- Table 182, CURRENT [31:16], RO. -/
def snsSupplyCurrent (i : Nat) : RField := ⟨0x4C080 + 4 * i, 16, 16⟩
/-- Table 182, VOLT [15:0], RO. -/
def snsSupplyVolt (i : Nat) : RField := ⟨0x4C080 + 4 * i, 0, 16⟩
/-- Table 182, POWER_MW [15:0], RO. -/
def snsPower : RField := ⟨0x4C100, 0, 16⟩
/-- Table 182, CAP_MW [15:0], RW. -/
def snsPcap : RField := ⟨0x4C104, 0, 16⟩
/-- Table 182, LIMIT [23:16], RW. -/
def snsThermLimit : RField := ⟨0x4C108, 16, 8⟩
/-- Table 182, TRIP [7:0], RW. -/
def snsThermTrip : RField := ⟨0x4C108, 0, 8⟩
/-- Table 182, TRIP [31], RO. -/
def snsThermStatusTrip : RField := ⟨0x4C10C, 31, 1⟩
/-- Table 182, TRIPPED [30], W1C. -/
def snsThermStatusTripped : RField := ⟨0x4C10C, 30, 1⟩
/-- Table 182, LIMITED [29], W1C. -/
def snsThermStatusLimited : RField := ⟨0x4C10C, 29, 1⟩
/-- Table 182, CAPPED [28], W1C. -/
def snsThermStatusCapped : RField := ⟨0x4C10C, 28, 1⟩
/-- Table 182, BROWNOUT [27], W1C. -/
def snsThermStatusBrownout : RField := ⟨0x4C10C, 27, 1⟩
/-- Table 182, HOT [4:0], RO. -/
def snsThermStatusHot : RField := ⟨0x4C10C, 0, 5⟩
/-- Table 182, LIMIT [23:0], RO. -/
def snsLimitTg : RField := ⟨0x4C110, 0, 24⟩
/-- Table 182, SRT [10:8], RO. -/
def snsLimitCoreSrt : RField := ⟨0x4C114, 8, 3⟩
/-- Table 182, MXB [6:4], RO. -/
def snsLimitCoreMxb : RField := ⟨0x4C114, 4, 3⟩
/-- Table 182, MXA [2:0], RO. -/
def snsLimitCoreMxa : RField := ⟨0x4C114, 0, 3⟩

end F

end Sys2Proof.Machine
end

