-- ==== Sys2Proof/Machine/RegTable.lean ====
section
/-! DEFINITION. The register tables: for every register its window address and strides, whether it is guarded, and of every
field its place, its access code (Table 2) and whether it is buffered (R571); and the reset values that are not 0. -/

namespace Sys2Proof.Machine

/-- The access codes of Table 2; RSV fields have no row. -/
inductive Acc
  | rw | ro | w1c | wo | mw | rc
deriving DecidableEq, Repr

/-- One field of a register: lowest bit, width, access, and whether a write of it is buffered to the next engine epoch. -/
structure FieldRow where
  lo : Nat
  width : Nat
  acc : Acc
  buffered : Bool
deriving DecidableEq, Repr

/-- One row of the register map: `count` registers at `stride`, each a group of `count2` at `stride2`. -/
structure RegRow where
  base : Nat
  count : Nat
  stride : Nat
  count2 : Nat
  stride2 : Nat
  guarded : Bool
  fields : List FieldRow
deriving DecidableEq, Repr

/-- Registers, part 0. -/
def regRows0 : List RegRow := [
  ⟨0x00000, 1, 0, 1, 0, false, [⟨16, 16, .ro, false⟩, ⟨0, 16, .ro, false⟩]⟩,
  ⟨0x00004, 1, 0, 1, 0, false, [⟨16, 8, .ro, false⟩, ⟨8, 8, .ro, false⟩, ⟨0, 8, .ro, false⟩]⟩,
  ⟨0x00008, 1, 0, 1, 0, false, [⟨16, 5, .ro, false⟩, ⟨8, 4, .ro, false⟩, ⟨0, 4, .ro, false⟩]⟩,
  ⟨0x0000C, 1, 0, 1, 0, false, [⟨0, 16, .ro, false⟩]⟩,
  ⟨0x00010, 1, 0, 1, 0, false, [⟨0, 32, .wo, false⟩, ⟨0, 1, .ro, false⟩]⟩,
  ⟨0x00014, 1, 0, 1, 0, false, [⟨31, 1, .ro, false⟩, ⟨30, 1, .ro, false⟩, ⟨29, 1, .ro, false⟩, ⟨23, 1, .w1c, false⟩, ⟨22, 1, .w1c, false⟩, ⟨21, 1, .w1c, false⟩, ⟨20, 1, .w1c, false⟩, ⟨19, 1, .w1c, false⟩, ⟨0, 7, .ro, false⟩]⟩,
  ⟨0x00018, 1, 0, 1, 0, false, [⟨15, 1, .mw, false⟩]⟩,
  ⟨0x00020, 1, 0, 1, 0, false, [⟨0, 8, .w1c, false⟩]⟩,
  ⟨0x00024, 1, 0, 1, 0, false, [⟨0, 8, .rw, false⟩]⟩,
  ⟨0x00028, 1, 0, 1, 0, false, [⟨0, 8, .ro, false⟩]⟩,
  ⟨0x01000, 1, 0, 1, 0, false, [⟨16, 4, .ro, false⟩, ⟨7, 1, .ro, false⟩, ⟨0, 2, .ro, false⟩]⟩,
  ⟨0x01004, 1, 0, 1, 0, false, [⟨0, 2, .wo, false⟩]⟩,
  ⟨0x01008, 1, 0, 1, 0, false, [⟨2, 1, .wo, false⟩, ⟨0, 2, .wo, false⟩]⟩,
  ⟨0x0100C, 1, 0, 1, 0, false, [⟨0, 32, .wo, false⟩]⟩,
  ⟨0x01010, 1, 0, 1, 0, false, [⟨0, 16, .rw, false⟩]⟩,
  ⟨0x01014, 1, 0, 1, 0, false, [⟨3, 1, .w1c, false⟩, ⟨2, 1, .w1c, false⟩, ⟨1, 1, .w1c, false⟩, ⟨0, 1, .w1c, false⟩]⟩,
  ⟨0x01018, 1, 0, 1, 0, false, [⟨30, 2, .ro, false⟩, ⟨0, 20, .ro, false⟩]⟩,
  ⟨0x0101C, 1, 0, 1, 0, false, [⟨0, 32, .ro, false⟩]⟩,
  ⟨0x02000, 4, 256, 1, 0, false, [⟨6, 26, .rw, true⟩]⟩,
  ⟨0x02004, 4, 256, 1, 0, false, [⟨0, 32, .rw, true⟩]⟩,
  ⟨0x02008, 4, 256, 1, 0, false, [⟨0, 4, .rw, true⟩]⟩,
  ⟨0x0200C, 4, 256, 1, 0, false, [⟨0, 16, .rw, false⟩]⟩,
  ⟨0x02010, 4, 256, 1, 0, false, [⟨0, 16, .ro, false⟩]⟩,
  ⟨0x02014, 4, 256, 1, 0, false, [⟨0, 4, .wo, false⟩]⟩,
  ⟨0x02018, 4, 256, 1, 0, false, [⟨31, 1, .w1c, false⟩, ⟨30, 1, .w1c, false⟩, ⟨24, 2, .ro, false⟩, ⟨16, 5, .ro, false⟩, ⟨0, 16, .ro, false⟩]⟩,
  ⟨0x0201C, 4, 256, 1, 0, false, [⟨0, 32, .ro, false⟩]⟩,
  ⟨0x02020, 4, 256, 1, 0, false, [⟨4, 28, .ro, false⟩, ⟨1, 1, .ro, false⟩, ⟨0, 1, .ro, false⟩]⟩,
  ⟨0x02024, 4, 256, 1, 0, false, [⟨0, 32, .ro, false⟩]⟩,
  ⟨0x02028, 4, 256, 8, 4, false, [⟨0, 32, .ro, false⟩]⟩,
  ⟨0x02400, 1, 0, 1, 0, false, [⟨0, 4, .w1c, false⟩]⟩]

/-- Registers, part 1. -/
def regRows1 : List RegRow := [
  ⟨0x04000, 1, 0, 1, 0, false, [⟨0, 4, .wo, false⟩]⟩,
  ⟨0x04004, 1, 0, 1, 0, false, [⟨0, 32, .rw, false⟩]⟩,
  ⟨0x04008, 1, 0, 1, 0, false, [⟨0, 32, .rw, false⟩]⟩,
  ⟨0x0400C, 1, 0, 1, 0, false, [⟨24, 8, .ro, false⟩, ⟨16, 3, .ro, false⟩, ⟨2, 1, .w1c, false⟩, ⟨1, 1, .w1c, false⟩, ⟨0, 1, .w1c, false⟩]⟩,
  ⟨0x04010, 1, 0, 1, 0, false, [⟨0, 32, .ro, false⟩]⟩,
  ⟨0x04014, 1, 0, 1, 0, false, [⟨0, 32, .ro, false⟩]⟩,
  ⟨0x04018, 1, 0, 1, 0, false, [⟨0, 24, .rw, false⟩]⟩,
  ⟨0x04020, 1, 0, 1, 0, false, [⟨0, 32, .ro, false⟩]⟩,
  ⟨0x04024, 1, 0, 1, 0, false, [⟨0, 32, .ro, false⟩]⟩,
  ⟨0x04028, 1, 0, 1, 0, false, [⟨0, 32, .ro, false⟩]⟩,
  ⟨0x0402C, 1, 0, 1, 0, false, [⟨0, 32, .ro, false⟩]⟩,
  ⟨0x08000, 1, 0, 1, 0, false, [⟨0, 3, .rw, false⟩]⟩,
  ⟨0x08004, 1, 0, 1, 0, true, [⟨31, 1, .rw, false⟩, ⟨0, 3, .rw, false⟩]⟩,
  ⟨0x08008, 1, 0, 1, 0, false, [⟨0, 24, .ro, false⟩]⟩,
  ⟨0x0800C, 1, 0, 1, 0, false, [⟨31, 1, .ro, false⟩, ⟨8, 3, .ro, false⟩, ⟨4, 3, .ro, false⟩, ⟨0, 3, .ro, false⟩]⟩,
  ⟨0x08010, 1, 0, 1, 0, false, [⟨0, 30, .rw, true⟩]⟩,
  ⟨0x08014, 1, 0, 1, 0, false, [⟨0, 30, .ro, false⟩]⟩,
  ⟨0x08018, 1, 0, 1, 0, false, [⟨31, 1, .w1c, false⟩, ⟨0, 5, .ro, false⟩]⟩,
  ⟨0x08020, 1, 0, 1, 0, false, [⟨6, 1, .mw, false⟩, ⟨5, 1, .mw, false⟩, ⟨4, 1, .mw, false⟩, ⟨0, 2, .mw, false⟩]⟩,
  ⟨0x08024, 1, 0, 1, 0, false, [⟨8, 3, .ro, false⟩, ⟨0, 3, .ro, false⟩]⟩,
  ⟨0x08028, 1, 0, 1, 0, false, [⟨0, 30, .rw, false⟩]⟩,
  ⟨0x08030, 1, 0, 1, 0, false, [⟨0, 30, .ro, false⟩]⟩,
  ⟨0x08034, 1, 0, 1, 0, false, [⟨0, 32, .rc, false⟩]⟩,
  ⟨0x08038, 1, 0, 1, 0, false, [⟨0, 32, .rc, false⟩]⟩,
  ⟨0x08040, 1, 0, 1, 0, false, [⟨0, 32, .ro, false⟩]⟩,
  ⟨0x08044, 1, 0, 1, 0, false, [⟨0, 32, .ro, false⟩]⟩,
  ⟨0x0A000, 1, 0, 1, 0, false, [⟨15, 1, .mw, false⟩, ⟨14, 1, .mw, false⟩]⟩,
  ⟨0x0A004, 1, 0, 1, 0, false, [⟨15, 1, .mw, false⟩, ⟨0, 5, .mw, false⟩]⟩,
  ⟨0x0A008, 1, 0, 1, 0, false, [⟨28, 4, .ro, false⟩, ⟨27, 1, .w1c, false⟩, ⟨26, 1, .w1c, false⟩, ⟨25, 1, .ro, false⟩]⟩,
  ⟨0x0A00C, 1, 0, 1, 0, false, [⟨0, 32, .ro, false⟩]⟩]

/-- Registers, part 2. -/
def regRows2 : List RegRow := [
  ⟨0x0A010, 1, 0, 1, 0, false, [⟨0, 2, .ro, false⟩]⟩,
  ⟨0x0A014, 1, 0, 1, 0, true, [⟨0, 2, .wo, false⟩]⟩,
  ⟨0x0A018, 1, 0, 1, 0, false, [⟨0, 4, .ro, false⟩]⟩,
  ⟨0x0A020, 1, 0, 1, 0, true, [⟨15, 1, .mw, false⟩, ⟨0, 6, .mw, false⟩]⟩,
  ⟨0x0A024, 1, 0, 1, 0, false, [⟨31, 1, .w1c, false⟩, ⟨30, 1, .ro, false⟩]⟩,
  ⟨0x0C000, 1, 0, 1, 0, false, [⟨31, 1, .ro, false⟩, ⟨16, 11, .w1c, false⟩]⟩,
  ⟨0x0C004, 1, 0, 1, 0, false, [⟨31, 1, .w1c, false⟩, ⟨24, 4, .ro, false⟩, ⟨16, 4, .ro, false⟩, ⟨0, 6, .ro, false⟩]⟩,
  ⟨0x0C008, 1, 0, 1, 0, false, [⟨0, 32, .ro, false⟩]⟩,
  ⟨0x0C00C, 1, 0, 1, 0, false, [⟨0, 32, .ro, false⟩]⟩,
  ⟨0x0C010, 1, 0, 1, 0, false, [⟨0, 32, .rc, false⟩]⟩,
  ⟨0x0C014, 1, 0, 1, 0, false, [⟨0, 32, .rc, false⟩]⟩,
  ⟨0x0C018, 1, 0, 1, 0, false, [⟨31, 1, .w1c, false⟩, ⟨2, 18, .ro, false⟩, ⟨1, 1, .ro, false⟩]⟩,
  ⟨0x0C020, 1, 0, 1, 0, true, [⟨15, 1, .mw, false⟩, ⟨12, 2, .mw, false⟩, ⟨8, 4, .mw, false⟩, ⟨0, 6, .mw, false⟩]⟩,
  ⟨0x0C024, 1, 0, 1, 0, false, [⟨0, 4, .ro, false⟩]⟩,
  ⟨0x0C028, 1, 0, 1, 0, false, [⟨0, 32, .ro, false⟩]⟩,
  ⟨0x0C02C, 1, 0, 1, 0, false, [⟨16, 16, .ro, false⟩, ⟨0, 16, .ro, false⟩]⟩,
  ⟨0x0C030, 1, 0, 1, 0, false, [⟨16, 16, .ro, false⟩, ⟨8, 8, .ro, false⟩, ⟨0, 8, .ro, false⟩]⟩,
  ⟨0x0C034, 1, 0, 1, 0, false, [⟨0, 32, .ro, false⟩]⟩,
  ⟨0x0C038, 1, 0, 1, 0, false, [⟨0, 32, .ro, false⟩]⟩,
  ⟨0x0C040, 1, 0, 1, 0, false, [⟨31, 1, .w1c, false⟩, ⟨30, 1, .w1c, false⟩, ⟨0, 16, .ro, false⟩]⟩,
  ⟨0x0C044, 1, 0, 1, 0, false, [⟨0, 32, .ro, false⟩]⟩,
  ⟨0x0C048, 1, 0, 1, 0, false, [⟨5, 27, .rw, false⟩]⟩,
  ⟨0x0C04C, 1, 0, 1, 0, false, [⟨0, 32, .rw, false⟩]⟩,
  ⟨0x0C050, 1, 0, 1, 0, false, [⟨0, 4, .rw, false⟩]⟩,
  ⟨0x0C054, 1, 0, 1, 0, false, [⟨0, 16, .rw, false⟩]⟩,
  ⟨0x0C058, 1, 0, 1, 0, false, [⟨0, 32, .ro, false⟩]⟩,
  ⟨0x0C05C, 1, 0, 1, 0, false, [⟨0, 32, .ro, false⟩]⟩,
  ⟨0x0C060, 1, 0, 1, 0, false, [⟨0, 32, .w1c, false⟩]⟩,
  ⟨0x0C064, 1, 0, 1, 0, false, [⟨0, 32, .w1c, false⟩]⟩,
  ⟨0x0C080, 1, 0, 1, 0, false, [⟨0, 4, .rw, false⟩]⟩]

/-- Registers, part 3. -/
def regRows3 : List RegRow := [
  ⟨0x0C084, 1, 0, 1, 0, false, [⟨0, 24, .ro, false⟩]⟩,
  ⟨0x0C088, 1, 0, 1, 0, false, [⟨31, 1, .ro, false⟩, ⟨28, 3, .ro, false⟩, ⟨16, 8, .ro, false⟩, ⟨0, 16, .ro, false⟩]⟩,
  ⟨0x0C08C, 1, 0, 1, 0, false, [⟨0, 32, .ro, false⟩]⟩,
  ⟨0x0C090, 1, 0, 1, 0, false, [⟨0, 8, .rw, false⟩]⟩,
  ⟨0x0C094, 1, 0, 1, 0, false, [⟨0, 1, .wo, false⟩]⟩,
  ⟨0x10000, 8, 4096, 1, 0, false, [⟨4, 2, .ro, false⟩, ⟨0, 4, .ro, false⟩]⟩,
  ⟨0x10004, 8, 4096, 1, 0, false, [⟨0, 16, .rw, true⟩]⟩,
  ⟨0x10008, 8, 4096, 1, 0, false, [⟨0, 10, .ro, false⟩]⟩,
  ⟨0x1000C, 8, 4096, 1, 0, false, [⟨0, 32, .rc, false⟩]⟩,
  ⟨0x10010, 8, 4096, 1, 0, false, [⟨31, 1, .w1c, false⟩, ⟨20, 2, .ro, false⟩, ⟨8, 8, .ro, false⟩, ⟨0, 8, .ro, false⟩]⟩,
  ⟨0x10014, 8, 4096, 1, 0, false, [⟨0, 32, .ro, false⟩]⟩,
  ⟨0x10018, 8, 4096, 1, 0, false, [⟨0, 20, .ro, false⟩]⟩,
  ⟨0x18000, 1, 0, 1, 0, false, [⟨16, 13, .ro, false⟩, ⟨0, 7, .ro, false⟩]⟩,
  ⟨0x18004, 1, 0, 1, 0, false, [⟨0, 14, .ro, false⟩]⟩,
  ⟨0x18008, 1, 0, 1, 0, false, [⟨16, 16, .rw, true⟩, ⟨4, 1, .rw, true⟩, ⟨0, 4, .rw, true⟩]⟩,
  ⟨0x1800C, 1, 0, 1, 0, false, [⟨12, 20, .rw, true⟩]⟩,
  ⟨0x18010, 1, 0, 1, 0, false, [⟨0, 32, .rw, true⟩]⟩,
  ⟨0x18014, 1, 0, 1, 0, false, [⟨0, 21, .ro, false⟩]⟩,
  ⟨0x18020, 1, 0, 1, 0, false, [⟨0, 32, .rc, false⟩]⟩,
  ⟨0x18024, 1, 0, 1, 0, false, [⟨0, 32, .rc, false⟩]⟩,
  ⟨0x18028, 1, 0, 1, 0, false, [⟨0, 32, .rc, false⟩]⟩,
  ⟨0x1802C, 1, 0, 1, 0, false, [⟨0, 32, .rc, false⟩]⟩,
  ⟨0x18030, 1, 0, 1, 0, false, [⟨0, 32, .rc, false⟩]⟩,
  ⟨0x18034, 1, 0, 1, 0, false, [⟨0, 32, .rc, false⟩]⟩,
  ⟨0x18038, 1, 0, 1, 0, false, [⟨0, 32, .rc, false⟩]⟩,
  ⟨0x1803C, 1, 0, 1, 0, false, [⟨0, 32, .rc, false⟩]⟩,
  ⟨0x18040, 1, 0, 1, 0, false, [⟨0, 32, .rc, false⟩]⟩,
  ⟨0x18100, 1, 0, 1, 0, false, [⟨24, 8, .ro, false⟩, ⟨16, 8, .ro, false⟩, ⟨8, 8, .ro, false⟩, ⟨0, 8, .ro, false⟩]⟩,
  ⟨0x18104, 1, 0, 1, 0, false, [⟨24, 8, .ro, false⟩, ⟨16, 8, .ro, false⟩, ⟨8, 8, .ro, false⟩, ⟨0, 8, .ro, false⟩]⟩,
  ⟨0x18108, 1, 0, 1, 0, false, [⟨0, 32, .rc, false⟩]⟩]

/-- Registers, part 4. -/
def regRows4 : List RegRow := [
  ⟨0x1810C, 1, 0, 1, 0, false, [⟨0, 32, .rc, false⟩]⟩,
  ⟨0x18110, 1, 0, 1, 0, false, [⟨0, 17, .ro, false⟩]⟩,
  ⟨0x1A000, 1, 0, 1, 0, false, [⟨16, 16, .ro, false⟩, ⟨0, 8, .ro, false⟩]⟩,
  ⟨0x1A004, 1, 0, 1, 0, false, [⟨0, 16, .rw, true⟩]⟩,
  ⟨0x1A008, 1, 0, 1, 0, false, [⟨0, 32, .rc, false⟩]⟩,
  ⟨0x1A00C, 1, 0, 1, 0, false, [⟨31, 1, .w1c, false⟩, ⟨24, 5, .ro, false⟩, ⟨20, 4, .ro, false⟩, ⟨8, 8, .ro, false⟩, ⟨0, 8, .ro, false⟩]⟩,
  ⟨0x1A010, 1, 0, 1, 0, false, [⟨0, 32, .ro, false⟩]⟩,
  ⟨0x1A014, 1, 0, 1, 0, false, [⟨0, 20, .ro, false⟩]⟩,
  ⟨0x1A020, 1, 0, 1, 0, false, [⟨0, 32, .rc, false⟩]⟩,
  ⟨0x1A024, 1, 0, 1, 0, false, [⟨0, 32, .rc, false⟩]⟩,
  ⟨0x1A028, 1, 0, 1, 0, false, [⟨0, 32, .rc, false⟩]⟩,
  ⟨0x1A02C, 1, 0, 1, 0, false, [⟨0, 32, .rc, false⟩]⟩,
  ⟨0x1A030, 1, 0, 1, 0, false, [⟨0, 32, .rc, false⟩]⟩,
  ⟨0x20000, 2, 16384, 1, 0, false, [⟨8, 4, .ro, false⟩, ⟨0, 4, .ro, false⟩]⟩,
  ⟨0x20004, 2, 16384, 1, 0, false, [⟨0, 4, .ro, false⟩]⟩,
  ⟨0x20008, 2, 16384, 1, 0, false, [⟨0, 32, .ro, false⟩]⟩,
  ⟨0x2000C, 2, 16384, 1, 0, false, [⟨0, 32, .ro, false⟩]⟩,
  ⟨0x20010, 2, 16384, 1, 0, false, [⟨0, 32, .rc, false⟩]⟩,
  ⟨0x20014, 2, 16384, 1, 0, false, [⟨0, 32, .rc, false⟩]⟩,
  ⟨0x20018, 2, 16384, 1, 0, false, [⟨0, 32, .rc, false⟩]⟩,
  ⟨0x2001C, 2, 16384, 1, 0, false, [⟨0, 32, .rc, false⟩]⟩,
  ⟨0x20020, 2, 16384, 1, 0, false, [⟨0, 32, .rc, false⟩]⟩,
  ⟨0x20024, 2, 16384, 1, 0, false, [⟨0, 32, .rc, false⟩]⟩,
  ⟨0x20028, 2, 16384, 1, 0, false, [⟨0, 32, .rc, false⟩]⟩,
  ⟨0x2002C, 2, 16384, 1, 0, false, [⟨0, 32, .rc, false⟩]⟩,
  ⟨0x20030, 2, 16384, 1, 0, false, [⟨31, 1, .w1c, false⟩, ⟨16, 2, .ro, false⟩, ⟨8, 8, .ro, false⟩, ⟨0, 8, .ro, false⟩]⟩,
  ⟨0x20034, 2, 16384, 1, 0, false, [⟨0, 32, .ro, false⟩]⟩,
  ⟨0x20038, 2, 16384, 1, 0, false, [⟨0, 8, .ro, false⟩]⟩,
  ⟨0x28000, 16, 1024, 1, 0, false, [⟨24, 2, .ro, false⟩, ⟨12, 12, .ro, false⟩, ⟨8, 1, .ro, false⟩, ⟨0, 7, .ro, false⟩]⟩,
  ⟨0x28004, 16, 1024, 1, 0, false, [⟨0, 16, .rw, true⟩]⟩]

/-- Registers, part 5. -/
def regRows5 : List RegRow := [
  ⟨0x28008, 16, 1024, 1, 0, false, [⟨0, 9, .ro, false⟩]⟩,
  ⟨0x2800C, 16, 1024, 1, 0, false, [⟨0, 32, .ro, false⟩]⟩,
  ⟨0x28010, 16, 1024, 1, 0, false, [⟨0, 32, .ro, false⟩]⟩,
  ⟨0x28014, 16, 1024, 1, 0, false, [⟨0, 32, .rc, false⟩]⟩,
  ⟨0x28018, 16, 1024, 1, 0, false, [⟨0, 32, .rc, false⟩]⟩,
  ⟨0x2801C, 16, 1024, 1, 0, false, [⟨0, 32, .rc, false⟩]⟩,
  ⟨0x28020, 16, 1024, 1, 0, false, [⟨0, 32, .rc, false⟩]⟩,
  ⟨0x28024, 16, 1024, 1, 0, false, [⟨0, 32, .rc, false⟩]⟩,
  ⟨0x28028, 16, 1024, 1, 0, false, [⟨0, 32, .rc, false⟩]⟩,
  ⟨0x2802C, 16, 1024, 1, 0, false, [⟨0, 32, .rc, false⟩]⟩,
  ⟨0x28030, 16, 1024, 1, 0, false, [⟨0, 32, .rc, false⟩]⟩,
  ⟨0x28034, 16, 1024, 1, 0, false, [⟨0, 32, .rc, false⟩]⟩,
  ⟨0x28040, 16, 1024, 1, 0, false, [⟨31, 1, .w1c, false⟩, ⟨24, 6, .ro, false⟩, ⟨16, 5, .ro, false⟩, ⟨8, 8, .ro, false⟩, ⟨0, 6, .ro, false⟩]⟩,
  ⟨0x28044, 16, 1024, 1, 0, false, [⟨0, 18, .ro, false⟩]⟩,
  ⟨0x28048, 16, 1024, 1, 0, false, [⟨0, 32, .ro, false⟩]⟩,
  ⟨0x30000, 16, 1024, 1, 0, false, [⟨24, 8, .ro, false⟩, ⟨23, 1, .ro, false⟩, ⟨16, 4, .ro, false⟩, ⟨8, 3, .ro, false⟩, ⟨2, 1, .ro, false⟩, ⟨1, 1, .ro, false⟩, ⟨0, 1, .ro, false⟩]⟩,
  ⟨0x30004, 16, 1024, 1, 0, false, [⟨6, 26, .rw, false⟩]⟩,
  ⟨0x30008, 16, 1024, 1, 0, false, [⟨0, 32, .rw, false⟩]⟩,
  ⟨0x3000C, 16, 1024, 1, 0, false, [⟨4, 2, .wo, false⟩, ⟨0, 4, .wo, false⟩]⟩,
  ⟨0x30010, 16, 1024, 1, 0, false, [⟨0, 4, .ro, false⟩]⟩,
  ⟨0x30014, 16, 1024, 1, 0, false, [⟨0, 32, .ro, false⟩]⟩,
  ⟨0x30018, 16, 1024, 1, 0, false, [⟨0, 8, .ro, false⟩]⟩,
  ⟨0x3001C, 16, 1024, 1, 0, false, [⟨16, 16, .ro, false⟩, ⟨0, 16, .ro, false⟩]⟩,
  ⟨0x30020, 16, 1024, 1, 0, false, [⟨16, 16, .ro, false⟩, ⟨0, 16, .ro, false⟩]⟩,
  ⟨0x30024, 16, 1024, 1, 0, false, [⟨0, 16, .ro, false⟩]⟩,
  ⟨0x30028, 16, 1024, 1, 0, false, [⟨0, 32, .ro, false⟩]⟩,
  ⟨0x30030, 16, 1024, 1, 0, false, [⟨0, 32, .ro, false⟩]⟩,
  ⟨0x30034, 16, 1024, 1, 0, false, [⟨0, 32, .ro, false⟩]⟩,
  ⟨0x30038, 16, 1024, 1, 0, false, [⟨0, 32, .rc, false⟩]⟩,
  ⟨0x3003C, 16, 1024, 1, 0, false, [⟨0, 32, .rc, false⟩]⟩]

/-- Registers, part 6. -/
def regRows6 : List RegRow := [
  ⟨0x30040, 16, 1024, 1, 0, false, [⟨0, 32, .rc, false⟩]⟩,
  ⟨0x30044, 16, 1024, 1, 0, false, [⟨0, 32, .rc, false⟩]⟩,
  ⟨0x30048, 16, 1024, 1, 0, false, [⟨0, 32, .rc, false⟩]⟩,
  ⟨0x3004C, 16, 1024, 1, 0, false, [⟨0, 32, .rc, false⟩]⟩,
  ⟨0x30050, 16, 1024, 1, 0, false, [⟨0, 32, .rc, false⟩]⟩,
  ⟨0x34000, 1, 0, 1, 0, false, [⟨16, 16, .ro, false⟩, ⟨9, 1, .ro, false⟩, ⟨8, 1, .ro, false⟩, ⟨0, 5, .ro, false⟩]⟩,
  ⟨0x34004, 1, 0, 1, 0, false, [⟨0, 16, .w1c, false⟩]⟩,
  ⟨0x34008, 1, 0, 1, 0, false, [⟨0, 16, .rw, true⟩]⟩,
  ⟨0x34100, 16, 16, 1, 0, false, [⟨0, 32, .rc, false⟩]⟩,
  ⟨0x34104, 16, 16, 1, 0, false, [⟨0, 32, .rc, false⟩]⟩,
  ⟨0x34108, 16, 16, 1, 0, false, [⟨0, 32, .rc, false⟩]⟩,
  ⟨0x3410C, 16, 16, 1, 0, false, [⟨0, 32, .rc, false⟩]⟩,
  ⟨0x34200, 16, 4, 1, 0, false, [⟨0, 32, .rc, false⟩]⟩,
  ⟨0x38000, 1, 0, 1, 0, false, [⟨16, 7, .ro, false⟩, ⟨8, 4, .ro, false⟩, ⟨5, 1, .ro, false⟩, ⟨0, 5, .ro, false⟩]⟩,
  ⟨0x38004, 1, 0, 1, 0, false, [⟨20, 1, .rw, true⟩, ⟨0, 20, .rw, true⟩]⟩,
  ⟨0x38008, 1, 0, 1, 0, false, [⟨0, 16, .rw, false⟩]⟩,
  ⟨0x3800C, 1, 0, 1, 0, false, [⟨0, 16, .ro, false⟩]⟩,
  ⟨0x38010, 1, 0, 1, 0, false, [⟨0, 32, .rc, false⟩]⟩,
  ⟨0x38014, 1, 0, 1, 0, false, [⟨0, 32, .rc, false⟩]⟩,
  ⟨0x38018, 1, 0, 1, 0, false, [⟨0, 32, .rc, false⟩]⟩,
  ⟨0x3801C, 1, 0, 1, 0, false, [⟨0, 32, .rc, false⟩]⟩,
  ⟨0x38020, 1, 0, 1, 0, false, [⟨0, 32, .rc, false⟩]⟩,
  ⟨0x38024, 1, 0, 1, 0, false, [⟨0, 32, .rc, false⟩]⟩,
  ⟨0x38040, 1, 0, 1, 0, false, [⟨31, 1, .rw, false⟩, ⟨0, 16, .rw, false⟩]⟩,
  ⟨0x38044, 1, 0, 1, 0, false, [⟨0, 16, .rw, false⟩]⟩,
  ⟨0x38048, 1, 0, 1, 0, false, [⟨0, 32, .ro, false⟩]⟩,
  ⟨0x3804C, 1, 0, 1, 0, false, [⟨31, 1, .ro, false⟩, ⟨0, 16, .ro, false⟩]⟩,
  ⟨0x38050, 1, 0, 1, 0, false, [⟨0, 16, .ro, false⟩]⟩,
  ⟨0x38054, 1, 0, 1, 0, false, [⟨0, 1, .wo, false⟩]⟩,
  ⟨0x38058, 1, 0, 1, 0, false, [⟨0, 32, .rc, false⟩]⟩]

/-- Registers, part 7. -/
def regRows7 : List RegRow := [
  ⟨0x38100, 16, 32, 1, 0, false, [⟨12, 20, .ro, false⟩]⟩,
  ⟨0x38104, 16, 32, 1, 0, false, [⟨0, 32, .ro, false⟩]⟩,
  ⟨0x38108, 16, 32, 1, 0, false, [⟨31, 1, .ro, false⟩, ⟨24, 4, .ro, false⟩, ⟨23, 1, .ro, false⟩, ⟨22, 1, .ro, false⟩, ⟨20, 2, .ro, false⟩, ⟨0, 20, .ro, false⟩]⟩,
  ⟨0x3810C, 16, 32, 1, 0, false, [⟨0, 32, .ro, false⟩]⟩,
  ⟨0x38110, 16, 32, 1, 0, false, [⟨0, 32, .ro, false⟩]⟩,
  ⟨0x38114, 16, 32, 1, 0, false, [⟨0, 2, .wo, false⟩]⟩,
  ⟨0x38118, 16, 32, 1, 0, false, [⟨0, 32, .ro, false⟩]⟩,
  ⟨0x3C000, 1, 0, 1, 0, false, [⟨15, 1, .mw, false⟩, ⟨12, 2, .mw, false⟩, ⟨10, 2, .mw, false⟩, ⟨9, 1, .mw, false⟩, ⟨8, 1, .mw, false⟩, ⟨0, 5, .mw, false⟩]⟩,
  ⟨0x3C004, 1, 0, 1, 0, false, [⟨7, 19, .rw, false⟩]⟩,
  ⟨0x3C008, 1, 0, 1, 0, false, [⟨0, 19, .rw, false⟩]⟩,
  ⟨0x3C00C, 1, 0, 1, 0, false, [⟨0, 9, .rw, false⟩]⟩,
  ⟨0x3C010, 1, 0, 1, 0, false, [⟨31, 1, .w1c, false⟩, ⟨30, 1, .w1c, false⟩, ⟨29, 1, .w1c, false⟩, ⟨0, 4, .ro, false⟩]⟩,
  ⟨0x3C014, 1, 0, 1, 0, false, [⟨0, 32, .rw, true⟩]⟩,
  ⟨0x3C018, 1, 0, 1, 0, false, [⟨0, 32, .rw, true⟩]⟩,
  ⟨0x3C01C, 1, 0, 1, 0, false, [⟨0, 32, .ro, false⟩]⟩,
  ⟨0x3C020, 1, 0, 1, 0, false, [⟨0, 32, .ro, false⟩]⟩,
  ⟨0x3C024, 1, 0, 1, 0, false, [⟨0, 32, .ro, false⟩]⟩,
  ⟨0x3C040, 5, 8, 1, 0, false, [⟨0, 32, .rw, true⟩]⟩,
  ⟨0x3C044, 5, 8, 1, 0, false, [⟨0, 16, .rw, true⟩]⟩,
  ⟨0x3C080, 1, 0, 1, 0, false, [⟨0, 32, .rc, false⟩]⟩,
  ⟨0x3C084, 1, 0, 1, 0, false, [⟨0, 32, .rc, false⟩]⟩,
  ⟨0x3C088, 1, 0, 1, 0, false, [⟨0, 32, .rc, false⟩]⟩,
  ⟨0x3C08C, 1, 0, 1, 0, false, [⟨0, 32, .rc, false⟩]⟩,
  ⟨0x3C090, 1, 0, 1, 0, false, [⟨0, 32, .rc, false⟩]⟩,
  ⟨0x3C094, 1, 0, 1, 0, false, [⟨0, 32, .rc, false⟩]⟩,
  ⟨0x3C098, 1, 0, 1, 0, false, [⟨0, 32, .rc, false⟩]⟩,
  ⟨0x3C09C, 1, 0, 1, 0, false, [⟨0, 32, .rc, false⟩]⟩,
  ⟨0x3C0A0, 1, 0, 1, 0, false, [⟨31, 1, .w1c, false⟩, ⟨24, 5, .ro, false⟩, ⟨23, 1, .ro, false⟩, ⟨22, 1, .ro, false⟩, ⟨21, 1, .ro, false⟩, ⟨0, 9, .ro, false⟩]⟩,
  ⟨0x3C0A4, 1, 0, 1, 0, false, [⟨7, 19, .ro, false⟩]⟩,
  ⟨0x40000, 1, 0, 1, 0, false, [⟨0, 8, .wo, false⟩]⟩]

/-- Registers, part 8. -/
def regRows8 : List RegRow := [
  ⟨0x40004, 4, 4, 1, 0, false, [⟨0, 32, .rw, false⟩]⟩,
  ⟨0x40014, 1, 0, 1, 0, false, [⟨31, 1, .ro, false⟩, ⟨30, 1, .w1c, false⟩, ⟨29, 1, .w1c, false⟩, ⟨0, 8, .ro, false⟩]⟩,
  ⟨0x40018, 1, 0, 1, 0, false, [⟨24, 8, .ro, false⟩, ⟨16, 8, .ro, false⟩, ⟨8, 1, .ro, false⟩, ⟨0, 1, .ro, false⟩]⟩,
  ⟨0x4001C, 1, 0, 1, 0, false, [⟨0, 32, .ro, false⟩]⟩,
  ⟨0x40020, 1, 0, 1, 0, false, [⟨0, 32, .ro, false⟩]⟩,
  ⟨0x40024, 1, 0, 1, 0, false, [⟨5, 1, .w1c, false⟩, ⟨4, 1, .w1c, false⟩, ⟨3, 1, .w1c, false⟩, ⟨2, 1, .w1c, false⟩, ⟨1, 1, .w1c, false⟩, ⟨0, 1, .w1c, false⟩]⟩,
  ⟨0x40028, 1, 0, 1, 0, false, [⟨0, 8, .ro, false⟩]⟩,
  ⟨0x4002C, 1, 0, 1, 0, true, [⟨4, 2, .wo, false⟩, ⟨0, 2, .wo, false⟩]⟩,
  ⟨0x40030, 1, 0, 1, 0, false, [⟨0, 4, .ro, false⟩]⟩,
  ⟨0x40040, 8, 4, 1, 0, false, [⟨0, 32, .rw, false⟩]⟩,
  ⟨0x40060, 1, 0, 1, 0, false, [⟨0, 16, .rw, false⟩]⟩,
  ⟨0x40064, 1, 0, 1, 0, false, [⟨31, 1, .ro, false⟩, ⟨16, 2, .ro, false⟩, ⟨0, 8, .rw, false⟩]⟩,
  ⟨0x40068, 1, 0, 1, 0, false, [⟨0, 32, .ro, false⟩]⟩,
  ⟨0x4006C, 1, 0, 1, 0, false, [⟨0, 32, .ro, false⟩]⟩,
  ⟨0x40400, 1, 0, 1, 0, false, [⟨6, 26, .rw, false⟩]⟩,
  ⟨0x40404, 1, 0, 1, 0, false, [⟨0, 32, .rw, false⟩]⟩,
  ⟨0x40408, 1, 0, 1, 0, false, [⟨0, 32, .rw, false⟩]⟩,
  ⟨0x4040C, 1, 0, 1, 0, false, [⟨0, 32, .w1c, false⟩]⟩,
  ⟨0x40410, 1, 0, 1, 0, false, [⟨0, 32, .rc, false⟩]⟩,
  ⟨0x44000, 1, 0, 1, 0, false, [⟨0, 12, .rw, false⟩]⟩,
  ⟨0x44004, 1, 0, 1, 0, false, [⟨24, 8, .rw, true⟩, ⟨0, 16, .rw, true⟩]⟩,
  ⟨0x44008, 1, 0, 1, 0, false, [⟨0, 8, .rw, false⟩]⟩,
  ⟨0x4400C, 1, 0, 1, 0, false, [⟨0, 32, .rw, false⟩]⟩,
  ⟨0x44010, 8, 4, 1, 0, false, [⟨28, 3, .ro, false⟩, ⟨16, 12, .ro, false⟩]⟩,
  ⟨0x44030, 1, 0, 1, 0, false, [⟨5, 1, .w1c, false⟩, ⟨4, 1, .w1c, false⟩, ⟨3, 1, .w1c, false⟩, ⟨2, 1, .w1c, false⟩, ⟨1, 1, .w1c, false⟩, ⟨0, 1, .w1c, false⟩]⟩,
  ⟨0x44034, 1, 0, 1, 0, false, [⟨0, 12, .ro, false⟩]⟩,
  ⟨0x44040, 1, 0, 1, 0, false, [⟨31, 1, .wo, false⟩, ⟨16, 12, .wo, false⟩, ⟨0, 8, .wo, false⟩]⟩,
  ⟨0x44060, 8, 4, 1, 0, false, [⟨31, 1, .rw, true⟩, ⟨30, 1, .rw, true⟩, ⟨16, 12, .rw, true⟩, ⟨8, 6, .rw, true⟩, ⟨0, 8, .rw, true⟩]⟩,
  ⟨0x44080, 1, 0, 1, 0, false, [⟨6, 26, .rw, true⟩]⟩,
  ⟨0x44084, 1, 0, 1, 0, false, [⟨0, 32, .rw, true⟩]⟩]

/-- Registers, part 9. -/
def regRows9 : List RegRow := [
  ⟨0x440A0, 4, 16, 1, 0, false, [⟨30, 2, .rw, true⟩]⟩,
  ⟨0x440A4, 4, 16, 1, 0, false, [⟨0, 32, .rw, true⟩]⟩,
  ⟨0x440A8, 4, 16, 1, 0, false, [⟨31, 1, .rw, true⟩, ⟨16, 12, .rw, true⟩, ⟨0, 6, .rw, true⟩]⟩,
  ⟨0x440F0, 1, 0, 1, 0, false, [⟨0, 32, .rc, false⟩]⟩,
  ⟨0x440F4, 1, 0, 1, 0, false, [⟨0, 32, .rc, false⟩]⟩,
  ⟨0x440F8, 1, 0, 1, 0, false, [⟨0, 32, .rc, false⟩]⟩,
  ⟨0x440FC, 1, 0, 1, 0, false, [⟨0, 32, .rc, false⟩]⟩,
  ⟨0x44100, 8, 32, 1, 0, false, [⟨0, 32, .rc, false⟩]⟩,
  ⟨0x44104, 8, 32, 1, 0, false, [⟨0, 32, .rc, false⟩]⟩,
  ⟨0x44108, 8, 32, 1, 0, false, [⟨0, 32, .rc, false⟩]⟩,
  ⟨0x4410C, 8, 32, 1, 0, false, [⟨0, 32, .rc, false⟩]⟩,
  ⟨0x44110, 8, 32, 1, 0, false, [⟨0, 32, .rc, false⟩]⟩,
  ⟨0x44114, 8, 32, 1, 0, false, [⟨0, 32, .rc, false⟩]⟩,
  ⟨0x45000, 512, 4, 1, 0, false, [⟨0, 32, .rw, false⟩]⟩,
  ⟨0x48000, 1, 0, 1, 0, false, [⟨15, 1, .mw, false⟩, ⟨14, 1, .mw, false⟩]⟩,
  ⟨0x48004, 1, 0, 1, 0, false, [⟨0, 16, .w1c, false⟩]⟩,
  ⟨0x48100, 16, 16, 1, 0, false, [⟨31, 1, .rw, false⟩, ⟨30, 1, .rw, false⟩, ⟨29, 1, .rw, false⟩, ⟨20, 4, .rw, false⟩, ⟨16, 4, .rw, false⟩, ⟨8, 8, .rw, false⟩, ⟨0, 8, .rw, false⟩]⟩,
  ⟨0x48104, 16, 16, 1, 0, false, [⟨0, 32, .rw, false⟩]⟩,
  ⟨0x48108, 16, 16, 1, 0, false, [⟨0, 16, .rw, false⟩]⟩,
  ⟨0x4C000, 24, 4, 1, 0, false, [⟨0, 16, .ro, false⟩]⟩,
  ⟨0x4C080, 30, 4, 1, 0, false, [⟨16, 16, .ro, false⟩, ⟨0, 16, .ro, false⟩]⟩,
  ⟨0x4C100, 1, 0, 1, 0, false, [⟨0, 16, .ro, false⟩]⟩,
  ⟨0x4C104, 1, 0, 1, 0, false, [⟨0, 16, .rw, false⟩]⟩,
  ⟨0x4C108, 1, 0, 1, 0, false, [⟨16, 8, .rw, false⟩, ⟨0, 8, .rw, false⟩]⟩,
  ⟨0x4C10C, 1, 0, 1, 0, false, [⟨31, 1, .ro, false⟩, ⟨30, 1, .w1c, false⟩, ⟨29, 1, .w1c, false⟩, ⟨28, 1, .w1c, false⟩, ⟨27, 1, .w1c, false⟩, ⟨0, 5, .ro, false⟩]⟩,
  ⟨0x4C110, 1, 0, 1, 0, false, [⟨0, 24, .ro, false⟩]⟩,
  ⟨0x4C114, 1, 0, 1, 0, false, [⟨8, 3, .ro, false⟩, ⟨4, 3, .ro, false⟩, ⟨0, 3, .ro, false⟩]⟩]

/-- Every register of the window. -/
def regRows : List RegRow :=
  regRows0 ++ regRows1 ++ regRows2 ++ regRows3 ++ regRows4 ++ regRows5 ++ regRows6 ++ regRows7 ++ regRows8 ++ regRows9

/-- The reset values other than 0: base address, count, stride, lowest bit, value. -/
def resetRows : List (Nat × Nat × Nat × Nat × Nat) := [
  (0x00000, 1, 0, 16, 0x574D),
  (0x00000, 1, 0, 0, 0x256),
  (0x00004, 1, 0, 16, 0x1),
  (0x00004, 1, 0, 0, 0x1),
  (0x00024, 1, 0, 0, 0xFF),
  (0x00028, 1, 0, 0, 0x80),
  (0x01010, 1, 0, 0, 0x3E8),
  (0x02008, 4, 256, 0, 0x4),
  (0x04018, 1, 0, 0, 0x186A0),
  (0x08010, 1, 0, 0, 0x3FFFFFFF),
  (0x08014, 1, 0, 0, 0x3FFFFFFF),
  (0x0C050, 1, 0, 0, 0x4),
  (0x0C054, 1, 0, 0, 0xA),
  (0x0C090, 1, 0, 0, 0x3C),
  (0x10000, 8, 4096, 4, 0x3),
  (0x10000, 8, 4096, 0, 0xF),
  (0x10004, 8, 4096, 0, 0x200),
  (0x18008, 1, 0, 16, 0x100),
  (0x18008, 1, 0, 0, 0x4),
  (0x1A004, 1, 0, 0, 0x1000),
  (0x20000, 2, 16384, 0, 0xF),
  (0x28000, 16, 1024, 12, 0x800),
  (0x28000, 16, 1024, 8, 0x1),
  (0x28004, 16, 1024, 0, 0x40),
  (0x30000, 16, 1024, 0, 0x1),
  (0x34000, 1, 0, 8, 0x1),
  (0x34008, 1, 0, 0, 0x800),
  (0x38040, 1, 0, 0, 0x2000),
  (0x38044, 1, 0, 0, 0xA),
  (0x3C014, 1, 0, 0, 0xFFFFFFFF),
  (0x3C018, 1, 0, 0, 0xFFFFFFFF),
  (0x3C01C, 1, 0, 0, 0xFFFFFFFF),
  (0x3C020, 1, 0, 0, 0xFFFFFFFF),
  (0x40060, 1, 0, 0, 0x64),
  (0x40064, 1, 0, 0, 0x1A),
  (0x44004, 1, 0, 24, 0x20),
  (0x44004, 1, 0, 0, 0x3E8),
  (0x440A8, 4, 16, 0, 0x1E),
  (0x4C108, 1, 0, 16, 0x64),
  (0x4C108, 1, 0, 0, 0x73),
  (0x3C040, 1, 0, 0, 0xFF),
  (0x3C048, 1, 0, 0, 0xFF00),
  (0x3C050, 1, 0, 0, 0xFF0000),
  (0x3C058, 1, 0, 0, 0xFF000000)]

/-- Whether address `a` is one of the registers of a row. -/
def RegRow.covers (r : RegRow) (a : Nat) : Bool :=
  (List.range r.count2).any (fun j =>
    let b := r.base + r.stride2 * j
    b ≤ a && (if r.stride = 0 then a == b else (a - b) % r.stride == 0 && (a - b) / r.stride < r.count))

/-- The row of the register at window address `a`; none at a reserved location. -/
def regRowAt (a : Nat) : Option RegRow := regRows.find? (fun r => r.covers a)

/-- The key under which a field's value is held. -/
def RField.key (f : RField) : Nat := f.addr * 32 + f.lo

/-- The reset value of the field with key `k`, by its register table. -/
def regReset (k : Nat) : Nat :=
  let a := k / 32
  let lo := k % 32
  match resetRows.find? (fun (b, n, st, l, _) =>
      l == lo && b ≤ a && (if st = 0 then a == b else (a - b) % st == 0 && (a - b) / st < n)) with
  | some (_, _, _, _, v) => v
  | none => 0

end Sys2Proof.Machine
end

