-- ==== Sys2Proof/Machine/Sparse.lean ====
section
/-! DEFINITION. The one canonical form in which the model holds addressed contents: a list of (key, value) pairs with keys
strictly rising and no pair equal to what an unlisted key reads as.  Memories, register fields and stores share it. -/

namespace Sys2Proof.Machine

/-- The value at key `k`: the listed one, or the default `d k`. -/
def sget {α : Type} (d : Nat → α) : List (Nat × α) → Nat → α
  | [], k => d k
  | (k', v) :: r, k => if k' = k then v else sget d r k

/-- The contents with `v` at key `k`, in canonical form. -/
def sset {α : Type} [DecidableEq α] (d : Nat → α) : List (Nat × α) → Nat → α → List (Nat × α)
  | [], k, v => if v = d k then [] else [(k, v)]
  | (k', v') :: r, k, v =>
    if k < k' then (if v = d k then (k', v') :: r else (k, v) :: (k', v') :: r)
    else if k' = k then (if v = d k then r else (k, v) :: r)
    else (k', v') :: sset d r k v

/-- The contents with every key that satisfies `p` back at its default. -/
def sclear {α : Type} (p : Nat → Bool) (l : List (Nat × α)) : List (Nat × α) := l.filter (fun e => !p e.1)

/-- The canonical form: keys strictly rising from above `lo`, and no listed value equal to the default. -/
def swfFrom {α : Type} [DecidableEq α] (d : Nat → α) : Option Nat → List (Nat × α) → Bool
  | _, [] => true
  | lo, (k, v) :: r =>
    (match lo with | none => true | some b => decide (b < k)) && !decide (v = d k) && swfFrom d (some k) r

/-- The canonical form of contents with default `d`. -/
def swf {α : Type} [DecidableEq α] (d : Nat → α) (l : List (Nat × α)) : Bool := swfFrom d none l

/-- What a byte of memory or of a wiped store that is not listed reads as.
DESIGN CHOICE for memory outside the engine; R628 for the engine's stores. -/
def zeroByte (_ : Nat) : Byte := 0

/-- One byte (R10). -/
def byteAt (m : List Host.Cell) (a : Nat) : Byte := sget zeroByte m a

/-- `n` bytes from address `a`. -/
def bytesAt (m : List Host.Cell) (a n : Nat) : List Byte := (List.range n).map (fun i => byteAt m (a + i))

/-- The little-endian value of `n` bytes from `a` (R10). -/
def leAt (m : List Host.Cell) (a : Nat) : Nat → Nat
  | 0 => 0
  | n + 1 => (byteAt m a).toNat + 256 * leAt m (a + 1) n

/-- The memory with one byte written. -/
def putByte (m : List Host.Cell) (a : Nat) (b : Byte) : List Host.Cell := sset zeroByte m a b

/-- The memory with a list of bytes written from address `a` upwards. -/
def putBytes (m : List Host.Cell) : Nat → List Byte → List Host.Cell
  | _, [] => m
  | a, b :: r => putBytes (putByte m a b) (a + 1) r

/-- `n` bytes from address `a` of one memory copied to address `b` of another. -/
def copyBytes (src dst : List Host.Cell) (a b n : Nat) : List Host.Cell :=
  (src.filter (fun c => a ≤ c.1 && c.1 < a + n)).foldl (fun m c => putByte m (b + (c.1 - a)) c.2)
    (sclear (fun k => b ≤ k && k < b + n) dst)

/-- The canonical form of a memory or store. -/
def Memory.wf (m : List Host.Cell) : Bool := swf zeroByte m

end Sys2Proof.Machine
end

