-- ==== Sys2Proof/Machine/Init.lean ====
section
/-! DEFINITION. The values from which every part of the engine starts: after a power-on reset, and in the parts that a later
reset, wipe or power change sets back (Table 159). -/

namespace Sys2Proof.Machine

/-- An empty dispatch queue beside its registers. -/
def QState.init : QState :=
  { head := none, firings := [], writes := [], sent := [], lost := [], flushTo := none, enabled := false, sinceDone := 0 }

/-- A lane core with no group, its local store wiped and its code buffer and cache part empty. -/
def LaneCore.init : LaneCore := { split := 0, store := [], cache := [], code := [], mma := none, admitted := 0 }

/-- A stream engine with both slots free. -/
def StreamEng.init : StreamEng := { active := .free, shadow := .free, arms := 0, service := 0, wait := 0, taken := false }

/-- A memory port with no request. -/
def MemPort.init : MemPort := { queue := [], tags := [], discard := [] }

/-- The caches of a cluster with every line invalid (R525). -/
def Caches.init : Caches :=
  { nc := [], ncTree := [], spc := [], spcTree := [], evict := [], ncMiss := [], spcMiss := [], ncGot := [], spcGot := [] }

/-- A quadrant with both weight halves empty. -/
def Quad.init : Quad := { half0 := none, half1 := none, applied := false }

/-- A Weight Store half, wiped. -/
def WStore.init : WStore := { bytes := [], arrived := [], tiles := [] }

/-- A peer-link port that has exchanged nothing since it last entered UP. -/
def PlkPort.init : PlkPort :=
  { txSeq := 0, rxSeq := 0, nakSent := false, nak := none, queue := [], replay := [],
    sent := List.replicate 8 0, credit := List.replicate 8 0, lastCredit := List.replicate 8 0,
    freed := List.replicate 8 0, rot := 0 }

/-- The peer link with no partner. -/
def Plk.init : Plk :=
  { ports := List.replicate 8 PlkPort.init, lost := [], subscribers := [], pairs := [], rreads := [], nextTag := 0,
    mcast := [], mcWait := [], laneDown := [], data := [], aborted := [] }

/-- The ageing record of a domain that has never been measured: no margin and no cap (R667). -/
def Ageing.init : Ageing := { vadj := List.replicate 6 0, cap := 0, warn := false, slack := 0, changes := 0 }

/-- An empty key slot. -/
def KeySlot.init : KeySlot := { state := 0, key := List.replicate 32 0 }

/-- A domain with no limit from any control loop. -/
def LoopDom.init : LoopDom := { thermal := 0, power := 0, brown := 0, coolMs := 0, dips := [] }

/-- The management subsystem before its firmware runs, with blank fuses and an erased flash. -/
def Mgmt.init : Mgmt :=
  { flash := [], erases := [], running := none, trial := false, down := false, version := 0, svn := 0, key := 0,
    fwStaged := false, svnFuse := 0, lifecycle := 0, lcyTarget := none, keys := List.replicate 4 KeySlot.init, keyOp := none,
    mail := none, logBuf := [], logSeq := 0, logPos := 0, dropped := 0, boots := 0, count := 0, records := 0, corrTotal := 0,
    otherTotal := 0, corrPer := [], hours := 0, fenceHist := [], loops := List.replicate 11 LoopDom.init, capCool := 0,
    trip := false, nonce := none, auth := false, trace := false, overrun := false }

/-- The integration that the model starts from.  DESIGN CHOICE: 16 memory ports, 8 peer-link ports, four masters, monitor
master M0, stream ID 0, no port enabled at reset, serial number 0. -/
def Integ.init : Integ :=
  { memPorts := 16, plkPorts := 8, masters := 15, monMaster := 0, streamId := 0, plkEnReset := 0, serial := 0, hifKhz := 400000,
    memKhz := 2000000, flashFit := true }

end Sys2Proof.Machine
end

