-- ==== Sys2Proof/Machine/State.lean ====
section
/-! DEFINITION. The whole state of the engine as plain data, the queue of waiting commands, the reasons a step can stop, and
the state right after reset. -/

namespace Sys2Proof.Machine

/-- Why a step can fault. -/
inductive Fault
  /-- Raised by a reset release whose integration parameters lie outside the limits of Table 191: "Values outside the limits are
  not supported" (R750).  Safe: the manual gives such an engine no behaviour. -/
  | unsupportedIntegration
deriving DecidableEq, Repr

/-- Why a step can be refused. -/
inductive Refusal
  /-- Answered by an arm of `exec` whose command has no meaning yet.  Safe: nothing follows from it. -/
  | notModelled (mnemonic : String)
deriving DecidableEq, Repr

/-- The engine.  Register fields stand in `regs` under `RField.key`; the other fields hold what no register shows. -/
structure State where
  integ : Integ
  strap : Nat
  clkKhz : List Nat
  ticks : Nat
  freeCtr : Nat
  macRem : List (Nat × Nat)
  startup : Nat
  tagStart : Bool
  present : Bool
  therm : Bool
  regs : List (Nat × Nat)
  wbuf : List WEntry
  svc : Nat
  vreq : List Nat
  vwait : Nat
  opMove : Option OpMove
  resetting : Option ResetSt
  domBusy : Option Nat
  wiping : Option Nat
  active : Option Image
  staged : Option Image
  firstImage : Bool
  loadAddr : Nat
  lpGoing : Bool
  hb : Nat
  claimOpen : Bool
  claims : Nat
  queues : List QState
  disps : List Dispatch
  nextDisp : Nat
  schedWait : List Nat
  schedK : List Nat
  mem : List Host.Cell
  sf : List Host.Cell
  sfPoison : List Nat
  rays : List Ray
  nextRay : Nat
  tqs : List TQueue
  nextTq : Nat
  overflow : List Nat
  batches : List Batch
  tslots : List (Nat × TSlot)
  ts : List Host.Cell
  tsPoison : List Nat
  useClock : Nat
  nbatches : List NBatch
  nextNb : Nat
  callouts : List CallRec
  gblocks : List GBlock
  nextGb : Nat
  hrBuf : List (List HitSlot)
  hold : List HoldRec
  groups : List Group
  nextGroup : Nat
  lockClock : Nat
  lcs : List LaneCore
  preempts : List Preempt
  fseqs : List FSeq
  fenceOrder : List EUnit
  ownFenced : List EUnit
  window : Option Window
  ageing : List Ageing
  ses : List StreamEng
  sitems : List StreamItem
  ports : List MemPort
  tlbs : List (List TlbEntry)
  xreqs : List XReq
  xwait : List XReq
  nextReq : Nat
  fwaits : List FWait
  fltSeq : Nat
  invals : List Inval
  hot : List HotEntry
  hotFifo : List (Nat × Nat)
  caches : List Caches
  cmOp : Option CmOp
  quads : List Quad
  ws : List WStore
  mbatches : List MBatch
  nextMb : Nat
  mgmt : Mgmt
  plk : Plk
  out : List Out
  pending : List Instr
deriving DecidableEq, Repr

/-- The engine right after the release of a power-on reset (Table 156, step 1): every register at the reset value of its table,
every store wiped, no image, no work and no owner; PRESENT is low until start-up ends.  Where the manual gives no value
(memory outside the engine, flash and fuse contents, integration ties, rail codes) the value is the model's, by its log. -/
def State.reset : State :=
  { integ := Integ.init, strap := 0, clkKhz := [100000, Integ.init.hifKhz, Integ.init.memKhz, 1250000, 1600000, 48000], ticks := 0, freeCtr := 0, macRem := [],
    startup := 1, present := false, therm := false, regs := [(F.rstStatusCause.key, 1)], wbuf := [], svc := 0, vreq := (List.range 11).map (fun k => Config.baseCode k 0 % 256), vwait := 0,
    opMove := none, resetting := none, domBusy := none, wiping := none, active := none, staged := none, firstImage := false, loadAddr := 0,
    tagStart := true, lpGoing := false, hb := 0, claimOpen := false, claims := 0, queues := List.replicate 4 QState.init, disps := [], nextDisp := 0, schedWait := [],
    schedK := List.replicate 32 0, mem := [], sf := [], sfPoison := [], rays := [], nextRay := 0, tqs := [], nextTq := 0,
    overflow := [], batches := [], tslots := [], ts := [], tsPoison := [], useClock := 0, nbatches := [], nextNb := 0, callouts := [],
    gblocks := [], nextGb := 0, hrBuf := List.replicate 4 [], hold := [], groups := [], nextGroup := 0, lockClock := 0,
    lcs := List.replicate 16 LaneCore.init, preempts := [], fseqs := [], fenceOrder := [], ownFenced := [], window := none,
    ageing := List.replicate 14 Ageing.init, ses := List.replicate 16 StreamEng.init, sitems := [], ports := List.replicate 16 MemPort.init,
    tlbs := List.replicate 64 [], xreqs := [], xwait := [], nextReq := 0, fwaits := [], fltSeq := 0, invals := [], hot := [], hotFifo := [],
    caches := List.replicate 32 Caches.init, cmOp := none, quads := List.replicate 8 Quad.init,
    ws := List.replicate 2 WStore.init, mbatches := [], nextMb := 0, mgmt := Mgmt.init, plk := Plk.init, out := [],
    pending := [] }

end Sys2Proof.Machine
end

