-- ==== Sys2Proof/Machine/Ops.lean ====
section
/-! DEFINITION. The named operations over register fields, units, counters, interrupts, the log and fault capture, through
which every command reads and changes the state. -/

namespace Sys2Proof

open Machine

/-- The kind of a unit (Table 38). -/
def EUnit.kind : EUnit → Nat
  | .tc _ => 1 | .lc _ => 2 | .quad _ => 3 | .se _ => 4 | .mp _ => 5 | .bank _ => 6 | .plk _ => 7
  | .sorter => 8 | .query => 9 | .hrp => 10

/-- The index of a unit within its kind. -/
def EUnit.index : EUnit → Nat
  | .tc i => i.val | .lc i => i.val | .quad i => i.val | .se i => i.val | .mp i => i.val | .bank i => i.val | .plk i => i.val
  | .sorter => 0 | .query => 0 | .hrp => 0

/-- The unit of a kind and an index, for the kinds of Table 38. -/
def EUnit.ofCode (kind index : Nat) : Option EUnit :=
  match kind with
  | 1 => if h : index < 32 then some (.tc ⟨index, h⟩) else none
  | 2 => if h : index < 16 then some (.lc ⟨index, h⟩) else none
  | 3 => if h : index < 8 then some (.quad ⟨index, h⟩) else none
  | 4 => if h : index < 16 then some (.se ⟨index, h⟩) else none
  | 5 => if h : index < 16 then some (.mp ⟨index, h⟩) else none
  | 6 => if h : index < 64 then some (.bank ⟨index, h⟩) else none
  | 7 => if h : index < 8 then some (.plk ⟨index, h⟩) else none
  | 8 => if index = 0 then some .sorter else none
  | 9 => if index = 0 then some .query else none
  | 10 => if index = 0 then some .hrp else none
  | _ => none

/-- The power domain that holds a unit (Table 154). -/
def EUnit.domain : EUnit → Nat
  | .tc i => 21 + i.val / 4
  | .lc i => 21 + i.val / 2
  | .quad i => 7 + i.val
  | .se _ => 6
  | .mp _ => 3
  | .bank i => if i.val ≤ 20 then 17 else if i.val ≤ 41 then 18 else 19
  | .plk _ => 4
  | .sorter => 5
  | .query => 5
  | .hrp => 29

/-- The RAS_FENCED field that shows a unit's fence, and the unit's bit in it (Table 150). -/
def EUnit.fenceBit : EUnit → Option (RField × Nat)
  | .tc i => some (F.rasFencedTc, i.val)
  | .lc i => some (F.rasFencedALc, i.val)
  | .quad i => some (F.rasFencedBQuad, i.val)
  | .se i => some (F.rasFencedASe, i.val)
  | .mp i => some (F.rasFencedBMp, i.val)
  | .plk i => some (F.rasFencedBPlk, i.val)
  | .bank i => if i.val < 32 then some (F.rasFencedSfLo, i.val) else some (F.rasFencedSfHi, i.val - 32)
  | _ => none

/-- Every unit of the engine. -/
def EUnit.all : List EUnit :=
  (List.finRange 32).map .tc ++ (List.finRange 16).map .lc ++ (List.finRange 8).map .quad ++ (List.finRange 16).map .se ++
  (List.finRange 16).map .mp ++ (List.finRange 64).map .bank ++ (List.finRange 8).map .plk ++ [.sorter, .query, .hrp]

end Sys2Proof

namespace Sys2Proof.Machine

/-! ### Register fields -/

/-- The value held of a register field. -/
def State.get (s : State) (f : RField) : Nat := sget regReset s.regs f.key % 2 ^ f.width

/-- The state with a register field holding `v`, cut to its width. -/
def State.set (s : State) (f : RField) (v : Nat) : State := { s with regs := sset regReset s.regs f.key (v % 2 ^ f.width) }

/-- Whether a one-bit field is 1. -/
def State.flag (s : State) (f : RField) : Bool := s.get f != 0

/-- The state with a one-bit field set to 1. -/
def State.mark (s : State) (f : RField) : State := s.set f 1

/-- Bit `i` of a mask field set to `b`. -/
def State.setBit (s : State) (f : RField) (i : Nat) (b : Bool) : State := s.set f (withBit (s.get f) i b)

/-- A counter that holds at all ones, raised by `n` (access RC, and the counters that "hold at"). -/
def State.bump (s : State) (f : RField) (n : Nat) : State := s.set f (min (s.get f + n) (2 ^ f.width - 1))

/-- A counter that wraps, raised by `n`. -/
def State.tally (s : State) (f : RField) (n : Nat) : State := s.set f (s.get f + n)

/-- A 64-bit counter in a pair of registers, raised by `n` (R568). -/
def State.tally2 (s : State) (lo hi : RField) (n : Nat) : State :=
  let v := s.get lo + 2 ^ 32 * s.get hi + n
  (s.set lo v).set hi (v / 2 ^ 32)

/-- The value of a pair of registers (R568). -/
def State.get2 (s : State) (lo hi : RField) : Nat := s.get lo * 2 ^ lo.lo + 2 ^ 32 * s.get hi

/-- The register fields set in turn. -/
def State.setAll (s : State) (l : List (RField × Nat)) : State := l.foldl (fun s e => s.set e.1 e.2) s

/-- The fields of every register for which `p` holds of its window address, back at their reset values. -/
def State.resetRegs (s : State) (p : Nat → Bool) : State := { s with regs := sclear (fun k => p (k / 32)) s.regs }

/-- What the engine puts on a port. -/
def State.emit (s : State) (o : Out) : State := { s with out := s.out ++ [o] }

/-- The number of the next free value: the model's own counter, on which no claim rests. -/
def State.draw (s : State) : Nat × State := (s.freeCtr, { s with freeCtr := s.freeCtr + 1 })

/-! ### Units -/

/-- Whether the integration provides a unit (R4, R750). -/
def State.integrated (s : State) : EUnit → Bool
  | .mp i => i.val < s.integ.memPorts
  | .plk i => i.val < s.integ.plkPorts
  | _ => true

/-- Whether a unit is fenced. -/
def State.fenced (s : State) (u : EUnit) : Bool :=
  match u.fenceBit with
  | some (f, i) => bit (s.get f) i
  | none => false

/-- The state with a unit's fence bit set to `b`; the order in which units were fenced is kept for R648. -/
def State.setFenced (s : State) (u : EUnit) (b : Bool) : State :=
  match u.fenceBit with
  | some (f, i) =>
    let l := s.fenceOrder.filter (fun x => x != u)
    State.setBit { s with fenceOrder := if b then l ++ [u] else l } f i b
  | none => s

/-- The unit of those that `p` holds of that was fenced last, or `d` when none is fenced (R648). -/
def State.lastFenced (s : State) (p : EUnit → Bool) (d : EUnit) : EUnit := ((s.fenceOrder.filter p).getLast?).getD d

/-- Whether a power domain is on or retained (CP_PD_STATE); in SLEEP only PD_AON and PD_MGT are (Table 157). -/
def State.domOn (s : State) (d : Nat) : Bool := bit (s.get F.cpPdState) d && (decide (d ≤ 1) || s.get F.cpLpStatusState != 3)

/-- Whether a power domain is on and its units have entered service (R606, R616). -/
def State.domLive (s : State) (d : Nat) : Bool := s.domOn d && bit s.svc d

/-- Whether a unit is in service: integrated, powered, past its wipe and not fenced (R605, R616, R646). -/
def State.inService (s : State) (u : EUnit) : Bool := s.integrated u && s.domLive u.domain && !s.fenced u

/-- The memory ports in service, rising. -/
def State.portsUp (s : State) : List (Fin 16) := (List.finRange 16).filter (fun i => s.inService (.mp i))

/-- The memory port that carries a physical address (R24). -/
def State.portOf (s : State) (pa : Nat) : Option (Fin 16) :=
  let l := s.portsUp
  if l.isEmpty then none else l[(pa / 4096) % l.length]?

/-! ### Interrupts, the log and fault capture -/

/-- Raising an interrupt line sets its bit in INT_STATUS (R583). -/
def State.raise (s : State) (line : Nat) : State := s.setBit F.intStatus line true

/-- Interrupt lines by name (Table 145). -/
def intDone : Nat := 0
def intFault : Nat := 1
def intXlat : Nat := 2
def intRas : Nat := 3
def intMgmt : Nat := 4

/-- DATA of a MARGIN entry (Table 174). -/
def marginData (c : Nat) (a : Ageing) (before after : Nat) : List Byte :=
  let adj := (List.range 6).foldl (fun n k => n + 16 ^ k * (((a.vadj[k]?).getD 0) % 16)) 0
  leBytes 1 c ++ leBytes 1 a.cap ++ leBytes 1 before ++ leBytes 1 after ++ leBytes 3 adj ++ leBytes 1 (boolNat a.warn) ++ List.replicate 4 255

/-- DATA of an HOURS entry (Table 174). -/
def Mgmt.hoursData (m : Mgmt) : List Byte := leBytes 4 m.hours ++ leBytes 1 m.svnFuse ++ List.replicate 7 255

/-- The code of a unit in a FENCEHIST entry (Table 174). -/
def unitCode (u : EUnit) : Nat := u.kind * 4096 + u.index

/-- DATA of a FENCEHIST entry: a unit's last 3 engine fences, latest first (Table 174). -/
def Mgmt.histData (m : Mgmt) (code : Nat) : List Byte :=
  let mine := ((m.fenceHist.filter (fun e => e.1 == code)).map (fun e => e.2)).reverse.take 3
  leBytes 2 code ++ (mine ++ List.replicate (3 - mine.length) 0xFFFFFF).flatMap (leBytes 3) ++ [255]

/-- The snapshot that starts a log sector (R689). -/
def State.snapshot (s : State) : List LogEntry :=
  let m := s.mgmt
  let units := dedup ((m.fenceHist.filter (fun e => decide (m.hours ≤ e.2 + 1000))).map (fun e => e.1))
  (s.ageing.zipIdx.map (fun e => { typ := 7, count := m.count, data := marginData e.2 e.1 e.1.slack e.1.slack : LogEntry })) ++
  [{ typ := 8, count := m.count, data := m.hoursData }] ++ units.map (fun c => { typ := 9, count := m.count, data := m.histData c })

/-- An entry joins those that wait to be programmed, after the snapshot when it starts a sector (R687, R689): the SEQ it takes. -/
def State.addEntry (s : State) (typ : Nat) (data : List Byte) : Nat × State :=
  let m := s.mgmt
  let snap := if (m.logPos + m.logBuf.length) % 127 = 0 then s.snapshot else []
  let seq := m.logSeq + snap.length
  (seq, { s with mgmt := { m with logBuf := m.logBuf ++ snap ++ [{ typ := typ, count := m.count, data := data }], logSeq := seq + 1 } })

/-- An entry of the flash log waits in SRAM; at 256 waiting entries all but FAULT, LIFECYCLE and FW are dropped, and the first
entry after room returns is a DROPPED entry with the count (R690).  Answers the SEQ the entry takes (R687). -/
def State.log (s : State) (typ : Nat) (data : List Byte) : Nat × State :=
  let m := s.mgmt
  let room := decide (m.logBuf.length < 256)
  if !room && !(typ == 2 || typ == 10 || typ == 11) then (m.logSeq, { s with mgmt := { m with dropped := m.dropped + 1 } })
  else if room && m.dropped ≠ 0 then
    let s := (s.addEntry 16 (leBytes 4 m.dropped ++ List.replicate 8 255)).2
    State.addEntry (State.mark { s with mgmt := { s.mgmt with dropped := 0 } } F.mbEventLogDrop) typ data
  else s.addEntry typ data

/-- The log entry alone, where its SEQ is not used. -/
def State.note (s : State) (typ : Nat) (data : List Byte) : State := (s.log typ data).2

/-- The UNIT_KIND of an optional unit; 0 is none (Table 38). -/
def unitKind (u : Option EUnit) : Nat := match u with | some u => u.kind | none => 0

/-- The UNIT_INDEX of an optional unit. -/
def unitIndex (u : Option EUnit) : Nat := match u with | some u => u.index | none => 0

/-- A fault of class `k` (Table 151): its bit in CLASS_SEEN, its counter, its log entry, and, for the first fault of a class other
than CORR and PROG, the capture in RAS_CAP with INT_RAS (R591, R640). -/
def State.capture (s : State) (k : Nat) (u : Option EUnit) (info : Nat) : State :=
  let s := s.setBit F.rasStatusClassSeen (k - 1) true
  if k = 1 then
    let m := s.mgmt
    let key := unitKind u
    let per := sset (fun _ => 0) m.corrPer key (sget (fun _ => 0) m.corrPer key + 1)
    State.bump { s with mgmt := { m with corrTotal := m.corrTotal + 1, corrPer := per } } F.rasCorrCount 1
  else if k = 9 then s
  else
    let (seq, s) := s.log 2 ([BitVec.ofNat 8 k, BitVec.ofNat 8 (unitKind u), BitVec.ofNat 8 (unitIndex u), 255] ++
      leBytes 4 info ++ List.replicate 4 255)
    let s := { s with mgmt := { s.mgmt with otherTotal := s.mgmt.otherTotal + 1 } }
    let s := s.bump F.rasUncCount 1
    if s.flag F.rasCapValid then s
    else
      (s.setAll [(F.rasCapValid, 1), (F.rasCapClass, k), (F.rasCapUnitKind, unitKind u), (F.rasCapUnitIndex, unitIndex u),
        (F.rasCapInfo, info), (F.rasCapSeq, seq)]).raise intRas

/-- Whether anything of a dispatch still stands in its queues or in a unit: an entry, a ray, a group, a batch, a block, an item of a STREAM
stage or a record in a return buffer.  Items that have ended failed may still have a record that flows on (R231, R344, R469). -/
def State.holdsItems (s : State) (d : Dispatch) : Bool :=
  d.queues.any (fun q => !q.entries.isEmpty) || s.rays.any (fun r => r.disp == d.id && r.guest.isNone) ||
  s.groups.any (fun g => g.disp == d.id) || s.mbatches.any (fun b => b.disp == d.id) || s.gblocks.any (fun b => b.disp == d.id) ||
  s.sitems.any (fun e => e.disp == d.id) || s.hrBuf.any (fun l => l.any (fun h => h.disp == d.id))

/-- Whether every item of a dispatch has ended. -/
def Dispatch.allEnded (d : Dispatch) : Bool := d.done + d.fail ≥ d.rcd.itemCount

/-- Whether a dispatch runs: taken, with items not all ended or with records that still flow (R108, R116). -/
def State.runs (s : State) (d : Dispatch) : Bool :=
  match d.phase with
  | .paramWait => true
  | .running => !d.allEnded || s.holdsItems d
  | .ended => false

/-- The sequence of R646 starts for a unit: the window opens or takes one more fault, and RECOVERING and TAG_LIMITED read 1
(R661), and the dispatches that run carry RECOVERY (R663).  A unit already in a sequence or fenced starts nothing (R648). -/
def State.openWindow (s : State) (seq : Nat) : State :=
  let w := match s.window with
    | some w => { w with faults := w.faults + 1, holding := false }
    | none => { firstSeq := seq, replayed := 0, failed := 0, faults := 1, holding := false, late := false, imageEnded := false }
  let s := (s.set F.rasRecovInWindow (min w.faults 0xFFFF)).mark F.rasStatusRecovering
  let ds := s.disps.map (fun d => if s.runs d then { d with recovery := true } else d)
  { s with window := some w, disps := ds }

/-- Whether the tag limit of R476 is in force: from reset release until the first activation, and in a recovery window. -/
def State.tagLimited (s : State) : Bool := s.tagStart || s.window.isSome

/-- Whether a sequence of R646 runs for a unit. -/
def State.inSeq (s : State) (u : EUnit) : Bool := s.fseqs.any (fun f => f.unit == u)

/-- Whether fencing a unit would leave no memory port or no stream engine in service (R657), those that a sequence is fencing aside. -/
def State.isLast (s : State) (u : EUnit) : Bool :=
  match u with
  | .mp i => s.portsUp.filter (fun j => !s.inSeq (.mp j)) == [i]
  | .se i => (List.finRange 16).filter (fun j => s.inService (.se j) && !s.inSeq (.se j)) == [i]
  | _ => false

/-- A fault that fences `u`: captured, and its sequence starts unless the unit is the last of R657, is not fenced by rule, or is
in a sequence already (R639, R648, R657). -/
def State.fenceFault (s : State) (k : Nat) (u : EUnit) (info : Nat) : State :=
  let s := s.capture k (some u) info
  let seq := s.mgmt.logSeq - 1
  if s.inSeq u || s.fenced u || s.isLast u || u.fenceBit.isNone then s
  else
    let s := s.openWindow seq
    { s with fseqs := s.fseqs ++ [{ unit := u, owner := false, fenced := false }] }

/-! ### Performance counters -/

/-- Whether counter selection `i` takes an event of unit `u` and class `c` (R593). -/
def State.pcTakes (s : State) (i ev : Nat) (u : EUnit) (c : Option Nat) : Bool :=
  s.flag (F.pcSelEn i) && !s.flag F.pcCtrlFreeze && s.get (F.pcSelEvent i) == ev &&
  (s.flag (F.pcSelAllUnits i) ||
    (s.get (F.pcSelUnitKind i) == u.kind && (s.flag (F.pcSelAllIndex i) || s.get (F.pcSelUnitIndex i) == u.index))) &&
  (match c with
    | some c => s.get (F.pcSelClassMask i) == 0 || bit (s.get (F.pcSelClassMask i)) c
    | none => s.get (F.pcSelClassMask i) == 0) &&
  s.domOn u.domain && !s.fenced u

/-- An event `ev` of Table 152a in unit `u`, `n` times: every selected counter takes it, wrapping at 2^48 into PC_OVF (R594). -/
def State.perf (s : State) (ev : Nat) (u : EUnit) (c : Option Nat) (n : Nat) : State :=
  if n = 0 then s else
  (List.range 16).foldl (fun s i =>
    if s.pcTakes i ev u c then
      let v := s.get (F.pcCntLo i) + 2 ^ 32 * s.get (F.pcCntHi i) + n
      let s := (s.set (F.pcCntLo i) v).set (F.pcCntHi i) (v / 2 ^ 32)
      if v ≥ 2 ^ 48 then s.setBit F.pcOvf i true else s
    else s) s

/-- `n` multiply-accumulates of a unit: MAC_K counts 1 per 1,024, the remainder carried (Table 152a, 0x07). -/
def State.perfMac (s : State) (u : EUnit) (c : Option Nat) (n : Nat) : State :=
  let key := u.kind * 256 + u.index
  let t := sget (fun _ => 0) s.macRem key + n
  ({ s with macRem := sset (fun _ => 0) s.macRem key (t % 1024) }).perf 7 u c (t / 1024)

/-! ### Lists of the state -/

/-- The queue state of class `c`. -/
def State.queue (s : State) (c : Nat) : QState := s.queues[c]?.getD QState.init

/-- The state with the queue state of class `c` changed. -/
def State.modQueue (s : State) (c : Nat) (f : QState → QState) : State := { s with queues := modifyAt f c s.queues }

/-- The dispatch with an id. -/
def State.disp (s : State) (id : Nat) : Option Dispatch := s.disps.find? (fun d => d.id == id)

/-- The state with one dispatch changed. -/
def State.modDisp (s : State) (id : Nat) (f : Dispatch → Dispatch) : State :=
  { s with disps := s.disps.map (fun d => if d.id == id then f d else d) }

/-- The chain of an image by index. -/
def Image.chain (im : Image) (i : Nat) : Option Chain := im.chains[i]?

/-- The chain of a dispatch under the active image. -/
def State.chainOf (s : State) (d : Dispatch) : Option Chain :=
  match s.active with
  | some im => im.chain d.rcd.chain
  | none => none

/-- A stage of a dispatch's chain. -/
def State.stageOf (s : State) (d : Dispatch) (i : Nat) : Option Stage :=
  match s.chainOf d with
  | some c => c.stages[i]?
  | none => none

/-- The dispatches of class `c` that run. -/
def State.running (s : State) (c : Nat) : List Dispatch := s.disps.filter (fun d => d.queue == c && s.runs d)

/-- The ray with an id. -/
def State.ray (s : State) (id : Nat) : Option Ray := s.rays.find? (fun r => r.id == id)

/-- The state with one ray changed. -/
def State.modRay (s : State) (id : Nat) (f : Ray → Ray) : State :=
  { s with rays := s.rays.map (fun r => if r.id == id then f r else r) }

end Sys2Proof.Machine
end

