-- ==== Sys2Proof/Machine/Operands.lean ====
section
/-! DEFINITION. Lane-core instruction words and operands: fields, defined words, register runs, guards, registers and predicates of
a group ("Lane Core Instructions", R419–R428, R434, R437). -/

namespace Sys2Proof.Machine

/-! ### Fields of an instruction word (Tables 107 and 108) -/

def wOpc (w : Nat) : Nat := bits w 56 8
def wGn (w : Nat) : Bool := bit w 55
def wGp (w : Nat) : Nat := bits w 52 3
def wMod (w : Nat) : Nat := bits w 48 4
def wD (w : Nat) : Nat := bits w 40 8
def wA (w : Nat) : Nat := bits w 32 8
def wB (w : Nat) : Nat := bits w 24 8
def wC (w : Nat) : Nat := bits w 16 8
def wSub (w : Nat) : Nat := bits w 0 16
def wImm (w : Nat) : Nat := bits w 0 32
def wSize (w : Nat) : Nat := bits w 29 3
def wSign (w : Nat) : Bool := bit w 28
def wOffset (w : Nat) : Int := signed 24 (bits w 0 24)
def wTarget (w : Nat) : Nat := bits w 0 18

/-- The formats of Table 108. -/
inductive WForm
  | r | i | m | j
deriving DecidableEq, Repr

/-- How a word uses its fields: a register field is unused, used otherwise, or names a run of registers; `sub` masks the SUB bits in
use, and `ok` holds what the instruction asks of its fields. -/
structure Shape where
  form : WForm
  d : Option Nat
  a : Option Nat
  b : Option Nat
  c : Option Nat
  sub : Nat
  ok : Bool

/-- A shape of format R. -/
def shapeR (d a b c : Option Nat) (sub : Nat) (ok : Bool) : Option Shape := some ⟨.r, d, a, b, c, sub, ok⟩

/-- The register run of an address: a pair in GLOBAL, one register elsewhere (R439, R443). -/
def addrRun (space : Nat) : Option Nat := some (if space = 0 then 2 else 1)

/-- The shape of a word by its opcode (Tables 109, 111 to 113, 115 to 119); none for an opcode absent from them. -/
def wordShape (w : Nat) : Option Shape :=
  let m := wMod w
  let s := wSub w
  let r : Option Nat := some 1
  let o : Option Nat := some 0
  let n : Option Nat := none
  match wOpc w with
  | 0x00 => shapeR r r r n 0 (m == 0) | 0x01 => some ⟨.i, r, r, n, n, 0, m == 0⟩
  | 0x02 => shapeR r r r n 0 (m == 0) | 0x03 => some ⟨.i, r, r, n, n, 0, m == 0⟩
  | 0x04 => shapeR r r r n 0 (m == 0) | 0x05 => some ⟨.i, r, r, n, n, 0, m == 0⟩
  | 0x06 => shapeR r r r n 0 (m ≤ 1) | 0x07 => some ⟨.i, r, r, n, n, 0, m ≤ 1⟩
  | 0x08 => shapeR r r r r 0 (m == 0)
  | 0x0A => shapeR r r r n 0 (m == 0) | 0x0B => some ⟨.i, r, r, n, n, 0, m == 0⟩
  | 0x0C => shapeR r r r n 0 (m == 0) | 0x0D => some ⟨.i, r, r, n, n, 0, m == 0⟩
  | 0x0E => shapeR r r r n 0 (m == 0) | 0x0F => some ⟨.i, r, r, n, n, 0, m == 0⟩
  | 0x10 => shapeR r r r n 0 (m == 0) | 0x11 => some ⟨.i, r, r, n, n, 0, m == 0⟩
  | 0x12 => shapeR r r r n 0 (m ≤ 1) | 0x13 => some ⟨.i, r, r, n, n, 0, m ≤ 1⟩
  | 0x14 => shapeR r r r n 0 (m ≤ 1) | 0x15 => some ⟨.i, r, r, n, n, 0, m ≤ 1⟩
  | 0x16 => shapeR r r r n 0 (m ≤ 1) | 0x17 => some ⟨.i, r, r, n, n, 0, m ≤ 1⟩
  | 0x18 => shapeR o r r n 0 (m % 8 ≤ 5 && wD w < 8) | 0x19 => some ⟨.i, o, r, n, n, 0, m % 8 ≤ 5 && wD w < 8⟩
  | 0x1A => shapeR r r r n 0xF (m == 0)
  | 0x1C => shapeR r r n n 0 (m == 0)
  | 0x1D => some ⟨.i, r, n, n, n, 0, m == 0⟩
  | 0x1E => shapeR r r n n 0 (m == 0)
  | 0x1F => shapeR r r n n 0 (m == 0)
  | 0x20 => shapeR (some 2) (some 2) r n 0 (m == 0) | 0x21 => some ⟨.i, some 2, some 2, n, n, 0, m == 0⟩
  | 0x28 => shapeR r r r n 0xF (m ≤ 3)
  | 0x29 => shapeR r r r n 0xF (m ≤ 3)
  | 0x2A => shapeR r r r r 0x1F (m ≤ 3)
  | 0x2B => shapeR r r r n 0xF (m == 0)
  | 0x2C => shapeR r r r n 0xF (m == 0)
  | 0x2D => shapeR o r r n 0xF (m ≤ 7 && wD w < 8)
  | 0x2F => shapeR r r r n 0xF (m ≤ 3)
  | 0x30 => shapeR r r n n 0xF03 (m == 0 && bits s 8 4 < 8)
  | 0x31 => shapeR r r r n 0xF (m ≤ 1)
  | 0x32 => shapeR r r r n 0xF (m ≤ 1)
  | 0x33 => shapeR r r r r 0x1F (m ≤ 1)
  | 0x34 => some ⟨.i, r, r, n, n, 0, m ≤ 3⟩
  | 0x35 => some ⟨.i, r, r, n, n, 0, m ≤ 3⟩
  | 0x40 => shapeR r r n n 0 (!bit m 2)
  | 0x41 => shapeR r r n n 0 (!bit m 2)
  | 0x42 => shapeR r r n n 0xF03 (m ≤ 3 && bits s 8 4 ≤ 4 && (bits s 8 4 ≥ 2 || s % 4 ≤ 1))
  | 0x43 => shapeR r r n n 0xF03 (m == 0 && bits s 8 4 ≤ 4 && (bits s 8 4 ≥ 2 || s % 4 ≤ 1))
  | 0x48 => shapeR r n n n 0xF (m == 0 && s ≤ 8)
  | 0x49 => shapeR (if m = 2 then r else o) o n n 0 (m ≤ 2 && wA w < 8 && (m == 2 || wD w < 8))
  | 0x4A => shapeR r r r n 0 (m ≤ 3) | 0x4B => some ⟨.i, r, r, n, n, 0, m ≤ 3⟩
  | 0x4C => shapeR o o o n 0 (m ≤ 2 && wD w < 8 && wA w < 16 && wB w < 16)
  | 0x50 => some ⟨.m, some (max 1 (2 ^ min (wSize w) 4 / 4)), addrRun m, n, n, 0,
      m ≤ 3 && wSize w ≤ 4 && bits w 24 4 == 0 && (!wSign w || wSize w ≤ 1)⟩
  | 0x51 => some ⟨.m, some (max 1 (2 ^ min (wSize w) 4 / 4)), addrRun m, n, n, 0,
      m ≤ 2 && wSize w ≤ 4 && bits w 24 4 == 0 && !wSign w⟩
  | 0x52 => shapeR n n n n 0 (m ≤ 2)
  | 0x58 =>
    let k := some (if m ≥ 11 then 2 else 1)
    shapeR k (addrRun s) k (if m = 9 ∨ m = 13 then k else n) 3 (m ≤ 13 && s != 3)
  | 0x59 => shapeR (if m = 0 then o else n) (addrRun s) n n 3 (m ≤ 1 && s != 3 && (m == 1 || wD w < 8))
  | 0x5A => shapeR n (addrRun s) n n 3 (m == 0 && s != 3)
  | 0x60 => some ⟨.j, n, n, n, n, 0, m == 0⟩
  | 0x61 => shapeR n r n n 0 (m == 0)
  | 0x62 => some ⟨.j, r, n, n, n, 0, m == 0⟩
  | 0x64 => some ⟨.j, n, n, n, n, 0, m == 0⟩
  | 0x65 => shapeR n n n n 0 (m == 0)
  | 0x66 => shapeR n n n n 0 (m == 0)
  | 0x67 => shapeR n n n n 0 (m == 0)
  | 0x68 => shapeR n n n n 0 (m == 0)
  | 0x70 => shapeR n (addrRun (m % 4)) (addrRun (m / 4)) n 0x3FFF
      (m % 4 ≤ 2 && m / 4 ≤ 2 && (m % 4 == 2) != (m / 4 == 2))
  | 0x71 => shapeR n n n n 0x387F (m == 0 && s % 128 ≤ 64)
  | 0x74 => let k := some (if m ≤ 1 then 4 else 2); shapeR (some 8) k k (some 8) 0 (m ≤ 6)
  | 0x78 =>
    (match m with
      | 0 => shapeR (some (if s % 4 = 0 then 8 else 16)) n n n 3 (s % 4 ≤ 1)
      | 1 => shapeR n r n n 3 (s % 4 ≤ 2)
      | _ => shapeR n n n n 0 (m == 2))
  | 0x79 => shapeR n n n n 0 (m == 0)
  | 0x7A => shapeR r n n n 0 (m == 0)
  | 0x7B => shapeR n r r r 0xFF (m == 0)
  | _ => none

/-- Whether a word is a group-scope instruction (R427). -/
def groupScope (w : Nat) : Bool :=
  [0x49, 0x64, 0x65, 0x67, 0x70, 0x71, 0x74, 0x7A].contains (wOpc w) || (wOpc w == 0x78 && wMod w == 2)

/-- Whether a word is defined (R421, R427). -/
def wordDefined (w : Nat) : Bool :=
  match wordShape w with
  | none => false
  | some x =>
    x.ok && (!groupScope w || bits w 52 4 == 7) && (x.d.isSome || wD w == 0) && (x.a.isSome || wA w == 0) &&
    (match x.form with
      | .r => (x.b.isSome || wB w == 0) && (x.c.isSome || wC w == 0) && (wSub w &&& (0xFFFF ^^^ x.sub)) == 0
      | .j => bits w 18 14 == 0
      | _ => true)

/-- The register runs that a defined word names: first index and length (R424). -/
def wordRuns (w : Nat) : List (Nat × Nat) :=
  match wordShape w with
  | none => []
  | some x =>
    ([(wD w, x.d), (wA w, x.a)] ++ (if x.form = .r then [(wB w, x.b), (wC w, x.c)] else [])).filterMap
      (fun e => match e.2 with | some (n + 1) => some (e.1, n + 1) | _ => none)

/-- Whether a run of registers exists in a program of `regs` registers: the zero register alone, or indices below REGS (R423, R424). -/
def runOk (regs : Nat) (r : Nat × Nat) : Bool := if r.1 = 255 then r.2 == 1 else r.1 + r.2 ≤ regs

/-! ### Registers, predicates and guards of a group (R423–R426) -/

/-- Register `r` of lane `l`. -/
def Group.reg (g : Group) (l r : Nat) : Nat := if r = 255 then 0 else sget (fun _ => 0) g.regs (256 * l + r) % 2 ^ 32

/-- The group with register `r` of lane `l` written; the zero register discards it. -/
def Group.setReg (g : Group) (l r v : Nat) : Group :=
  if r = 255 then g else { g with regs := sset (fun _ => 0) g.regs (256 * l + r) (v % 2 ^ 32) }

/-- `n` registers from `r` of lane `l` as one value. -/
def Group.run (g : Group) (l r : Nat) : Nat → Nat
  | 0 => 0
  | n + 1 => g.reg l r + 2 ^ 32 * g.run l (r + 1) n

/-- The group with `n` registers from `r` of lane `l` written. -/
def Group.setRun (g : Group) (l r : Nat) : Nat → Nat → Group
  | 0, _ => g
  | n + 1, v => (g.setReg l r v).setRun l (r + 1) n (v / 2 ^ 32)

/-- A register pair of lane `l` (R424). -/
def Group.pair (g : Group) (l r : Nat) : Nat := g.run l r 2

/-- Predicate `p` of lane `l`; p7 reads true. -/
def Group.pred (g : Group) (p l : Nat) : Bool := decide (p % 8 = 7) || bit ((g.preds[p % 8]?).getD 0) l

/-- The group with predicate `p` of lane `l` written; p7 discards it. -/
def Group.setPred (g : Group) (p l : Nat) (b : Bool) : Group :=
  if p % 8 = 7 then g else { g with preds := modifyAt (fun m => withBit m l b) (p % 8) g.preds }

/-- The lanes of a mask. -/
def lanesOf (m : Nat) : List Nat := bitsOf 32 m

/-- The lanes in which a word acts: active and of true guard (R426). -/
def Group.selected (g : Group) (w : Nat) : List Nat := (lanesOf g.active).filter (fun l => g.pred (wGp w) l != wGn w)

/-- B, or IMM where the opcode is an I form (R429). -/
def Group.srcB (g : Group) (w l : Nat) : Nat :=
  match wordShape w with
  | some ⟨.i, _, _, _, _, _, _⟩ => wImm w
  | _ => g.reg l (wB w)

/-! ### Source modifiers (R434) -/

/-- A source under its absolute-value and negate bits; `signs` holds the sign bits of its elements. -/
def modify (signs : Nat) (ab neg : Bool) (x : Nat) : Nat :=
  let x := if ab then x &&& (0xFFFFFFFF ^^^ signs) else x
  if neg then x ^^^ signs else x

/-- A, B and C of a floating-point word, modified: SUB[1:0] for A, [3:2] for B, [4] for C; I forms take them as they are. -/
def Group.fA (g : Group) (w l : Nat) (signs : Nat) : Nat := modify signs (bit (wSub w) 1) (bit (wSub w) 0) (g.reg l (wA w))
def Group.fB (g : Group) (w l : Nat) (signs : Nat) : Nat := modify signs (bit (wSub w) 3) (bit (wSub w) 2) (g.reg l (wB w))
def Group.fC (g : Group) (w l : Nat) (signs : Nat) : Nat := modify signs false (bit (wSub w) 4) (g.reg l (wC w))

/-- Sign bits of an FP32 register and of a pair of halves. -/
def sign32 : Nat := 0x80000000
def signHalves : Nat := 0x80008000

/-! ### Element formats of conversions (Table 114) -/

/-- The format of SUB[11:8] and whether it saturates. -/
def convFmt (w : Nat) : FFmt × Bool :=
  match bits (wSub w) 8 4 with
  | 0 => (fp16, false)
  | 1 => (bf16, false)
  | 2 => (e4m3, true)
  | 3 => (e5m2, false)
  | _ => (e5m2, true)

/-- Bit place and width of the element lane SUB[1:0]. -/
def convLane (w : Nat) : Nat × Nat := if bits (wSub w) 8 4 ≤ 1 then (16 * (wSub w % 4), 16) else (8 * (wSub w % 4), 8)

end Sys2Proof.Machine
end

