-- ==== Sys2Proof/Machine/Flags.lean ====
section
/-! DEFINITION. The conditions that lane-core instructions write to predicates: comparisons, predicate logic, votes and atomic
compares ("Lane Core Instructions", R430, R431, Table 115). -/

namespace Sys2Proof.Machine

/-- An integer comparison (Table 110); `sg` compares signed. -/
def condInt (cond : Nat) (sg : Bool) (a b : Nat) : Bool :=
  let x : Int := if sg then signed 32 a else a
  let y : Int := if sg then signed 32 b else b
  match cond with
  | 0 => decide (x = y)
  | 1 => decide (x ≠ y)
  | 2 => decide (x < y)
  | 3 => decide (x ≤ y)
  | 4 => decide (x > y)
  | _ => decide (x ≥ y)

/-- An FP32 comparison (Table 110); −0 equals +0. -/
def condFp (cond a b : Nat) : Bool :=
  let nan := isNan fp32 a || isNan fp32 b
  match cond with
  | 0 => eqF fp32 a b
  | 1 => nan || !eqF fp32 a b
  | 2 => ltF fp32 a b
  | 3 => leF fp32 a b
  | 4 => ltF fp32 b a
  | 5 => leF fp32 b a
  | 6 => !nan
  | _ => nan

/-- PLOP of two predicates (Table 111). -/
def predLogic (m : Nat) (a b : Bool) : Bool :=
  match m with
  | 0 => a && b
  | 1 => a || b
  | _ => a != b

/-- The lanes of the active mask whose predicate A[2:0] is true (VOTE). -/
def Group.ballot (g : Group) (w : Nat) : Nat := maskOf ((lanesOf g.active).filter (fun l => g.pred (wA w % 8) l))

/-- VOTE ANY and ALL. -/
def Group.vote (g : Group) (w : Nat) : Bool := if wMod w = 0 then g.ballot w != 0 else g.ballot w == g.active

/-- The condition of SEL: SUB[2:0], inverted when SUB[3] is 1. -/
def Group.selects (g : Group) (w l : Nat) : Bool := g.pred (wSub w % 8) l != bit (wSub w) 3

end Sys2Proof.Machine
end

