-- ==== Sys2Proof/Machine/Fix.lean ====
section
/-! DEFINITION. The transcendental functions of MUFU and of the post-unit (R436, R352), correctly rounded.
DEDUCED: each is computed with 256 fractional bits and rounded once.  An FP32 result of these functions that is not exact lies
farther from a rounding boundary than the error of that computation, and the exact results (integers of EX2 and LG2, zeros) are
handled as such. -/

namespace Sys2Proof.Machine

/-- ⌊π · 2^512⌋. -/
def piFix : Int := 0x3243F6A8885A308D313198A2E03707344A4093822299F31D0082EFA98EC4E6C89452821E638D01377BE5466CF34E90C6CC0AC29B7C97C50DD3F84D5B5B5470917

/-- ⌊ln 2 · 2^512⌋. -/
def ln2Fix : Int := 0xB17217F7D1CF79ABC9E3B39803F2F6AF40F343267298B62D8A0D175B8BAAFA2BE7B876206DEBAC98559552FB4AFA1B10ED2EAE35C138214427573B291169B825

/-- 1.0 with 256 fractional bits. -/
def fixOne : Int := 2 ^ 256

/-- π/2 and ln 2 with 256 fractional bits. -/
def fixHalfPi : Int := piFix / 2 ^ 257
def fixLn2 : Int := ln2Fix / 2 ^ 256

/-- The product of two numbers with 256 fractional bits. -/
def fixMul (a b : Int) : Int := (a * b) / fixOne

/-- The quotient of two numbers with 256 fractional bits. -/
def fixDiv (a b : Int) : Int := (a * fixOne) / b

/-- A dyadic number with 256 fractional bits. -/
def fixOfDy (d : Dy) : Int := Dy.floor ⟨d.n, d.e + 256⟩

/-- The sum of the Taylor series with terms t_(k+1) = t_k · x ÷ (k + 1), from term number `k`, over `fuel` terms. -/
def expTerms (x : Int) : Nat → Int → Int → Int
  | 0, _, _ => 0
  | fuel + 1, k, t => t + expTerms x fuel (k + 1) (fixMul t x / (k + 1))

/-- e^x for 0 ≤ x < 1, with 256 fractional bits. -/
def fixExp01 (x : Int) : Int := expTerms x 64 0 fixOne

/-- e^x for any x of magnitude below 2^16, as (mantissa with 256 fractional bits, power of 2). -/
def fixExp (x : Int) : Int × Int :=
  let n := x / fixLn2
  (fixExp01 (x - n * fixLn2), n)

/-- The alternating series of sine (k = 1) or cosine (k = 0) from term `t`. -/
def trigTerms (x2 : Int) : Nat → Int → Int → Int
  | 0, _, _ => 0
  | fuel + 1, k, t => t + trigTerms x2 fuel (k + 2) (-(fixMul t x2) / ((k + 1) * (k + 2)))

/-- sin and cos of r with |r| ≤ π/2, with 256 fractional bits. -/
def fixSin (r : Int) : Int := trigTerms (fixMul r r) 48 1 r
def fixCos (r : Int) : Int := trigTerms (fixMul r r) 48 0 fixOne

/-- The odd series z + z³/3 + z⁵/5 + … -/
def atanhTerms (z2 : Int) : Nat → Int → Int → Int
  | 0, _, _ => 0
  | fuel + 1, k, p => p / k + atanhTerms z2 fuel (k + 2) (fixMul p z2)

/-- ln m for 1 ≤ m < 2, with 256 fractional bits. -/
def fixLn (m : Int) : Int :=
  let z := fixDiv (m - fixOne) (m + fixOne)
  2 * atanhTerms (fixMul z z) 90 1 z

/-- The FP32 pattern nearest to v · 2^(k − 256). -/
def roundFix (v k : Int) : Nat := roundDy fp32 0 false ⟨v, k - 256⟩

/-- The quadrant (x ÷ (π/2), nearest below) and the remainder with 256 fractional bits of an exact dyadic angle. -/
def reduceAngle (d : Dy) : Int × Int :=
  let x := Dy.floor ⟨d.n, d.e + 512⟩
  let half := piFix / 2
  let n := x / half
  (n, (x - n * half) / 2 ^ 256)

/-- sin (shift 0) or cos (shift 1) of an FP32 value in radians, correctly rounded. -/
def mufuTrig (shift : Int) (x : Nat) : Nat :=
  match decF fp32 x with
  | .fin _ m e =>
    if m = 0 ∨ e + bitLen m < -20 then (if shift = 0 then x else 0x3F800000)
    else
      let (n, r) := reduceAngle (val32 x)
      let v := match (n + shift) % 4 with
        | 0 => fixSin r
        | 1 => fixCos r
        | 2 => -(fixSin r)
        | _ => -(fixCos r)
      roundFix v 0
  | _ => fp32.nanBits

/-- 2^x, correctly rounded. -/
def mufuEx2 (x : Nat) : Nat :=
  match decF fp32 x with
  | .nan => fp32.nanBits
  | .inf s => if s then 0 else infBits fp32 false
  | v =>
    let d := v.dy
    if Dy.lt d ⟨-160, 0⟩ then 0
    else if Dy.lt ⟨128, 0⟩ d then infBits fp32 false
    else
      let n := d.floor
      let f := fixOfDy (d.sub (Dy.int n))
      roundFix (fixExp01 (fixMul f fixLn2)) n

/-- log2 x, correctly rounded. -/
def mufuLg2 (x : Nat) : Nat :=
  match decF fp32 x with
  | .nan => fp32.nanBits
  | .inf s => if s then fp32.nanBits else infBits fp32 false
  | .fin s m e =>
    if m = 0 then infBits fp32 true
    else if s then fp32.nanBits
    else
      let k : Int := (bitLen m : Int) - 1
      let mant := fixOfDy ⟨m, -k⟩
      if mant = fixOne then fOfInt 0 (e + k)
      else roundFix ((e + k) * fixOne + fixDiv (fixLn mant) fixLn2) 0

/-- tanh of an exact value beyond the reach of the linear term, with 256 fractional bits. -/
def fixTanh (d : Dy) : Int :=
  let y := fixOfDy ⟨2 * d.abs.n, d.e⟩
  let (m, k) := fixExp y
  let ey := m * (pow2 k : Int)
  let t := fixDiv (ey - fixOne) (ey + fixOne)
  if d.n < 0 then -t else t

/-- tanh x, correctly rounded. -/
def mufuTanh (x : Nat) : Nat :=
  match decF fp32 x with
  | .nan => fp32.nanBits
  | .inf s => if s then 0xBF800000 else 0x3F800000
  | .fin s m e =>
    if m = 0 ∨ e + bitLen m < -20 then x
    else if e + bitLen m > 6 then (if s then 0xBF800000 else 0x3F800000)
    else roundFix (fixTanh (val32 x)) 0

/-- ⌊√v⌋ by `fuel` Newton steps from above. -/
def sqrtSteps (v : Nat) : Nat → Nat → Nat
  | 0, g => g
  | fuel + 1, g => let h := (g + v / g) / 2; if h ≥ g then g else sqrtSteps v fuel h

/-- ⌊√v⌋. -/
def natSqrt (v : Nat) : Nat := if v = 0 then 0 else sqrtSteps v 40 (2 ^ ((bitLen v + 1) / 2))

/-- √(num / den) for positive num and den, rounded once: the root is taken with at least 60 bits and a sticky bit. -/
def roundSqrtRatio (num den : Nat) (e : Int) : Nat :=
  let e' := if e % 2 = 0 then e else e - 1
  let n' := if e % 2 = 0 then num else 2 * num
  let v := n' * 2 ^ 200 / den
  let s := natSqrt v
  let exact := decide (s * s = v) && decide (n' * 2 ^ 200 % den = 0)
  roundF fp32 0 false false (2 * s + boolNat (!exact)) 1 (e' / 2 - 101)

/-- √x, correctly rounded. -/
def mufuSqrt (x : Nat) : Nat :=
  match decF fp32 x with
  | .nan => fp32.nanBits
  | .inf s => if s then fp32.nanBits else infBits fp32 false
  | .fin s m e => if m = 0 then x else if s then fp32.nanBits else roundSqrtRatio m 1 e

/-- 1 / √x, correctly rounded. -/
def mufuRsq (x : Nat) : Nat :=
  match decF fp32 x with
  | .nan => fp32.nanBits
  | .inf s => if s then fp32.nanBits else 0
  | .fin s m e =>
    if m = 0 then infBits fp32 s else if s then fp32.nanBits else roundSqrtRatio (2 ^ 300) m (-e - 300)

/-- MUFU by its function number SUB[11:8] (Table 112). -/
def mufu (fn x : Nat) : Nat :=
  match fn with
  | 0 => fDiv fp32 0 0x3F800000 x
  | 1 => mufuRsq x
  | 2 => mufuSqrt x
  | 3 => mufuEx2 x
  | 4 => mufuLg2 x
  | 5 => mufuTrig 0 x
  | 6 => mufuTrig 1 x
  | _ => mufuTanh x

end Sys2Proof.Machine
end

