-- ==== Sys2Proof/Machine/Act.lean ====
section
/-! DEFINITION. The activation functions of the vector post-unit (Table 93, R353), each rounded once to FP32.
DEDUCED: the transcendental ones are computed with 256 fractional bits, as in `Fix.lean`; an inexact result that underflows
keeps the sign of its exact value. -/

namespace Sys2Proof.Machine

/-- 1 ÷ √(2π) with 256 fractional bits. -/
def fixInvSqrt2Pi : Int := (natSqrt (2 ^ 1023 / piFix.toNat) : Int)

/-- v · 2^k as a number with 256 fractional bits, for k ≤ 0. -/
def fixShift (v k : Int) : Int := if k < 0 then v / (pow2 (-k) : Int) else v * (pow2 k : Int)

/-- 1 ÷ (1 + e^−x) of a number with 256 fractional bits below 2^16 in magnitude, as (mantissa, power of 2). -/
def fixSigmoid (x : Int) : Int × Int :=
  let (m, k) := fixExp (-(x.natAbs : Int))
  let den := fixOne + fixShift m k
  if x ≥ 0 then (fixDiv fixOne den, 0) else (fixDiv m den, k)

/-- The dyadic number v · 2^(k − 256). -/
def dyFix (v k : Int) : Dy := ⟨v, k - 256⟩

/-- The sum of (z²)^j ÷ (2j + 1) from term `p` on. -/
def logTerms (z2 : Int) : Nat → Int → Int → Int
  | 0, _, _ => 0
  | fuel + 1, k, p => p / k + logTerms z2 fuel (k + 2) (fixMul p z2)

/-- ln (1 + m · 2^k) for 0 < m · 2^k ≤ 1, as (mantissa, power of 2). -/
def fixLog1p (m k : Int) : Int × Int :=
  let z := fixDiv m (2 * fixOne + fixShift m k)
  let z2 := fixShift (fixMul z z) (2 * k)
  (2 * fixMul z (logTerms z2 90 1 fixOne), k)

/-- The sum of t^(2n + 1) ÷ (2n + 1)!! from term `p` on. -/
def phiTerms (t2 : Int) : Nat → Int → Int → Int
  | 0, _, _ => 0
  | fuel + 1, k, p => p + phiTerms t2 fuel (k + 2) (fixMul p t2 / (k + 2))

/-- The standard normal distribution function of an exact value of magnitude up to 20, with 256 fractional bits. -/
def fixPhi (d : Dy) : Int :=
  let t := fixOfDy d.abs
  let t2 := fixMul t t
  let (m, k) := fixExp (-(t2 / 2))
  let half := fixShift (fixMul (fixMul m fixInvSqrt2Pi) (phiTerms t2 800 1 t)) k
  if d.n < 0 then fixOne / 2 - half else fixOne / 2 + half

/-- √(2 ÷ π) · 2 · (t + 0.044715 t³) with 256 fractional bits. -/
def fixGeluArg (d : Dy) : Int :=
  let c := d.mul (d.mul d)
  let s := fixOfDy d + fixOfDy ⟨c.n * 44715, c.e⟩ / 1000000
  4 * fixMul fixInvSqrt2Pi s

/-- Whether |d| is above an integer bound. -/
def Dy.beyond (d : Dy) (b : Int) : Bool := Dy.lt ⟨b, 0⟩ d.abs

/-- FP32 of an exact value, its exact zero being +0. -/
def roundPos (d : Dy) : Nat := roundDy fp32 0 false d

/-- The smooth functions of Table 93 at a finite, non-zero value. -/
def actSmooth (f : Nat) (x : Nat) : Nat :=
  let d := val32 x
  let neg := decide (d.n < 0)
  match f with
  | 4 => if d.beyond 200 then (if neg then 0 else 0x3F800000) else let (v, k) := fixSigmoid (fixOfDy d); roundPos (dyFix v k)
  | 5 => mufuTanh x
  | 6 => if d.beyond 200 then (if neg then zeroBits fp32 true else x) else
      let (v, k) := fixSigmoid (fixOfDy d)
      roundPos (d.mul (dyFix v k))
  | 7 => if d.beyond 20 then (if neg then zeroBits fp32 true else x) else roundPos (d.mul (dyFix (fixPhi d) 0))
  | 8 => if d.beyond 16 then (if neg then zeroBits fp32 true else x) else
      let (v, k) := fixSigmoid (fixGeluArg d)
      roundPos (d.mul (dyFix v k))
  | 9 => if d.beyond 200 then (if neg then 0 else x) else
      let (m, k) := fixExp (-((fixOfDy d).natAbs : Int))
      let (v, k) := fixLog1p m k
      roundPos (if neg then dyFix v k else d.add (dyFix v k))
  | 10 => if d.beyond 200 then (if neg then 0 else infBits fp32 false) else let (m, k) := fixExp (fixOfDy d); roundPos (dyFix m k)
  | _ => mufuTrig 0 x

/-- The activation function of code `f` (Table 93). -/
def actFn (f x : Nat) : Nat :=
  match decF fp32 x with
  | .nan => fp32.nanBits
  | .inf s =>
    match f with
    | 0 => x
    | 1 => if s then 0 else x
    | 2 => if s then 0 else 0x40C00000
    | 3 => x
    | 4 => if s then 0 else 0x3F800000
    | 5 => if s then 0xBF800000 else 0x3F800000
    | 11 => infBits fp32 false
    | 12 => infBits fp32 false
    | 13 => if s then 0 else 0x3F800000
    | 15 => fp32.nanBits
    | _ => if s then 0 else x
  | .fin s m e =>
    let d := val32 x
    match f with
    | 0 => x
    | 1 => if s then 0 else x
    | 2 => if s then 0 else if Dy.lt ⟨6, 0⟩ d then 0x40C00000 else x
    | 3 => if s then roundDy fp32 0 true ⟨d.n, e - 3⟩ else x
    | 11 => fAbs fp32 x
    | 12 => roundPos (d.mul d)
    | 13 =>
      if Dy.le d ⟨-3, 0⟩ then 0 else if Dy.le ⟨3, 0⟩ d then 0x3F800000 else roundQuot fp32 0 (d.add ⟨3, 0⟩) ⟨6, 0⟩
    | 14 =>
      if Dy.le d ⟨-3, 0⟩ || decide (m = 0) then 0 else if Dy.le ⟨3, 0⟩ d then x
      else roundQuot fp32 0 (d.mul (d.add ⟨3, 0⟩)) ⟨6, 0⟩
    | 15 => mufuTrig 0 x
    | _ =>
      if m = 0 then
        (match f with | 4 => 0x3F000000 | 9 => roundFix fixLn2 0 | 10 => 0x3F800000 | _ => 0)
      else actSmooth f x

end Sys2Proof.Machine
end

