-- ==== Sys2Proof/Machine/MxFormat.lean ====
section
/-! DEFINITION. Array formats, operand classes, tile extents and layer tables (Tables 84 to 91): what the loader checks and the
arrays use. -/

namespace Sys2Proof.Machine

/-- Element bits of an array format (Table 84). -/
def fmtBits (f : Nat) : Nat :=
  match f with
  | 1 => 4 | 8 => 4 | 6 => 6 | 7 => 6 | 10 => 16 | 11 => 16 | 12 => 32 | 13 => 32 | 14 => 64
  | _ => 8

/-- Whether a format has E8M0 block scales (Table 84). -/
def fmtMx (f : Nat) : Bool := 4 ≤ f && f ≤ 9

/-- Operand classes of Table 86; `c8` and `c4` are dense or sparse by the layer's flag. -/
inductive MxClass
  | c8 | c4 | c16
deriving DecidableEq, Repr

/-- The class of a pair of weight and activation formats, none outside Table 86. -/
def pairClass (w a : Nat) : Option MxClass :=
  if w = 0 ∧ a = 0 then some .c8
  else if w = 1 ∧ a = 1 then some .c4
  else if w = 8 ∧ a = 8 then some .c4
  else if 2 ≤ w ∧ w ≤ 9 ∧ 2 ≤ a ∧ a ≤ 9 then some .c8
  else if w = 10 ∧ a = 10 then some .c16
  else if w = 11 ∧ a = 11 then some .c16
  else none

/-- Whether the accumulator of a pair is INT32 (Table 86). -/
def intAcc (w : Nat) : Bool := w ≤ 1

/-- The K extent of a weight tile (Table 87). -/
def tileK (c : MxClass) (sparse : Bool) : Nat :=
  match c, sparse with
  | .c8, false => 256 | .c8, true => 512 | .c4, false => 512 | .c4, true => 1024 | .c16, _ => 256

/-- The N extent of a weight tile (Table 87). -/
def tileN (c : MxClass) : Nat := match c with | .c16 => 128 | _ => 256

/-- The attribute block size of a weight tile (Table 89). -/
def attrBlock (c : MxClass) (w : Nat) (sparse : Bool) : Nat :=
  match c, fmtMx w, sparse with
  | .c8, true, false => 2048 | .c4, true, false => 4096 | .c8, true, true => 6144 | .c4, true, true => 12288
  | .c8, false, true => 2048 | .c4, false, true => 4096 | _, _, _ => 0

/-- A quotient rounded up. -/
def ceilDiv (a b : Nat) : Nat := (a + b - 1) / b

/-- Bytes that `len` elements of a format take, scales included (R343). -/
def packedBytes (f len : Nat) : Nat := ceilDiv (fmtBits f * len) 8 + (if fmtMx f then ceilDiv len 32 else 0)

/-- The STRIDE of a layer output (R343). -/
def strideOf (f len : Nat) : Nat := 64 * ceilDiv (packedBytes f len) 64

/-- A layer entry (Table 91). -/
structure Layer where
  k : Nat
  n : Nat
  kTiles : Nat
  wFmt : Nat
  aFmt : Nat
  outFmt : Nat
  act : Nat
  sparse : Bool
  sat : Bool
  topk : Bool
  topkK : Nat
  tileFirst : Nat
  tileCount : Nat
  attrTiles : Nat
  paramAddr : Nat
deriving DecidableEq, Repr

/-- A layer table header (Table 90). -/
structure LayerHead where
  format : Nat
  layers : Nat
  vb : Nat
  region : Nat
  offset : Nat
  size : Nat
deriving DecidableEq, Repr

/-- The header of the layer table at `a`. -/
def readHead (m : List Host.Cell) (a : Nat) : LayerHead :=
  { format := leAt m a 2, layers := leAt m (a + 2) 2, vb := leAt m (a + 4) 2, region := leAt m (a + 6) 1,
    offset := leAt m (a + 8) 4, size := leAt m (a + 12) 4 }

/-- Layer entry `l` of the layer table at `a`. -/
def readLayer (m : List Host.Cell) (a l : Nat) : Layer :=
  let e := a + 64 + 64 * l
  let fl := leAt m (e + 12) 2
  { k := leAt m e 4, n := leAt m (e + 4) 2, kTiles := leAt m (e + 6) 2, wFmt := leAt m (e + 8) 1, aFmt := leAt m (e + 9) 1,
    outFmt := leAt m (e + 10) 1, act := leAt m (e + 11) 1 % 16, sparse := bit fl 0, sat := bit fl 1, topk := bit fl 2,
    topkK := leAt m (e + 14) 1, tileFirst := leAt m (e + 16) 4, tileCount := leAt m (e + 20) 4,
    attrTiles := leAt m (e + 24) 2, paramAddr := leAt m (e + 32) 8 }

/-- The output length of a layer (R343). -/
def Layer.outLen (l : Layer) : Nat := if l.outFmt = 14 then l.topkK else l.n

/-- The STRIDE of a layer's output. -/
def Layer.stride (l : Layer) : Nat := strideOf l.outFmt l.outLen

/-- Whether a layer entry follows R340 by itself: a pair of Table 86, extents and counts by their definitions, and formats that go
together. -/
def Layer.ok (l : Layer) (last : Bool) : Bool :=
  match pairClass l.wFmt l.aFmt with
  | none => false
  | some c =>
    let nTiles := ceilDiv l.n (tileN c)
    1 ≤ l.k && l.k ≤ 65536 && 1 ≤ l.n && l.n ≤ 16384 && l.outFmt ≤ 14 &&
    !(l.outFmt == 14 && !l.topk) && !(l.topk && (!last || l.outFmt != 14)) &&
    !(l.topk && !(1 ≤ l.topkK && l.topkK ≤ 64)) && !(l.sparse && c == .c16) && !(l.outFmt == 13 && !intAcc l.wFmt) &&
    l.kTiles == ceilDiv l.k (tileK c l.sparse) && l.tileCount == l.kTiles * nTiles &&
    l.attrTiles == ceilDiv (l.tileCount * attrBlock c l.wFmt l.sparse) 65536

/-- Whether the layer table at `a` with `count` layers follows R340, apart from its work area: header, every layer, and each
layer's input being the layer before's output. -/
def layersOk (m : List Host.Cell) (a count : Nat) : Bool :=
  let h := readHead m a
  h.format == 1 && 1 ≤ h.layers && h.layers ≤ 256 && h.layers == count && 1 ≤ h.vb && h.vb ≤ 2048 &&
  (List.range count).all (fun i =>
    let l := readLayer m a i
    l.ok (i + 1 == count) &&
    (i == 0 || (let p := readLayer m a (i - 1); l.aFmt == p.outFmt && l.k == p.n)))

/-- The tiles a layer counts for in the Weight Store (R336). -/
def Layer.tiles (l : Layer) : Nat := l.tileCount + l.attrTiles

end Sys2Proof.Machine
end

