-- ==== Sys2Proof/Machine/Mx.lean ====
section
/-! DEFINITION. The arithmetic of the arrays: elements and block scales, quadrant tiles, column reduction and accumulation, and the
post-unit's functions and conversions ("Matrix Arrays and Numerics"). -/

namespace Sys2Proof.Machine

/-! ### Elements (R318–R320) -/

/-- The value of an element of an array format by its code (Table 85). -/
def elemVal (fmt x : Nat) : Fv :=
  match fmt with
  | 0 => let v := signed 8 x; .fin (decide (v < 0)) v.natAbs 0
  | 1 => let v := signed 4 x; .fin (decide (v < 0)) v.natAbs 0
  | 2 => decF e4m3 x
  | 3 => decF e5m2 x
  | 4 => decF e4m3 x
  | 5 => decF e5m2 x
  | 6 => decF e2m3 x
  | 7 => decF e3m2 x
  | 8 => decF e2m1 x
  | 9 => let v := signed 8 x; .fin (decide (v < 0)) v.natAbs (-6)
  | 10 => decF fp16 x
  | 11 => decF bf16 x
  | _ => decF fp32 x

/-- A value under an E8M0 block scale (R320). -/
def scaled (v : Fv) (sc : Nat) : Fv :=
  if sc = 0xFF then .nan
  else match v with
    | .fin s m e => .fin s m (e + (sc : Int) - 127)
    | w => w

/-- The `len` elements of a vector slot with their scales (R319, R343). -/
def slotElems (fmt len : Nat) (slot : List Byte) : List Fv :=
  let w := fmtBits fmt
  let v := leVal slot
  let sb := ceilDiv (w * len) 8
  (List.range len).map (fun j =>
    let x := elemVal fmt (bits v (w * j) w)
    if fmtMx fmt then scaled x (bits v (8 * (sb + j / 32)) 8) else x)

/-! ### Quadrant tiles (Tables 87 to 89) -/

/-- The logical rows of a K-slice. -/
def sliceLen (c : MxClass) (sparse : Bool) : Nat := tileK c sparse / 2

/-- The quadrant tiles of a weight tile and the bytes of each. -/
def quadTiles (c : MxClass) : Nat := match c with | .c16 => 2 | _ => 4
def quadBytes (c : MxClass) : Nat := 65536 / quadTiles c

/-- K-slices of a layer, and N-blocks that its weight tiles hold. -/
def Layer.slices (l : Layer) : Nat := 2 * l.kTiles
def Layer.blocks (l : Layer) (c : MxClass) : Nat := ceilDiv l.n (tileN c) * (match c with | .c16 => 1 | _ => 2)

/-- N-blocks with a column below N. -/
def Layer.liveBlocks (l : Layer) : Nat := ceilDiv l.n 128

/-- Where a quadrant tile stands: the index of its weight tile and its place u in it (Table 87). -/
def tileOf (l : Layer) (c : MxClass) (kslice nblk : Nat) : Nat × Nat :=
  match c with
  | .c16 => (nblk * l.kTiles + kslice / 2, kslice % 2)
  | _ => ((nblk / 2) * l.kTiles + kslice / 2, kslice % 2 + 2 * (nblk % 2))

/-- Rows of a quadrant tile, each as one number. -/
def rowVals (n : Nat) : Nat → List Byte → List Nat
  | 0, _ => []
  | k + 1, b => leVal (b.take n) :: rowVals n k (b.drop n)

/-- The bytes of the scale part of a quadrant tile's attributes (Table 89). -/
def scaleBytes (l : Layer) (c : MxClass) : Nat := if fmtMx l.wFmt then 128 * (sliceLen c l.sparse / 32) else 0

/-- The weights of column `col` over the rows of a K-slice, none for a row that is not kept (R329–R335). -/
def columnWeights (l : Layer) (c : MxClass) (rows : List Nat) (attr : Nat) (col : Nat) : List (Option Fv) :=
  let len := sliceLen c l.sparse
  let w := fmtBits l.wFmt
  let sp := scaleBytes l c
  let row := fun r => (rows[r]?).getD 0
  (List.range len).map (fun k =>
    let g := k / 8
    let mask := if l.sparse then bits attr (8 * (sp + (col / 8) * (len / 8) + g)) 8 else 255
    let raw := if l.sparse then
        let t := popCount 8 (mask % 2 ^ (k % 8))
        match c with
        | .c4 => bits (row (2 * g + t / 2)) (8 * col + 4 * (t % 2)) 4
        | _ => bits (row (4 * g + t)) (w * col) w
      else match c with
        | .c4 => bits (row (k / 2)) (8 * col + 4 * (k % 2)) 4
        | _ => bits (row k) (w * col) w
    if !bit mask (k % 8) then none
    else
      let v := elemVal l.wFmt raw
      some (if fmtMx l.wFmt then scaled v (bits attr (8 * (col * (len / 32) + k / 32)) 8) else v))

/-- Whether every mask byte of a sparse quadrant tile keeps 4 rows (R332). -/
def masksOk (l : Layer) (c : MxClass) (attr : List Byte) : Bool :=
  !l.sparse || ((attr.drop (scaleBytes l c)).all (fun b => popCount 8 b.toNat == 4))

/-! ### Column reduction (R322–R326) -/

/-- A sum of products: what special products it has met, and the exact sum of the others. -/
structure ESum where
  nan : Bool
  pos : Bool
  neg : Bool
  sum : Dy
deriving DecidableEq, Repr

/-- The empty sum. -/
def ESum.zero : ESum := ⟨false, false, false, ⟨0, 0⟩⟩

/-- A term added to a sum. -/
def ESum.add (x : ESum) (v : Fv) : ESum :=
  match v with
  | .nan => { x with nan := true }
  | .inf s => if s then { x with neg := true } else { x with pos := true }
  | .fin s m e => if m = 0 then x else { x with sum := x.sum.add (Fv.fin s m e).dy }

/-- The exact product of two values; 0 × ∞ is NaN. -/
def Fv.mul (a b : Fv) : Fv :=
  match a, b with
  | .nan, _ => .nan
  | _, .nan => .nan
  | .inf s, .inf t => .inf (s != t)
  | .inf s, .fin t n _ => if n = 0 then .nan else .inf (s != t)
  | .fin s m _, .inf t => if m = 0 then .nan else .inf (s != t)
  | .fin s m e, .fin t n g => .fin (s != t) (m * n) (e + g)

/-- The value of a sum by R326. -/
def ESum.val (x : ESum) : Fv :=
  if x.nan || (x.pos && x.neg) then .nan
  else if x.pos then .inf false
  else if x.neg then .inf true
  else .fin (decide (x.sum.n < 0)) x.sum.n.natAbs x.sum.e

/-- The exact sum of the products of kept rows. -/
def dotE (w : List (Option Fv)) (a : List Fv) : ESum :=
  (w.zip a).foldl (fun s x => match x.1 with | some v => s.add (v.mul x.2) | none => s) ESum.zero

/-- Lists cut into pieces of `n`. -/
def chunks {α : Type} (n : Nat) : Nat → List α → List (List α)
  | 0, _ => []
  | k + 1, l => l.take n :: chunks n k (l.drop n)

/-- The slice sum e of a column: exact, or in the 16-bit class the exact sum of 8 group sums each rounded once (R322, R323). -/
def sliceSum (c : MxClass) (w : List (Option Fv)) (a : List Fv) : Fv :=
  match c with
  | .c16 =>
    (((chunks 16 8 w).zip (chunks 16 8 a)).foldl (fun s g => s.add (decF fp32 (convF fp32 0 false (dotE g.1 g.2).val)))
      ESum.zero).val
  | _ => (dotE w a).val

/-- An FP32 accumulator word with a slice sum added (R324, R326). -/
def accFp (acc : Nat) (e : Fv) : Nat :=
  match decF fp32 acc, e with
  | .nan, _ => fp32.nanBits
  | _, .nan => fp32.nanBits
  | .inf s, .inf t => if s = t then acc else fp32.nanBits
  | .inf _, _ => acc
  | _, .inf t => infBits fp32 t
  | a, v => roundDy fp32 0 false (a.dy.add v.dy)

/-- An INT32 accumulator word with a slice sum added, and whether it saturated (R325). -/
def accInt (acc : Nat) (e : Fv) : Nat × Bool :=
  let v := signed 32 acc + Dy.floor e.dy
  let r := satSigned 32 v
  (wrap 32 r, decide (r ≠ v))

/-- A quadrant tile applied to one vector: the new accumulator word of each column, and how many saturated.  `old` reads a column's
word; `a` holds the vector's elements of the K-slice. -/
def applyTile (l : Layer) (c : MxClass) (cols : List (List (Option Fv))) (a : List Fv) (old : List Nat) : List Nat × Nat :=
  (cols.zip old).foldl (fun r x =>
    let e := sliceSum c x.1 a
    if intAcc l.wFmt then
      let (v, sat) := accInt x.2 e
      (r.1 ++ [v], r.2 + boolNat sat)
    else (r.1 ++ [accFp x.2 e], r.2)) ([], 0)

/-- The elements of K-slice `kslice` of a vector, padded with zeros from K upward (R329). -/
def sliceElems (l : Layer) (c : MxClass) (elems : List Fv) (kslice : Nat) : List Fv :=
  let len := sliceLen c l.sparse
  let x := (elems.drop (kslice * len)).take len
  x ++ List.replicate (len - x.length) (.fin false 0 0)

/-! ### Post-unit (R352–R356) -/

/-- z of an accumulator word of a column: the word itself for INT32 output, else ACT of the word scaled and biased (R352). -/
def postZ (l : Layer) (acc scale bias : Nat) : Nat :=
  if l.outFmt = 13 then acc
  else
    let v := if intAcc l.wFmt then (let i := signed 32 acc; Fv.fin (decide (i < 0)) i.natAbs 0) else decF fp32 acc
    actFn l.act (fmaV fp32 0 v (decF fp32 scale) (decF fp32 bias))

/-- The float format of an output code, for the codes that have one. -/
def outFmtOf (f : Nat) : Option FFmt :=
  match f with
  | 2 => some e4m3 | 3 => some e5m2 | 4 => some e4m3 | 5 => some e5m2 | 6 => some e2m3 | 7 => some e3m2 | 8 => some e2m1
  | 10 => some fp16 | 11 => some bf16 | 12 => some fp32 | _ => none

/-- A value rounded to an integer of `w` bits, half to even, with saturation: the pattern and whether it saturated. -/
def convInt (w : Nat) (v : Fv) : Nat × Bool :=
  match v with
  | .nan => (0, false)
  | .inf s => (wrap w (if s then -(2 ^ (w - 1) : Int) else 2 ^ (w - 1) - 1), true)
  | v =>
    let i := Dy.round 0 v.dy
    let r := satSigned w i
    (wrap w r, decide (r ≠ i))

/-- One element converted to an output format (Table 94): the code and whether it saturated.  `v` is z, or z · 2^−X in a block. -/
def convElem (f : Nat) (sat : Bool) (v : Fv) : Nat × Bool :=
  match f with
  | 0 => convInt 8 v
  | 1 => convInt 4 v
  | 9 => convInt 8 (match v with | .fin s m e => .fin s m (e + 6) | w => w)
  | _ =>
    match outFmtOf f with
    | none => (0, false)
    | some g =>
      let keeps := f == 10 || f == 11 || f == 12 || (f == 3 && !sat)
      (convF g 0 (!keeps) v, !keeps && overF g v)

/-- EMAX of an MX format (Table 94). -/
def emaxOf (f : Nat) : Int := match f with | 4 => 8 | 5 => 15 | 6 => 2 | 7 => 4 | 8 => 2 | _ => 0

/-- ⌊log2⌋ of a positive exact value. -/
def Dy.log2 (d : Dy) : Int := (bitLen d.n.natAbs : Int) - 1 + d.e

/-- An MX block of z patterns: scale byte, codes, saturations and NaN elements (R354, R355). -/
def convBlock (f : Nat) (z : List Nat) : Nat × List Nat × Nat × Nat :=
  if !z.all (isFin fp32) then (0xFF, z.map (fun _ => 0), 0, z.length)
  else
    let amax := z.foldl (fun (m : Dy) x => let a := (val32 x).abs; if m.lt a then a else m) ⟨0, 0⟩
    let x : Int := if amax.n = 0 then -127 else max (-127) (min 127 (amax.log2 - emaxOf f))
    let cs := z.map (fun v => convElem f true (match decF fp32 v with | .fin s m e => .fin s m (e - x) | w => w))
    ((x + 127).toNat, cs.map (fun c => c.1), (cs.filter (fun c => c.2)).length, 0)

/-- The output of some columns of one vector: scales, codes, saturations and NaN values.  The columns start at a multiple of 32. -/
def convColumns (l : Layer) (z : List Nat) : List Nat × List Nat × Nat × Nat :=
  if fmtMx l.outFmt then
    (chunks 32 (ceilDiv z.length 32) z).foldl (fun r b =>
      let (sc, cs, sat, nan) := convBlock l.outFmt b
      (r.1 ++ [sc], r.2.1 ++ cs, r.2.2.1 + sat, r.2.2.2 + nan)) ([], [], 0, 0)
  else if l.outFmt = 13 ∨ l.outFmt = 14 then ([], z, 0, 0)
  else
    let cs := z.map (fun v => convElem l.outFmt l.sat (decF fp32 v))
    ([], cs.map (fun c => c.1), (cs.filter (fun c => c.2)).length, (z.filter (isNan fp32)).length)

/-- Codes of `w` bits packed as a bit stream (R319). -/
def packBits (w : Nat) (l : List Nat) : Nat := l.foldr (fun x acc => x % 2 ^ w + 2 ^ w * acc) 0

/-- Whether entry (score, index) ranks before another (R304). -/
def rankBefore (a b : Nat × Nat) : Bool :=
  let na := isNan fp32 a.1
  let nb := isNan fp32 b.1
  if na != nb then !na
  else if !na && !eqF fp32 a.1 b.1 then ltF fp32 b.1 a.1
  else a.2 < b.2

/-- The `k` best of a list of (score, index), best first. -/
def topK (k : Nat) (l : List (Nat × Nat)) : List (Nat × Nat) :=
  l.foldl (fun acc e =>
    let before := acc.takeWhile (fun x => !rankBefore e x)
    (before ++ e :: acc.drop before.length).take k) []

/-- The slot of one vector's layer output (R343, R356), and the NaN values a TOPK list writes. -/
def outSlot (l : Layer) (z : List Nat) : List Byte × Nat :=
  if l.outFmt = 14 then
    let best := topK l.topkK ((List.range z.length).map (fun c => ((z[c]?).getD 0, c)))
    let b := best.flatMap (fun e => leBytes 4 e.2 ++ leBytes 4 e.1)
    (b ++ List.replicate (l.stride - b.length) (0 : Byte), (best.filter (fun e => isNan fp32 e.1)).length)
  else
    let (sc, cs, _, _) := convColumns l z
    let w := fmtBits l.outFmt
    let b := leBytes (ceilDiv (w * cs.length) 8) (packBits w cs) ++ sc.flatMap (leBytes 1)
    (b ++ List.replicate (l.stride - b.length) (0 : Byte), 0)

/-- The header of an activation tile (Table 92). -/
def tileHead (first count fmt len stride failed : Nat) : List Byte :=
  leBytes 4 first ++ leBytes 2 count ++ leBytes 1 fmt ++ leBytes 1 0 ++ leBytes 4 len ++ leBytes 4 stride ++
  List.replicate 16 0 ++ leBytes 32 failed

end Sys2Proof.Machine
end

