-- ==== Sys2Proof/Machine/Geom.lean ====
section
/-! DEFINITION. The arithmetic of traversal: box tests, triangle tests, hit order, instance transforms and neural fields, with
their roundings ("Ray Traversal and Intersection", "Acceleration Structure Formats").
DESIGN CHOICE where a value is open: a frame that an instance matrix made infinite or NaN gives free results. -/

namespace Sys2Proof.Machine

/-- `n` bytes at `o` as a little-endian value. -/
def le (b : List Byte) (o n : Nat) : Nat := leVal ((b.drop o).take n)

/-- Whether every FP32 pattern of a list is finite. -/
def allFin (l : List Nat) : Bool := l.all (isFin fp32)

/-- Element `i` of a list of patterns. -/
def nth (l : List Nat) (i : Nat) : Nat := (l[i]?).getD 0

/-! ### Boxes (R149, R198–R200) -/

/-- A bound: O + q · 2^(E − 127), exact (R149). -/
def boundOf (fmt : FFmt) (o q e : Nat) : Fv :=
  let d := (valF fmt o).add ⟨q, (e : Int) - 127⟩
  .fin (decide (d.n < 0)) d.n.natAbs d.e

/-- (bound − o) ÷ d, rounded once in a direction; `d` is not zero. -/
def boundQuot (rm : Nat) (b : Fv) (o d : Nat) : Nat :=
  match b with
  | .inf s => infBits fp32 (s != bit d 31)
  | .nan => fp32.nanBits
  | v => roundQuot fp32 rm (v.dy.sub (val32 o)) (val32 d)

/-- a ≤ b, exact, for values that may be infinite; a NaN is in no order. -/
def fvLe (a b : Fv) : Bool :=
  match a, b with
  | .nan, _ => false
  | _, .nan => false
  | .inf s, .inf t => s || !t
  | .inf s, _ => s
  | _, .inf t => !t
  | v, w => Dy.le v.dy w.dy

/-- lo ≤ o ≤ hi, exact (R199). -/
def boundIn (lo hi : Fv) (o : Nat) : Bool := fvLe lo (decF fp32 o) && fvLe (decF fp32 o) hi

/-- The greater of two FP32 values, the first on a tie. -/
def maxOf (a b : Nat) : Nat := if ltF fp32 a b then b else a
/-- The lesser of two FP32 values, the first on a tie. -/
def minOf (a b : Nat) : Nat := if ltF fp32 b a then b else a

/-- A bound as operands of an open value. -/
def fvKey (b : Fv) : List Nat := match b with | .nan => [2] | .inf s => [3, boolNat s] | .fin s m e => [boolNat s, m, wrap 32 e]

/-- The limits [te, tx] narrowed by axis `a` of a box, whose values are finite or, for a bound, infinite; none where the axis misses the box
(R198, R199). -/
def boxAxis (f : Frame) (lo hi : List Fv) (r : Nat × Nat) (a : Nat) : Option (Nat × Nat) :=
  let o := nth f.o a
  let d := nth f.d a
  let l := (lo[a]?).getD .nan
  let h := (hi[a]?).getD .nan
  if d % 2 ^ 31 = 0 then (if boundIn l h o then some r else none)
  else
    let (l, h) := if bit d 31 then (h, l) else (l, h)
    some (maxOf r.1 (boundQuot 3 l o d), minOf r.2 (boundQuot 2 h o d))

/-- Whether the rules fix what an axis of a box does: its direction is zero, or its values are numbers. -/
def axisFixed (f : Frame) (lo hi : List Fv) (a : Nat) : Bool :=
  nth f.d a % 2 ^ 31 == 0 || (allFin [nth f.o a, nth f.d a] && (lo[a]?).getD .nan != .nan && (hi[a]?).getD .nan != .nan)

/-- The box test: entry and exit distance when the box is hit (R198, R199).  A box that the axes which the rules fix miss is missed; where
they do not, and another axis has a NaN or an infinite origin or direction, the result is open. -/
def boxTest (f : Frame) (tmin best : Nat) (lo hi : List Fv) : Option (Nat × Nat) :=
  let axes := (List.range 3).filter (axisFixed f lo hi)
  let r := axes.foldl (fun acc a => acc.bind (fun r => boxAxis f lo hi r a)) (some (tmin, best))
  match r.bind (fun r => if leF fp32 r.1 r.2 then some r else none) with
  | none => none
  | some r =>
    if axes.length = 3 then some r
    else
      let v := Config.openVal 1 (f.o ++ f.d ++ [tmin, best] ++ (lo ++ hi).flatMap fvKey)
      if v % 2 = 0 then none else some (v / 2 % 2 ^ 32, v / 2 ^ 33 % 2 ^ 32)

/-- FP32 patterns as bounds (R200). -/
def fpBounds (l : List Nat) : List Fv := l.map (decF fp32)

/-! ### Triangles (R201–R203) -/

/-- A candidate of a triangle: t, u, v and whether the triangle is front-facing in object space. -/
structure TriHit where
  t : Nat
  u : Nat
  v : Nat
  front : Bool
deriving DecidableEq, Repr

/-- The axis of largest |d|, the lowest on equal values (R201, step 1): patterns without their sign rise as the magnitudes do, infinity
above every number.  With a NaN among the components any choice gives a NaN in step 3, and no hit. -/
def majorAxis (d : List Nat) : Nat :=
  let a := fun i => nth d i % 2 ^ 31
  if a 0 < a 1 then (if a 1 < a 2 then 2 else 1) else if a 0 < a 2 then 2 else 0

/-- Whether edge P → Q passes with a zero edge value (R202). -/
def tieRule (neg : Bool) (p q : List Dy) : Bool :=
  let sgn := fun (d : Dy) => if neg then d.neg else d
  let c := fun (l : List Dy) (i : Nat) => (l[i]?).getD (Dy.mk 0 0)
  let ex := sgn ((c q 0).sub (c p 0))
  let ey := sgn ((c q 1).sub (c p 1))
  decide (ey.n > 0) || (decide (ey.n = 0) && decide (ex.n > 0))

/-- The triangle test (R201).  Every value of steps 1 to 3 is formed for infinite and NaN directions too, which fail the check before step
4 or pass it as the rule says. -/
def triTest (f : Frame) (va vb vc : List Nat) : Option TriHit :=
  let kz := majorAxis f.d
  let kx0 := (kz + 1) % 3
  let ky0 := (kx0 + 1) % 3
  let dz := nth f.d kz
  let swap := bit dz 31 && dz % 2 ^ 31 != 0
  let kx := if swap then ky0 else kx0
  let ky := if swap then kx0 else ky0
  let sx := fDiv fp32 0 (nth f.d kx) dz
  let sy := fDiv fp32 0 (nth f.d ky) dz
  let sz := fDiv fp32 0 0x3F800000 dz
  let proj := fun (p : List Nat) =>
    let q := (List.range 3).map (fun i => fAdd fp32 0 (nth p i) (fNeg fp32 (nth f.o i)))
    let z := nth q kz
    (q, [fFma fp32 0 (fNeg fp32 sx) z (nth q kx), fFma fp32 0 (fNeg fp32 sy) z (nth q ky), fMul fp32 0 sz z])
  let (qa, pa) := proj va
  let (qb, pb) := proj vb
  let (qc, pc) := proj vc
  if !allFin (va ++ vb ++ vc ++ qa ++ pa ++ qb ++ pb ++ qc ++ pc) then none
  else
    let a := pa.map val32
    let b := pb.map val32
    let c := pc.map val32
    let g := fun (l : List Dy) (i : Nat) => (l[i]?).getD (Dy.mk 0 0)
    let cross := fun (p q : List Dy) => ((g p 0).mul (g q 1)).sub ((g p 1).mul (g q 0))
    let u := cross c b
    let v := cross a c
    let w := cross b a
    let det := (u.add v).add w
    if det.n = 0 then none
    else
      let neg := decide (det.n < 0)
      let sg := fun (d : Dy) => if neg then d.neg else d
      let pass := fun (e : Dy) (p q : List Dy) => decide ((sg e).n > 0) || (decide (e.n = 0) && tieRule neg p q)
      if pass u b c && pass v c a && pass w a b then
        let num := ((u.mul (g a 2)).add (v.mul (g b 2))).add (w.mul (g c 2))
        some ⟨roundQuot fp32 0 (sg num) det.abs, roundQuot fp32 0 (sg v) det.abs, roundQuot fp32 0 (sg w) det.abs, !neg⟩
      else none

/-! ### Triangle blocks (R157–R159) -/

/-- The decoded vertex `j` of a block (R158, R159). -/
def blockVertex (b : List Byte) (raw : Bool) (j : Nat) : List Nat :=
  (List.range 3).map (fun a =>
    if raw then le b (0x50 + 12 * j + 4 * a) 4
    else
      let base := le b (4 * a) 4
      if isFin fp32 base then
        let d := (val32 base).add ⟨le b (0x40 + 6 * j + 2 * a) 2, (le b (0x0C + a) 1 : Int) - 127⟩
        roundDy fp32 0 (bit base 31) d
      else base)

/-- Index `k` of triangle `i` of a block (Table 52). -/
def blockIndex (b : List Byte) (raw : Bool) (i k : Nat) : Nat :=
  let w := if raw then 6 else 5
  bits (le b 0x20 0x24) (3 * w * i + w * k) w

/-- Whether a block follows Table 51 and its indices are below VTX_COUNT (R177). -/
def blockOk (b : List Byte) (raw : Bool) : Bool :=
  let tc := le b 0x10 1
  let vc := le b 0x11 1
  bit (le b 0x0F 1) 0 == raw && 1 ≤ tc && tc ≤ 16 && 1 ≤ vc && vc ≤ (if raw then 36 else 32) &&
  (List.range tc).all (fun i => (List.range 3).all (fun k => blockIndex b raw i k < vc))

/-! ### Hit order (R205) -/

/-- Whether candidate `c` is accepted against the best hit held. -/
def hitBetter (tmin tmax best : Nat) (held : Option Hit) (c : Hit) : Bool :=
  let key := fun (h : Hit) => ((h.inst * 2 ^ 24 + h.geom) * 2 ^ 32 + h.prim) * 256 + h.kind
  leF fp32 tmin c.t && leF fp32 c.t tmax &&
  (ltF fp32 c.t best || (eqF fp32 c.t best && (match held with | none => true | some h => key c < key h)))

/-- A hit record (Table 64). -/
def hitBytes (h : Hit) (status rayId : Nat) : List Byte :=
  leBytes 4 h.t ++ leBytes 4 h.u ++ leBytes 4 h.v ++ leBytes 4 h.prim ++ leBytes 3 h.geom ++ leBytes 1 h.kind ++
  leBytes 3 h.inst ++ leBytes 1 status ++ leBytes 4 rayId ++ leBytes 4 0

/-! ### Instances (R210) -/

/-- The exact sum of products rounded once; open when an operand is infinite or NaN. -/
def dotRound (a b : List Nat) (c : Option Nat) : Nat :=
  if allFin (a ++ b ++ c.toList) then
    let s := (a.zip b).foldl (fun (s : Dy) e => s.add ((val32 e.1).mul (val32 e.2))) (match c with | some x => val32 x | none => ⟨0, 0⟩)
    roundDy fp32 0 false s
  else Config.openVal 3 (a ++ b ++ c.toList) % 2 ^ 32

/-- The frame below an instance record (R210–R212). -/
def Frame.enter (f : Frame) (b : List Byte) : Frame :=
  let m := fun i j => le b (16 * i + 4 * j) 4
  let fl := le b 0x38 2
  { o := (List.range 3).map (fun i => dotRound [m i 0, m i 1, m i 2] f.o (some (m i 3))),
    d := (List.range 3).map (fun i => dotRound [m i 0, m i 1, m i 2] f.d none),
    flip := f.flip != bit fl 3, noCull := f.noCull || bit fl 2,
    force := if bit fl 0 then some true else if bit fl 1 then some false else f.force, inst := le b 0x34 3 }

/-! ### Neural leaves (R164–R168, R222–R226) -/

/-- SAMPLES of a descriptor as a number. -/
def sampleCount (b : List Byte) : Nat := 8 * 2 ^ (le b 0 1)

/-- The layers' input and output widths. -/
def neuralDims (b : List Byte) : List (Nat × Nat) :=
  let w := fun i => le b (4 + i) 1
  (List.range (le b 3 1)).map (fun l => (if l = 0 then (if le b 2 1 = 0 then 3 else 2) else w (l - 1), w l))

/-- Whether a neural leaf descriptor is in range and its SAMPLES permitted (R164, R177). -/
def neuralOk (b : List Byte) (samples : Nat) : Bool :=
  let w := fun i => le b (4 + i) 1
  let n := le b 3 1
  le b 0 1 ≤ 2 && bit samples (le b 0 1) && 1 ≤ le b 1 1 && le b 1 1 ≤ 24 && le b 2 1 ≤ 1 && 1 ≤ n && n ≤ 4 &&
  (List.range n).all (fun i => 1 ≤ w i && w i ≤ 64) && w (n - 1) == 1 &&
  (List.range 3).all (fun a => ltF fp32 (le b (0x18 + 4 * a) 4) (le b (0x24 + 4 * a) 4))

/-- The bytes of a weight block segment (Table 55). -/
def segmentBytes (d : Nat × Nat) : Nat := 64 + 64 * ((4 * d.2 + 63) / 64) + 64 * ((d.1 * d.2 + 63) / 64)

/-- The bytes of a weight block. -/
def weightBytes (b : List Byte) : Nat := (neuralDims b).foldl (fun n d => n + segmentBytes d) 0

/-- An input value as FP8 E4M3: x · IN_SCALE rounded once, saturating (R167). -/
def toE4m3 (x scale : Nat) : Nat :=
  match decF fp32 x, decF fp32 scale with
  | .fin s m e, .fin t n g => roundF e4m3 0 true (s != t) (m * n) 1 (e + g)
  | _, _ => convF e4m3 0 true (decF fp32 (fMul fp32 0 x scale))

/-- One layer of the field's network (R167). -/
def neuralLayer (w : List Byte) (off : Nat) (d : Nat × Nat) (act : Nat) (x : List Nat) : List Nat :=
  let q := x.map (fun v => toE4m3 v (le w off 4))
  let bias := off + 64
  let wt := bias + 64 * ((4 * d.2 + 63) / 64)
  (List.range d.2).map (fun j =>
    let row := (List.range d.1).map (fun i => le w (wt + j * d.1 + i) 1)
    let dot := if (q ++ row).any (isNan e4m3) then fp32.nanBits
      else roundDy fp32 0 false ((q.zip row).foldl (fun (s : Dy) e => s.add ((valF e4m3 e.1).mul (valF e4m3 e.2))) ⟨0, 0⟩)
    actFn act (fFma fp32 0 dot (le w (off + 4) 4) (le w (bias + 4 * j) 4)))

/-- The network from layer `l` on. -/
def neuralLayers (b w : List Byte) : List (Nat × Nat) → Nat → List Nat → List Nat
  | [], _, x => x
  | d :: rest, off, x =>
    let act := if rest.isEmpty then le b 8 1 / 16 else le b 8 1 % 16
    neuralLayers b w rest (off + segmentBytes d) (neuralLayer w off d act x)

/-- The local coordinate of a sample on one axis (R165, R223): exact, rounded once. -/
def localCoord (x lo hi : Nat) : Nat :=
  if allFin [x, lo, hi] then
    let num := (((val32 x).sub (val32 lo)).mul ⟨2, 0⟩).sub ((val32 hi).sub (val32 lo))
    roundQuot fp32 0 num ((val32 hi).sub (val32 lo))
  else Config.openVal 4 [x, lo, hi] % 2 ^ 32

/-- The field g at parameter t of a ray in its current frame (R165, R222). -/
def neuralField (f : Frame) (b w : List Byte) (t : Nat) : Nat :=
  let p := (List.range 3).map (fun a =>
    localCoord (fFma fp32 0 t (nth f.d a) (nth f.o a)) (le b (0x18 + 4 * a) 4) (le b (0x24 + 4 * a) 4))
  if le b 2 1 = 0 then nth (neuralLayers b w (neuralDims b) 0 p) 0
  else fAdd fp32 0 (nth p 2) (fNeg fp32 (nth (neuralLayers b w (neuralDims b) 0 (p.take 2)) 0))

/-- g > 0; a NaN is not. -/
def above0 (g : Nat) : Bool := ltF fp32 0 g

/-- The step h of a segment with `n` samples (R222). -/
def sampleStep (t0 t1 n : Nat) : Nat :=
  if allFin [t0, t1] then roundQuot fp32 0 ((val32 t1).sub (val32 t0)) ⟨(n : Int) - 1, 0⟩
  else Config.openVal 5 [t0, t1, n] % 2 ^ 32

/-- Sample parameter t_k (R222). -/
def sampleAt (t0 t1 h n k : Nat) : Nat := if k + 1 = n then t1 else fFma fp32 0 (fOfInt 0 k) h t0

/-- The midpoint of a bracket, rounded once (R226). -/
def midOf (lo hi : Nat) : Nat :=
  if allFin [lo, hi] then (let s := (val32 lo).add (val32 hi); roundDy fp32 0 false ⟨s.n, s.e - 1⟩)
  else Config.openVal 6 [lo, hi] % 2 ^ 32

end Sys2Proof.Machine
end

