-- ==== Sys2Proof/Machine/Ed25519.lean ====
section
/-! DEFINITION. Ed25519 signatures without prehash, as RFC 8032 defines them, to which R50 refers for images, and which firmware images
and monitor sessions use too: SHA-512, the group of the curve over the field of 2^255 - 19 elements, and the check of a signature. -/

namespace Sys2Proof.Machine

/-! ### SHA-512 -/

/-- The round constants of SHA-512: the fractional parts of the cube roots of the first 80 primes. -/
def shaRounds : List (BitVec 64) :=
  [0x428a2f98d728ae22, 0x7137449123ef65cd, 0xb5c0fbcfec4d3b2f, 0xe9b5dba58189dbbc, 0x3956c25bf348b538,
   0x59f111f1b605d019, 0x923f82a4af194f9b, 0xab1c5ed5da6d8118, 0xd807aa98a3030242, 0x12835b0145706fbe,
   0x243185be4ee4b28c, 0x550c7dc3d5ffb4e2, 0x72be5d74f27b896f, 0x80deb1fe3b1696b1, 0x9bdc06a725c71235,
   0xc19bf174cf692694, 0xe49b69c19ef14ad2, 0xefbe4786384f25e3, 0x0fc19dc68b8cd5b5, 0x240ca1cc77ac9c65] ++
  [0x2de92c6f592b0275, 0x4a7484aa6ea6e483, 0x5cb0a9dcbd41fbd4, 0x76f988da831153b5, 0x983e5152ee66dfab,
   0xa831c66d2db43210, 0xb00327c898fb213f, 0xbf597fc7beef0ee4, 0xc6e00bf33da88fc2, 0xd5a79147930aa725,
   0x06ca6351e003826f, 0x142929670a0e6e70, 0x27b70a8546d22ffc, 0x2e1b21385c26c926, 0x4d2c6dfc5ac42aed,
   0x53380d139d95b3df, 0x650a73548baf63de, 0x766a0abb3c77b2a8, 0x81c2c92e47edaee6, 0x92722c851482353b] ++
  [0xa2bfe8a14cf10364, 0xa81a664bbc423001, 0xc24b8b70d0f89791, 0xc76c51a30654be30, 0xd192e819d6ef5218,
   0xd69906245565a910, 0xf40e35855771202a, 0x106aa07032bbd1b8, 0x19a4c116b8d2d0c8, 0x1e376c085141ab53,
   0x2748774cdf8eeb99, 0x34b0bcb5e19b48a8, 0x391c0cb3c5c95a63, 0x4ed8aa4ae3418acb, 0x5b9cca4f7763e373,
   0x682e6ff3d6b2b8a3, 0x748f82ee5defb2fc, 0x78a5636f43172f60, 0x84c87814a1f0ab72, 0x8cc702081a6439ec] ++
  [0x90befffa23631e28, 0xa4506cebde82bde9, 0xbef9a3f7b2c67915, 0xc67178f2e372532b, 0xca273eceea26619c,
   0xd186b8c721c0c207, 0xeada7dd6cde0eb1e, 0xf57d4f7fee6ed178, 0x06f067aa72176fba, 0x0a637dc5a2c898a6,
   0x113f9804bef90dae, 0x1b710b35131c471b, 0x28db77f523047d84, 0x32caab7b40c72493, 0x3c9ebe0a15c9bebc,
   0x431d67c49c100d4c, 0x4cc5d4becb3e42b6, 0x597f299cfc657e2a, 0x5fcb6fab3ad6faec, 0x6c44198c4a475817]

/-- The eight words of a SHA-512 chaining value. -/
structure ShaState where
  a : BitVec 64
  b : BitVec 64
  c : BitVec 64
  d : BitVec 64
  e : BitVec 64
  f : BitVec 64
  g : BitVec 64
  h : BitVec 64
deriving DecidableEq, Repr

/-- The initial chaining value: the fractional parts of the square roots of the first 8 primes. -/
def shaInit : ShaState :=
  { a := 0x6a09e667f3bcc908, b := 0xbb67ae8584caa73b, c := 0x3c6ef372fe94f82b, d := 0xa54ff53a5f1d36f1, e := 0x510e527fade682d1,
    f := 0x9b05688c2b3e6c1f, g := 0x1f83d9abfb41bd6b, h := 0x5be0cd19137e2179 }

/-- A big-endian number of bytes. -/
def beNat (l : List Byte) : Nat := l.foldl (fun n b => 256 * n + b.toNat) 0

/-- The message as SHA-512 pads it: a 1 bit, zeros, and its length in bits as 16 big-endian bytes. -/
def shaPad (m : List Byte) : List Byte :=
  m ++ [0x80] ++ List.replicate ((239 - m.length % 128) % 128) 0 ++ (leBytes 16 (8 * m.length)).reverse

/-- One more word in front of the message schedule, held latest first. -/
def shaExtend (w : List (BitVec 64)) : List (BitVec 64) :=
  let at' := fun (i : Nat) => (w[i]?).getD (0 : BitVec 64)
  let x := at' 1
  let y := at' 14
  let s1 := x.rotateRight 19 ^^^ x.rotateRight 61 ^^^ (x >>> 6)
  let s0 := y.rotateRight 1 ^^^ y.rotateRight 8 ^^^ (y >>> 7)
  (s1 + at' 6 + s0 + at' 15) :: w

/-- The 80 words of a block's message schedule, first word first. -/
def shaSchedule (block : List Byte) : List (BitVec 64) :=
  let w0 := (List.range 16).map (fun i => BitVec.ofNat 64 (beNat ((block.drop (8 * i)).take 8)))
  ((List.range 64).foldl (fun w _ => shaExtend w) w0.reverse).reverse

/-- One round with its constant and schedule word. -/
def ShaState.round (v : ShaState) (k w : BitVec 64) : ShaState :=
  let s1 := v.e.rotateRight 14 ^^^ v.e.rotateRight 18 ^^^ v.e.rotateRight 41
  let t1 := v.h + s1 + ((v.e &&& v.f) ^^^ (~~~v.e &&& v.g)) + k + w
  let s0 := v.a.rotateRight 28 ^^^ v.a.rotateRight 34 ^^^ v.a.rotateRight 39
  let t2 := s0 + ((v.a &&& v.b) ^^^ (v.a &&& v.c) ^^^ (v.b &&& v.c))
  { a := t1 + t2, b := v.a, c := v.b, d := v.c, e := v.d + t1, f := v.e, g := v.f, h := v.g }

/-- The chaining value after one more block of 128 bytes. -/
def ShaState.block (v : ShaState) (block : List Byte) : ShaState :=
  let r := (shaRounds.zip (shaSchedule block)).foldl (fun x e => x.round e.1 e.2) v
  { a := v.a + r.a, b := v.b + r.b, c := v.c + r.c, d := v.d + r.d, e := v.e + r.e, f := v.f + r.f, g := v.g + r.g, h := v.h + r.h }

/-- The SHA-512 digest of a message, as the big-endian words stand in memory. -/
def sha512 (m : List Byte) : List Byte :=
  let p := shaPad m
  let v := (List.range (p.length / 128)).foldl (fun x i => x.block ((p.drop (128 * i)).take 128)) shaInit
  [v.a, v.b, v.c, v.d, v.e, v.f, v.g, v.h].flatMap (fun w => (leBytes 8 w.toNat).reverse)

/-! ### The group -/

/-- The prime of the field. -/
def edP : Nat := 2 ^ 255 - 19

/-- The order of the base point. -/
def edL : Nat := 2 ^ 252 + 27742317777372353535851937790883648493

/-- A power in the field of `edP` elements: the exponent's bits from the highest of 256. -/
def edPow (b e : Nat) : Nat :=
  (List.range 256).foldl (fun a i => if bit e (255 - i) then a * a % edP * b % edP else a * a % edP) 1

/-- The inverse in the field. -/
def edInv (a : Nat) : Nat := edPow a (edP - 2)

/-- The curve constant: -121665 / 121666. -/
def edD : Nat := (edP - 121665) * edInv 121666 % edP

/-- The difference in the field. -/
def edSub (a b : Nat) : Nat := (a + edP - b % edP) % edP

/-- A point in extended homogeneous coordinates. -/
structure EdPoint where
  x : Nat
  y : Nat
  z : Nat
  t : Nat
deriving DecidableEq, Repr

/-- The neutral element. -/
def EdPoint.zero : EdPoint := { x := 0, y := 1, z := 1, t := 0 }

/-- The sum of two points (RFC 8032, section 5.1.4). -/
def EdPoint.add (m n : EdPoint) : EdPoint :=
  let a := edSub m.y m.x * edSub n.y n.x % edP
  let b := (m.y + m.x) * (n.y + n.x) % edP
  let c := m.t * 2 * edD * n.t % edP
  let d := m.z * 2 * n.z % edP
  let e := edSub b a
  let f := edSub d c
  let g := (d + c) % edP
  let h := (b + a) % edP
  { x := e * f % edP, y := g * h % edP, z := f * g % edP, t := e * h % edP }

/-- A multiple of a point, by the bits of the factor from the highest of 256. -/
def EdPoint.mul (k : Nat) (m : EdPoint) : EdPoint :=
  (List.range 256).foldl (fun a i => let d := a.add a
                                     if bit k (255 - i) then d.add m else d) EdPoint.zero

/-- Whether two points are one. -/
def EdPoint.same (m n : EdPoint) : Bool :=
  m.x * n.z % edP == n.x * m.z % edP && m.y * n.z % edP == n.y * m.z % edP

/-- The x coordinate of a point by its y coordinate and its sign bit, if there is one (RFC 8032, section 5.1.3). -/
def edRecover (y sign : Nat) : Option Nat :=
  let u := edSub (y * y % edP) 1
  let v := (edD * (y * y % edP) + 1) % edP
  let r := u * edPow v 3 % edP * edPow (u * edPow v 7 % edP) ((edP - 5) / 8) % edP
  let x := if v * (r * r % edP) % edP = u then some r
    else if v * (r * r % edP) % edP = edSub 0 u then some (r * edPow 2 ((edP - 1) / 4) % edP) else none
  match x with
  | none => none
  | some x => if x = 0 ∧ sign = 1 then none else some (if x % 2 = sign then x else edSub 0 x)

/-- The point that 32 bytes encode, if they encode one (RFC 8032, section 5.1.3). -/
def EdPoint.ofBytes (l : List Byte) : Option EdPoint :=
  let n := leVal (l.take 32)
  let y := n % 2 ^ 255
  if y ≥ edP then none
  else match edRecover y (n / 2 ^ 255) with
    | some x => some { x := x, y := y, z := 1, t := x * y % edP }
    | none => none

/-- The base point: y is 4 / 5 and x is even. -/
def EdPoint.base : EdPoint :=
  let y := 4 * edInv 5 % edP
  let x := (edRecover y 0).getD 0
  { x := x, y := y, z := 1, t := x * y % edP }

/-- Whether a signature of a message verifies under a public key (RFC 8032, section 5.1.7), in the form with the cofactor 8 that the
RFC puts first; the form without it, which the RFC allows too, differs only on signatures that no signer makes (log entry 66). -/
def ed25519 (key msg sig : List Byte) : Bool :=
  let s := leVal ((sig.drop 32).take 32)
  match EdPoint.ofBytes key, EdPoint.ofBytes sig with
  | some a, some r =>
    let k := leVal (sha512 (sig.take 32 ++ key.take 32 ++ msg)) % edL
    decide (s < edL) && EdPoint.same (EdPoint.mul (8 * s) EdPoint.base) ((EdPoint.mul 8 r).add (EdPoint.mul 8 (EdPoint.mul k a)))
  | _, _ => false

end Sys2Proof.Machine
end

