-- ==== Sys2Proof/Machine/StreamDesc.lean ====
section
/-! DEFINITION. Stream descriptors: the layout of Table 121, the validity of R461 and the element addresses of R460. -/

namespace Sys2Proof.Machine

/-- The stream descriptor in a list of 64 bytes (Table 121). -/
def SDesc.ofBytes (b : List Byte) : SDesc :=
  let u := fun o n => leVal ((b.drop o).take n)
  { src := u 0 8, dst := u 8 8, sstride := (List.range 4).map (fun d => signed 32 (u (16 + 4 * d) 4)),
    dstride := (List.range 4).map (fun d => signed 32 (u (32 + 4 * d) 4)),
    countM1 := (List.range 5).map (fun d => u (48 + 2 * d) 2), space := u 58 1, elem := u 59 1, mode := u 60 1,
    flags := u 61 1, tileLog2 := u 62 1, bind := u 63 1,
    rsvOk := u 58 1 / 16 == 0 && u 59 1 / 8 == 0 && u 61 1 / 4 == 0 && u 63 1 / 32 == 0 }

/-- The space of the source side and of the destination side (Table 122). -/
def SDesc.srcSpace (d : SDesc) : Nat := d.space % 4
def SDesc.dstSpace (d : SDesc) : Nat := d.space / 4 % 4

/-- The base selection of each side (Table 123). -/
def SDesc.srcBind (d : SDesc) : Nat := d.bind % 4
def SDesc.dstBind (d : SDesc) : Nat := d.bind / 4 % 4

/-- Whether dimension 4 is the item (R460). -/
def SDesc.itemDim (d : SDesc) : Bool := bit d.bind 4

/-- The element size. -/
def SDesc.size (d : SDesc) : Nat := 2 ^ (d.elem % 8)

/-- The count of dimension `i`. -/
def SDesc.count (d : SDesc) (i : Nat) : Nat := (d.countM1[i]?).getD 0 + 1

/-- The total of elements (R460). -/
def SDesc.total (d : SDesc) : Nat :=
  d.count 0 * d.count 1 * d.count 2 * d.count 3 * (if d.itemDim then 1 else d.count 4)

/-- Whether an integer is a multiple of the element size. -/
def SDesc.aligned (d : SDesc) (v : Int) : Bool := v % (d.size : Int) == 0

/-- The validity of R461 for a template (`tmpl`) or an owner-armed descriptor; the effective bases of a bound side are checked
when they are known. -/
def SDesc.valid (d : SDesc) (tmpl : Bool) : Bool :=
  d.rsvOk && d.srcSpace ≤ 1 && d.dstSpace ≤ 1 && d.elem ≤ 6 && d.mode ≤ 2 && 5 ≤ d.tileLog2 && d.tileLog2 ≤ 16 &&
  d.srcBind ≤ 2 && d.dstBind ≤ 2 &&
  (d.srcBind != 0 || d.aligned d.src) && (d.dstBind != 0 || d.aligned d.dst) &&
  d.sstride.all d.aligned && d.dstride.all d.aligned && d.total ≤ 2 ^ 40 &&
  (d.mode == 0 || (d.src == 0 && d.srcBind == 0 && d.sstride.all (· == 0) && d.srcSpace == 0)) &&
  (tmpl || (d.srcBind == 0 && d.dstBind == 0 && !d.itemDim)) &&
  (!d.itemDim || (d.countM1[4]?).getD 0 == 0)

/-- The indices of element `e` (R460); `item` is the item number under ITEM_DIM. -/
def SDesc.indices (d : SDesc) (e item : Nat) : List Nat :=
  let c := fun i => d.count i
  let i4 := if d.itemDim then item else e / (c 0 * c 1 * c 2 * c 3) % c 4
  [e % c 0, e / c 0 % c 1, e / (c 0 * c 1) % c 2, e / (c 0 * c 1 * c 2) % c 3, i4]

/-- The exact address of element `e` on a side with the given base and strides (R460). -/
def SDesc.address (d : SDesc) (base : Int) (strides : List Int) (e item : Nat) : Int :=
  let ix := d.indices e item
  let i0 : Nat := (ix[0]?).getD 0 * d.size
  (List.range 4).foldl (fun a i =>
    let n : Nat := (ix[i + 1]?).getD 0
    let st : Int := (strides[i]?).getD 0
    a + (n : Int) * st) (base + (i0 : Int))

/-- The condition of R468 on a template of a stage whose OUT0 has entries of `bytes` bytes. -/
def SDesc.fitsQueue (d : SDesc) (bytes : Nat) : Bool :=
  d.dstSpace == 1 && d.dst == 0 && d.dstBind == 0 && d.dstride.all (· == 0) && 2 ^ d.tileLog2 == bytes

end Sys2Proof.Machine
end

