-- ==== Sys2Proof/Machine/Image.lean ====
section
/-! DEFINITION. Validation of a structure image: the ten steps of R85 in order, each answering the first failure as a code and
detail of Tables 31 and 149, and the configuration that a good image gives ("Structure Images"). -/

namespace Sys2Proof.Machine

/-- The CRC-32 of IEEE 802.3 (R49). -/
def crc32 (l : List Byte) : Nat := (l.foldl (crcByteReflected 0xEDB88320) 0xFFFFFFFF) ^^^ 0xFFFFFFFF

/-- The first failure among checks. -/
def firstFail (l : List (Option (Nat × Nat))) : Option (Nat × Nat) := l.findSome? id

/-- A check: none when it holds, else the failure. -/
def need (b : Bool) (code detail : Nat) : Option (Nat × Nat) := if b then none else some (code, detail)

/-- An image in memory: the memory and its address. -/
structure ImgSrc where
  mem : List Host.Cell
  base : Nat
deriving DecidableEq, Repr

/-- The little-endian field of `n` bytes at an offset of the image. -/
def ImgSrc.at (g : ImgSrc) (off n : Nat) : Nat := leAt g.mem (g.base + off) n

/-- A section table entry (Table 15). -/
structure Sect where
  pos : Nat
  typ : Nat
  idx : Nat
  off : Nat
  len : Nat
  cnt : Nat
deriving DecidableEq, Repr

def ImgSrc.sect (g : ImgSrc) (i : Nat) : Sect :=
  let e := 0x100 + 32 * i
  { pos := i, typ := g.at e 2, idx := g.at (e + 2) 2, off := g.at (e + 4) 4, len := g.at (e + 8) 4, cnt := g.at (e + 12) 4 }

/-- The section table. -/
def ImgSrc.sects (g : ImgSrc) : List Sect := (List.range (g.at 0x00C 2)).map g.sect

/-- The sections of a type, in index order. -/
def ofType (l : List Sect) (t : Nat) : List Sect := l.filter (fun x => x.typ == t)

/-- How many sections of a type are allowed at most (Table 16); none for an unknown type. -/
def maxSects (t : Nat) : Option Nat :=
  match t with
  | 1 => some 64 | 2 => some 64 | 3 => some 1 | 4 => some 1 | 5 => some 1 | 6 => some 1 | 7 => some 1 | 8 => some 1
  | 9 => some 1 | 10 => some 1 | _ => none

/-- BAD_SECTION with the section's table index and a byte offset (Table 149). -/
def badSect (x : Sect) (off : Nat) : Nat × Nat := (0x0B, x.pos * 2 ^ 48 + off % 2 ^ 48)

/-- A check of a section's content. -/
def needAt (b : Bool) (x : Sect) (off : Nat) : Option (Nat × Nat) := if b then none else some (badSect x off)

/-! ### Steps 1 to 3 -/

/-- Step 1: alignment, MAGIC, FMT_MAJOR, IMAGE_LEN (R43, R45). -/
def step1 (g : ImgSrc) : Option (Nat × Nat) :=
  let len := g.at 8 4
  firstFail [need (g.base % 64 == 0) 0x03 g.base, need (g.at 0 4 == 0x4953544B) 0x04 (g.at 0 4),
    need (g.at 4 2 == 1) 0x05 (g.at 4 2), need (len % 64 == 0 && 512 ≤ len && len ≤ 0x4000000) 0x06 len]

/-- The bytes of the image with CRC (when `crc`) and SIGNATURE taken as zero (R49, R50). -/
def imgBytes (g : ImgSrc) (crc : Bool) : List Byte :=
  (List.range (g.at 8 4)).map (fun i =>
    if (0xC0 ≤ i && i < 0x100) || (crc && 0xBC ≤ i && i < 0xC0) then 0 else byteAt g.mem (g.base + i))

/-- Step 2: the CRC over the whole image (R49). -/
def step2 (g : ImgSrc) : Option (Nat × Nat) :=
  let c := crc32 (imgBytes g true)
  need (c == g.at 0xBC 4) 0x07 c

/-- Step 3: the lifecycle's permission, then the key slot and the signature (R51, R52, Table 17).  Bits 31:2 of KEY_SLOT are
reserved and ignored (R12). -/
def step3 (g : ImgSrc) (life : Nat) (keys : List KeySlot) : Option (Nat × Nat) :=
  if bit (g.at 0x00E 2) 0 then need (life ≤ 1) 0x08 life
  else
    let n := g.at 0x0B8 4 % 4
    let k := (keys[n]?).getD KeySlot.init
    if life = 0 ∨ life = 3 then some (0x08, life)
    else if k.state = 1 ∧ life = 2 then some (0x08, life)
    else if k.state = 0 ∨ k.state = 3 then some (0x09, n)
    else need (ed25519 k.key (imgBytes g false) (bytesAt g.mem (g.base + 0xC0) 64)) 0x09 n

/-! ### Step 4: the section table -/

/-- The check of table entry `x` against the entries before it (R44, R46, R47, R48).  That two entries of one OFFSET are not ascending,
that the unknown TYPE is reported at byte offset 0, and that a skipped section keeps the rules of INDEX and placement are choices
of log entry 81. -/
def sectCheck (g : ImgSrc) (l : List Sect) (x : Sect) : Option (Nat × Nat) :=
  let before := l.take x.pos
  let prevEnd := match before.getLast? with | some p => p.off + p.len | none => 0
  let prevOff := match before.getLast? with | some p => p.off + 1 | none => 0
  let bad := some (0x0A, x.pos)
  if x.off % 64 ≠ 0 ∨ x.off < 0x100 + 32 * l.length ∨ x.off + x.len > g.at 8 4 ∨ x.off < prevEnd ∨ x.off < prevOff then bad
  else if x.idx ≠ (ofType before x.typ).length then bad
  else match maxSects x.typ with
    | none => if bit x.typ 15 then none else some (badSect x 0)
    | some n =>
      if (ofType before x.typ).length ≥ n then bad
      else if x.typ = 9 ∧ x.cnt ≠ 4 then bad
      else none

/-- Step 4. -/
def step4 (g : ImgSrc) : Option (Nat × Nat) :=
  let n := g.at 0x00C 2
  if n = 0 then some (0x0A, 0)
  else if n > 256 then some (0x0C, 256)
  else if 0x100 + 32 * n > g.at 8 4 then some (0x0A, n)
  else
    let l := g.sects
    firstFail (l.map (sectCheck g l) ++
      [need (!(ofType l 1).isEmpty && !(ofType l 3).isEmpty && !(ofType l 9).isEmpty) 0x0A n])

/-! ### Step 5: section contents and limits -/

/-- The counts that references of an image are checked against. -/
structure Counts where
  chains : Nat
  progs : Nat
  strm : Nat
  wref : Nat
  trav : Nat
  qry : Nat
deriving DecidableEq, Repr

def countsOf (l : List Sect) : Counts :=
  let c := fun t => match (ofType l t).head? with | some x => x.cnt | none => 0
  { chains := (ofType l 1).length, progs := (ofType l 2).length, strm := c 4, wref := c 5, trav := c 7, qry := c 8 }

/-- The stage record at `o` (Table 21). -/
def ImgSrc.stage (g : ImgSrc) (o : Nat) : Stage :=
  { kind := g.at o 1, input := g.at (o + 1) 1, out0 := g.at (o + 2) 1, out1 := g.at (o + 3) 1, routeSel := g.at (o + 4) 1,
    routeBit := g.at (o + 5) 1, tgMask := g.at (o + 6) 1, quadMask := g.at (o + 7) 1, seMask := g.at (o + 8) 2,
    prog := g.at (o + 10) 2, strmFirst := g.at (o + 12) 2, strmCount := g.at (o + 14) 2, model := g.at (o + 16) 2,
    settings := g.at (o + 18) 2 }

/-- The queue record at `o` (Table 23). -/
def ImgSrc.queueRec (g : ImgSrc) (o : Nat) : QueueRec :=
  { region := g.at o 1, entrySize := g.at (o + 1) 1, offset := g.at (o + 4) 4, capacity := g.at (o + 8) 4 }

/-- The bytes of a queue's entries (R59). -/
def QueueRec.bytes (q : QueueRec) : Nat := match q.entrySize with | 0 => 32 | 1 => 64 | 2 => 128 | _ => 65536

/-- The chain that a CHAIN section holds (Tables 19 to 23). -/
def ImgSrc.chain (g : ImgSrc) (x : Sect) : Chain :=
  let o := x.off
  let sc := g.at o 1
  let qc := g.at (o + 1) 1
  let fl := g.at (o + 6) 2
  { classMask := g.at (o + 2) 1 % 16, trigger := g.at (o + 3) 1, triggerArg := g.at (o + 4) 2, ordered := bit fl 0,
    fillAhead := bit fl 1, mcastArrays := g.at (o + 8) 1 % 4, allPeers := bit (g.at (o + 9) 1) 0,
    peers := (List.range (g.at (o + 10) 2)).map (fun j => g.at (o + 64 + 32 * sc + 16 * qc + 2 * j) 2 % 4096),
    paramSize := g.at (o + 12) 4,
    stages := (List.range sc).map (fun j => g.stage (o + 64 + 32 * j)),
    queues := (List.range qc).map (fun j => g.queueRec (o + 64 + 32 * sc + 16 * j)) }

/-- The check of one unit or reference field: required and valid, or at its none value (R58). -/
def refCheck (required valid : Bool) (v none0 : Nat) : Bool := if required then valid else v == none0

/-- The check of a stage record at section offset `o` (R57, R58, R60's last sentence; R294 for QUERY, R468 for STREAM).  ROUTE_BIT is
checked only where it is used (log entry 81). -/
def stageCheck (x : Sect) (n : Counts) (qc : Nat) (o : Nat) (t : Stage) : Option (Nat × Nat) :=
  let k := t.kind
  firstFail [
    needAt (1 ≤ k && k ≤ 8) x o,
    needAt (t.input < qc || t.input == 255) x (o + 1),
    needAt ((t.out0 < qc || t.out0 == 255) && (k != 8 || t.out0 == 255)) x (o + 2),
    needAt ((t.out1 < qc || t.out1 == 255) && (!(k == 8 || k == 7) || t.out1 == 255)) x (o + 3),
    needAt (t.routeSel ≤ 2 && (!(k == 8 || k == 4 || k == 7) || t.routeSel == 0) && (t.routeSel == 0 || t.out1 != 255)) x (o + 4),
    needAt (t.routeSel != 2 || t.routeBit ≤ 15) x (o + 5),
    needAt (refCheck (k == 1 || k == 3 || k == 4 || k == 6) (t.tgMask != 0) t.tgMask 0) x (o + 6),
    needAt (k == 3 || refCheck (k == 5) (t.quadMask != 0) t.quadMask 0) x (o + 7),
    needAt (refCheck (k == 7) (t.seMask != 0) t.seMask 0) x (o + 8),
    needAt (refCheck (k == 1 || k == 6) (t.prog < n.progs) t.prog 0xFFFF) x (o + 10),
    needAt (refCheck (k == 7) (t.strmFirst < n.strm) t.strmFirst 0) x (o + 12),
    needAt (refCheck (k == 7) (1 ≤ t.strmCount && t.strmFirst + t.strmCount ≤ n.strm) t.strmCount 0) x (o + 14),
    needAt (refCheck (k == 5) (t.model < n.wref) t.model 0xFFFF) x (o + 16),
    needAt (refCheck (k == 3 || k == 4) (t.settings < (if k == 3 then n.trav else n.qry)) t.settings 0xFFFF) x (o + 18)]

/-- A CHAIN section (R54 to R59, R65, R769; R142 and R294 for PARAM_SIZE). -/
def chainCheck (g : ImgSrc) (n : Counts) (x : Sect) : Option (Nat × Nat) :=
  if x.len < 64 then some (badSect x x.len) else
  let o := x.off
  let sc := g.at o 1
  let qc := g.at (o + 1) 1
  let pc := g.at (o + 10) 2
  let c := g.chain x
  firstFail [
    need (sc ≤ 16 && qc ≤ 32 && pc ≤ 255 && c.paramSize ≤ 4096) 0x0C x.pos,
    needAt (1 ≤ sc && x.cnt == sc) x 0,
    needAt (64 + 32 * sc + 16 * qc + 2 * pc ≤ x.len) x x.len,
    needAt (c.classMask != 0) x 2,
    needAt (c.trigger ≤ 3) x 3,
    needAt (match c.trigger with
      | 0 => c.triggerArg == 0 | 1 => c.triggerArg ≤ 15 | 2 => c.triggerArg ≤ 255 | _ => c.triggerArg < n.chains) x 4,
    needAt (!c.allPeers || pc == 0) x 10,
    needAt (!(c.stages.any (fun t => t.kind == 3) && c.paramSize < 8) &&
      !(c.stages.any (fun t => t.kind == 4) && c.paramSize < 24)) x 12,
    firstFail ((List.range sc).map (fun j => stageCheck x n qc (64 + 32 * j) (g.stage (o + 64 + 32 * j)))),
    firstFail ((List.range qc).map (fun j =>
      let q := g.queueRec (o + 64 + 32 * sc + 16 * j)
      let p := 64 + 32 * sc + 16 * j
      firstFail [needAt (q.entrySize ≤ 3) x (p + 1), needAt (q.offset % 64 == 0) x (p + 4), needAt (1 ≤ q.capacity) x (p + 8)]))]

/-- The program of a PROG section (Table 26). -/
def ImgSrc.prog (g : ImgSrc) (x : Sect) : Prog :=
  let o := x.off
  { codeAddr := g.base + o + 64, codeLen := g.at o 4, regs := g.at (o + 4) 1, split := g.at (o + 5) 1,
    maxGroups := g.at (o + 6) 1, entries := (List.range (g.at (o + 7) 1)).map (fun k => g.at (o + 8 + 4 * k) 4) }

/-- A PROG section (R71, R769). -/
def progCheck (g : ImgSrc) (x : Sect) : Option (Nat × Nat) :=
  if x.len < 64 then some (badSect x x.len) else
  let p := g.prog x
  let ec := g.at (x.off + 7) 1
  firstFail ([
    need (p.codeLen ≤ 0x40000 && ec ≤ 8) 0x0C x.pos,
    needAt (64 + p.codeLen ≤ x.len) x x.len,
    needAt (p.codeLen % 8 == 0) x 0,
    needAt (16 ≤ p.regs) x 4,
    needAt (p.split ≤ 3) x 5,
    needAt (1 ≤ p.maxGroups && p.maxGroups ≤ min 64 (2048 / p.regs)) x 6,
    needAt (1 ≤ ec) x 7] ++
    (List.range ec).map (fun k =>
      let e := g.at (x.off + 8 + 4 * k) 4
      needAt (e % 8 == 0 && e < p.codeLen) x (8 + 4 * k)))

/-- The partition of the PART section (Table 24). -/
def ImgSrc.part (g : ImgSrc) (x : Sect) : Part :=
  let o := x.off
  let rc := g.at o 2
  { tgClass := (List.range 8).map (fun j => g.at (o + 4 + j) 1 % 16),
    quadClass := (List.range 8).map (fun j => g.at (o + 12 + j) 1 % 16),
    regions := (List.range rc).map (fun j =>
      let p := o + 64 + 16 * j
      { kind := g.at p 1, zero := bit (g.at (p + 1) 1) 0, start := g.at (p + 4) 4, size := g.at (p + 8) 4 }),
    ranges := (List.range (g.at (o + 2) 2)).map (fun j =>
      let p := o + 64 + 16 * rc + 8 * j
      { first := g.at p 2, count := g.at (p + 2) 2, classMask := g.at (p + 4) 1 % 16 }) }

/-- The PART section (R66, R67, R769). -/
def partCheck (g : ImgSrc) (x : Sect) : Option (Nat × Nat) :=
  if x.len < 64 then some (badSect x x.len) else
  let rc := g.at x.off 2
  let tc := g.at (x.off + 2) 2
  firstFail ([
    need (rc ≤ 64 && tc ≤ 16) 0x0C x.pos,
    needAt (64 + 16 * rc + 8 * tc ≤ x.len) x x.len,
    needAt (1 ≤ rc) x 0, needAt (1 ≤ tc) x 2] ++
    (List.range rc).flatMap (fun j =>
      let k := g.at (x.off + 64 + 16 * j) 1
      [needAt (1 ≤ k && k ≤ 7) x (64 + 16 * j), needAt (1 ≤ g.at (x.off + 64 + 16 * j + 8) 4) x (64 + 16 * j + 8)]) ++
    (List.range tc).map (fun j => needAt (1 ≤ g.at (x.off + 64 + 16 * rc + 8 * j + 2) 2) x (64 + 16 * rc + 8 * j + 2)))

/-- The WREF entries (R73). -/
def ImgSrc.wrefs (g : ImgSrc) (x : Sect) : List Wref :=
  (List.range x.cnt).map (fun j =>
    let o := x.off + 32 * j
    { layerCount := g.at o 2, tileCount := g.at (o + 4) 4, layerTable := g.at (o + 8) 8 })

/-- The RESI entries (R78). -/
def ImgSrc.resis (g : ImgSrc) (x : Sect) : List Resi :=
  (List.range x.cnt).map (fun j =>
    let o := x.off + 16 * j
    { model := g.at o 2, spill := g.at (o + 2) 1 == 1, halves := g.at (o + 3) 1 % 4 })

/-- The TRAV entries (Table 27). -/
def ImgSrc.travs (g : ImgSrc) (x : Sect) : List TravCfg :=
  (List.range x.cnt).map (fun j =>
    let o := x.off + 32 * j
    { maxDepth := g.at o 1, samples := g.at (o + 1) 1 % 8, anyhit := g.at (o + 2) 2, isect := g.at (o + 4) 2,
      refine := g.at (o + 6) 2, arrayBatch := g.at (o + 8) 2 })

/-- The QRY entries (R75). -/
def ImgSrc.qrys (g : ImgSrc) (x : Sect) : List QryCfg :=
  (List.range x.cnt).map (fun j =>
    let o := x.off + 32 * j
    { dims := g.at o 1, kMax := g.at (o + 1) 1, output := g.at (o + 2) 1, candMax := g.at (o + 4) 2, scoreDim := g.at (o + 6) 2 })

/-- The QOS entries (R76). -/
def ImgSrc.qos (g : ImgSrc) (x : Sect) : List Qos :=
  (List.range 4).map (fun j => { maxInflight := g.at (x.off + 16 * j) 1, coalesce := g.at (x.off + 16 * j + 2) 2 })

/-- The number of arrays that a quadrant mask names. -/
def arraysOf (mask : Nat) : Nat := boolNat (mask % 16 != 0) + boolNat (mask / 16 % 16 != 0)

/-- A model's layer table against R340: `stages` are the MATMUL stages that name the model, `part` the partition. -/
def modelCheck (m : List Host.Cell) (w : Wref) (part : Part) (masks : List Nat) : Bool :=
  let a := w.layerTable
  let h := readHead m a
  let ls := (List.range w.layerCount).map (readLayer m a)
  let stride := (ls.dropLast.map Layer.stride).foldl max 0
  let groups := (masks.map arraysOf).foldl max 0
  layersOk m a w.layerCount &&
  (ls.map Layer.tiles).foldl (· + ·) 0 == w.tileCount &&
  (match part.regions[h.region]? with
    | some r => r.kind == 4 && h.offset % 64 == 0 && h.offset + h.size ≤ r.size * 65536
    | none => false) &&
  h.size ≥ 2 * groups * h.vb * stride

/-- One section's content (step 5 of R85).  Of two RESI entries of one model the later is reported (log entry 81). -/
def contentCheck (g : ImgSrc) (part : Part) (chains : List Chain) (n : Counts) (x : Sect) : Option (Nat × Nat) :=
  match x.typ with
  | 1 => chainCheck g n x
  | 2 => progCheck g x
  | 3 => partCheck g x
  | 4 =>
    firstFail ([need (x.cnt ≤ 1024) 0x0C x.pos, needAt (64 * x.cnt ≤ x.len) x x.len] ++
      (List.range (min 1024 x.cnt)).map (fun j =>
        needAt ((SDesc.ofBytes (bytesAt g.mem (g.base + x.off + 64 * j) 64)).valid true) x (64 * j)))
  | 5 =>
    firstFail ([need (x.cnt ≤ 64) 0x0C x.pos, needAt (32 * x.cnt ≤ x.len) x x.len] ++
      (if x.cnt ≤ 64 then
        (List.range x.cnt).map (fun j =>
          let masks := (chains.flatMap (fun c => c.stages)).filterMap (fun t =>
            if t.kind == 5 && t.model == j then some t.quadMask else none)
          match (g.wrefs x)[j]? with
          | some w =>
            let scoring := w.layerCount == 0 && w.tileCount == 0 && w.layerTable == 0
            needAt (scoring || modelCheck g.mem w part masks) x (32 * j + 8)
          | none => none)
      else []))
  | 6 =>
    firstFail ([needAt (16 * x.cnt ≤ x.len) x x.len] ++
      (List.range (min x.cnt (x.len / 16))).map (fun j =>
        firstFail [needAt (g.at (x.off + 16 * j) 2 < n.wref) x (16 * j), needAt (g.at (x.off + 16 * j + 2) 1 ≤ 1) x (16 * j + 2)]) ++
      (let rs := g.resis { x with cnt := min x.cnt (x.len / 16) }
       let used := (chains.flatMap (fun c => c.stages)).filterMap (fun t => if t.kind == 5 then some t.model else none)
       (List.range rs.length).map (fun j =>
         match rs[j]? with
         | some r => needAt (!(used.contains r.model && (rs.take j).any (fun q => q.model == r.model))) x (16 * j)
         | none => none)))
  | 7 =>
    firstFail ([needAt (32 * x.cnt ≤ x.len) x x.len] ++
      (List.range (min x.cnt (x.len / 32))).map (fun j =>
        let o := x.off + 32 * j
        let pr := fun v => v < n.progs || v == 0xFFFF
        firstFail [needAt (1 ≤ g.at o 1 && g.at o 1 ≤ 4) x (32 * j), needAt (pr (g.at (o + 2) 2)) x (32 * j + 2),
          needAt (pr (g.at (o + 4) 2)) x (32 * j + 4), needAt (pr (g.at (o + 6) 2)) x (32 * j + 6)]))
  | 8 =>
    firstFail ([needAt (32 * x.cnt ≤ x.len) x x.len] ++
      (List.range (min x.cnt (x.len / 32))).map (fun j =>
        let o := x.off + 32 * j
        firstFail [needAt (2 ≤ g.at o 1 && g.at o 1 ≤ 8) x (32 * j), needAt (1 ≤ g.at (o + 1) 1 && g.at (o + 1) 1 ≤ 64) x (32 * j + 1),
          needAt (g.at (o + 2) 1 ≤ 1) x (32 * j + 2),
          needAt (g.at (o + 2) 1 == 0 || (1 ≤ g.at (o + 4) 2 && g.at (o + 4) 2 ≤ 64 && g.at (o + 1) 1 ≤ g.at (o + 4) 2)) x (32 * j + 4),
          needAt (1 ≤ g.at (o + 6) 2 && g.at (o + 6) 2 ≤ 256) x (32 * j + 6)]))
  | 9 =>
    firstFail ([needAt (64 ≤ x.len) x x.len] ++
      (List.range 4).map (fun j =>
        let o := x.off + 16 * j
        firstFail [needAt (1 ≤ g.at o 1 && g.at o 1 ≤ 16) x (16 * j), needAt (1 ≤ g.at (o + 2) 2 && g.at (o + 2) 2 ≤ 256) x (16 * j + 2)]))
  | _ => none

/-- A MATMUL stage whose model has no RESI entry (R78), at its MODEL field. -/
def resiMissing (l : List Sect) (g : ImgSrc) : Option (Nat × Nat) :=
  let rs := match (ofType l 6).head? with | some x => g.resis x | none => []
  firstFail ((ofType l 1).flatMap (fun x =>
    let c := g.chain x
    (List.range c.stages.length).map (fun j =>
      match c.stages[j]? with
      | some t => needAt (t.kind != 5 || rs.any (fun r => r.model == t.model)) x (64 + 32 * j + 16)
      | none => none)))

/-- The stages of QUERY kind with a candidate list (R298), and the STREAM stages with their templates (R466, R468), of every
chain: the CHAIN section and the offset of the byte at fault. -/
def stageRefs (g : ImgSrc) (l : List Sect) : Option (Nat × Nat) :=
  let qrys := match (ofType l 8).head? with | some x => g.qrys x | none => []
  let wrefs := match (ofType l 5).head? with | some x => g.wrefs x | none => []
  let tmpl := fun i => match (ofType l 4).head? with
    | some x => SDesc.ofBytes (bytesAt g.mem (g.base + x.off + 64 * i) 64)
    | none => SDesc.ofBytes []
  firstFail ((ofType l 1).flatMap (fun x =>
    let c := g.chain x
    (List.range c.stages.length).map (fun j =>
      match c.stages[j]? with
      | some t =>
        let o := 64 + 32 * j
        if t.kind == 4 then
          match qrys[t.settings]? with
          | some q =>
            let ok := match c.queues[t.out0]? with
              | some r => r.entrySize == 3 && c.stages.any (fun u => u.kind == 5 && u.input == t.out0 &&
                  (match wrefs[u.model]? with
                    | some w => w.layerCount == 0 && w.tileCount == 0 && w.layerTable == 0
                    | none => false))
              | none => false
            needAt (q.output == 0 || ok) x (o + 2)
          | none => none
        else if t.kind == 7 then
          let ds := (List.range t.strmCount).map (fun i => tmpl (t.strmFirst + i))
          firstFail [
            needAt (t.input == 255 || (match c.queues[t.input]? with | some r => r.entrySize == 0 | none => true)) x (o + 1),
            needAt (t.input != 255 || ds.all (fun d => d.srcBind != 2 && d.dstBind != 2)) x (o + 12),
            needAt (match c.queues[t.out0]? with | some r => ds.all (fun d => d.fitsQueue r.bytes) | none => true) x (o + 2)]
        else none
      | none => none)))

/-- Step 5. -/
def step5 (g : ImgSrc) : Option (Nat × Nat) :=
  let l := g.sects
  let n := countsOf l
  let part := match (ofType l 3).head? with | some x => g.part x | none => { tgClass := [], quadClass := [], regions := [], ranges := [] }
  let chains := (ofType l 1).map g.chain
  firstFail [firstFail (l.map (contentCheck g part chains n)), resiMissing l g, stageRefs g l]

/-! ### Steps 6 to 10, over the configuration -/

/-- CHAIN_GRAPH or NO_UNIT detail (Table 149). -/
def chainDetail (c t : Nat) : Nat := c * 2 ^ 48 + t

/-- The stages of a chain that produce into queue `q`, rising. -/
def Chain.producers (c : Chain) (q : Nat) : List Nat :=
  (List.range c.stages.length).filter (fun j => match c.stages[j]? with | some t => t.out0 == q || t.out1 == q | none => false)

/-- The stages of a chain that consume queue `q`, rising. -/
def Chain.consumers (c : Chain) (q : Nat) : List Nat :=
  (List.range c.stages.length).filter (fun j => match c.stages[j]? with | some t => t.input == q | none => false)

/-- The stages before stage `j` along its input, `n` steps back. -/
def Chain.back (c : Chain) : Nat → Nat → Option Nat
  | 0, j => some j
  | n + 1, j =>
    match c.stages[j]? with
    | some t => if t.input == 255 then none else match (c.producers t.input).head? with | some p => c.back n p | none => none
    | none => none

/-- The graph of a chain (R60): the stage named in the failure, if any.  Which of several failures is named follows the order of R60's
list, queues by index (log entry 81). -/
def Chain.graphFail (c : Chain) : Option Nat :=
  let js := List.range c.stages.length
  let byQueue := (List.range c.queues.length).findSome? (fun q =>
    let ps := c.producers q
    let cs := c.consumers q
    match ps[1]?, cs[1]? with
    | some a, some b => some (min a b)
    | some a, none => some a
    | none, some b => some b
    | none, none =>
      match ps.head?, cs.head? with
      | some _, some _ => none
      | some a, none => some a
      | none, some b => some b
      | none, none => some 0)
  let firsts := js.filter (fun j => match c.stages[j]? with | some t => t.input == 255 | none => false)
  let kindBad := firsts.find? (fun j => match c.stages[j]? with | some t => t.kind != 1 && t.kind != 7 | none => false)
  let cyc := js.find? (fun j => (List.range c.stages.length).any (fun n => c.back (n + 1) j == some j))
  let unreach := js.find? (fun j =>
    !(List.range (c.stages.length + 1)).any (fun n => match c.back n j with | some p => firsts.contains p | none => false))
  match byQueue with
  | some j => some j
  | none =>
    match firsts[1]?, kindBad with
    | some a, some b => some (min a b)
    | some a, none => some a
    | none, some b => some b
    | none, none =>
      if firsts.isEmpty then some 0
      else match cyc with
        | some j => some j
        | none => unreach

/-- The byte span of a queue in the Shared Field: region start and end, first byte and end. -/
def queueSpan (part : Part) (q : QueueRec) : Option (Nat × Nat) :=
  match part.regions[q.region]? with
  | some r =>
    if (r.kind == 1 || r.kind == 3) && q.offset + q.capacity * q.bytes ≤ r.size * 65536 then
      some (r.start * 65536 + q.offset, r.start * 65536 + q.offset + q.capacity * q.bytes)
    else none
  | none => none

/-- Step 6: chain graphs, then queue placement (R60, R62). -/
def step6 (part : Part) (chains : List Chain) : Option (Nat × Nat) :=
  let graph := (List.range chains.length).map (fun i =>
    match chains[i]? with
    | some c => (c.graphFail).map (fun j => (0x0D, chainDetail i j))
    | none => none)
  let qs := (List.range chains.length).flatMap (fun i =>
    match chains[i]? with
    | some c => (List.range c.queues.length).filterMap (fun j => (c.queues[j]?).map (fun q => (i, j, q)))
    | none => [])
  let spans := qs.map (fun e => queueSpan part e.2.2)
  let place := (List.range qs.length).map (fun n =>
    match qs[n]? with
    | some (i, j, _) =>
      let fail := some (0x0E, 2 * 2 ^ 48 + i * 2 ^ 32 + j)
      match spans[n]? with
      | some (some (a, b)) =>
        if (spans.take n).any (fun p => match p with | some (a', b') => a < b' && a' < b | none => false) then fail else none
      | _ => fail
    | none => none)
  firstFail (graph ++ place)

/-- The units of a domain's Shared Field: first unit, unit count, first bank, bank count (Table 154, R603). -/
def sfDomain (d : Nat) : Nat × Nat × Nat × Nat :=
  match d with
  | 17 => (0, 252, 0, 21) | 18 => (252, 252, 21, 21) | _ => (504, 264, 42, 22)

/-- The Shared Field units of domain `d` in service: 12 for each bank in service, from its first unit; none while it is off
(R605, R656). -/
def State.sfUnits (s : State) (d : Nat) : Nat :=
  let (_, _, b0, n) := sfDomain d
  if s.domOn d then 12 * ((List.range n).filter (fun i =>
    let b := b0 + i
    !(if b < 32 then bit (s.get F.rasFencedSfLo) b else bit (s.get F.rasFencedSfHi) (b - 32)))).length
  else 0

/-- Whether Shared Field unit `u` is in service. -/
def State.sfUnitUp (s : State) (u : Nat) : Bool :=
  [17, 18, 19].any (fun d => let (u0, n, _, _) := sfDomain d; u0 ≤ u && u < u0 + n && u - u0 < s.sfUnits d)

/-- Whether a class mask of PART admits class `c` (R31). -/
def admits (mask c : Nat) : Bool := mask == 0 || bit mask c

/-- Step 7: the partition (R68) and the class bindings (R64).  The ranges of START, FIRST_SLOT and SLOT_COUNT are bounds of R68, and of
two that overlap the later index is reported (log entry 81). -/
def step7 (part : Part) (chains : List Chain) : Option (Nat × Nat) :=
  let rs := part.regions
  let regions := (List.range rs.length).map (fun i =>
    match rs[i]? with
    | some r =>
      need (r.start + r.size ≤ 768 &&
        !(rs.take i).any (fun q => r.start < q.start + q.size && q.start < r.start + r.size)) 0x0E i
    | none => none)
  let ts := part.ranges
  let ranges := (List.range ts.length).map (fun i =>
    match ts[i]? with
    | some r =>
      need (r.first + r.count ≤ 256 &&
        !(ts.take i).any (fun q => r.first < q.first + q.count && q.first < r.first + r.count)) 0x0E (2 ^ 48 + i)
    | none => none)
  let bind := (List.range chains.length).flatMap (fun i =>
    match chains[i]? with
    | some c => (List.range c.stages.length).flatMap (fun j =>
      match c.stages[j]? with
      | some t => (bitsOf 4 c.classMask).map (fun cl =>
        let tg := !(t.kind == 1 || t.kind == 3 || t.kind == 4 || t.kind == 6) ||
          (bitsOf 8 t.tgMask).any (fun u => admits ((part.tgClass[u]?).getD 0) cl)
        let qd := t.kind != 5 || (bitsOf 8 t.quadMask).any (fun u => admits ((part.quadClass[u]?).getD 0) cl)
        need (tg && qd) 0x0F (i * 2 ^ 48 + j * 2 ^ 16 + cl))
      | none => [])
    | none => [])
  firstFail (regions ++ ranges ++ bind)

/-- The local-store size of an LMEM_SPLIT (R376). -/
def lmemSize (split : Nat) : Nat := match split with | 0 => 0x80000 | 1 => 0x60000 | 2 => 0x40000 | _ => 0x20000

/-- Whether a group's class mask makes it preemptible (R69). -/
def preemptible (mask : Nat) : Bool := admits mask 0 && (admits mask 1 || admits mask 2 || admits mask 3)

/-- The largest local store of any program that may be resident on the cores of preemptible groups; none when no stage of kind
GENERATE, PROGRAM or TRAVERSE names such a group (R69). -/
def saveLocal (part : Part) (chains : List Chain) (progs : List Prog) (travs : List TravCfg) : Option Nat :=
  let pre := (List.range 8).filter (fun g => preemptible ((part.tgClass[g]?).getD 0))
  let ts := (chains.flatMap (fun c => c.stages)).filter (fun t =>
    (t.kind == 1 || t.kind == 6 || t.kind == 3) && pre.any (fun g => bit t.tgMask g))
  if ts.isEmpty then none
  else
    let ps := ts.flatMap (fun t =>
      if t.kind == 3 then match travs[t.settings]? with | some v => [v.anyhit, v.isect, v.refine] | none => []
      else [t.prog])
    some ((ps.filterMap (fun p => (progs[p]?).map (fun q => lmemSize q.split))).foldl max 0)

/-- The SAVE regions' bytes. -/
def saveBytes (part : Part) : Nat := (part.regions.filter (fun r => r.kind == 6)).foldl (fun a r => a + r.size * 65536) 0

/-- The size of a save area: 256 KiB + L (R69). -/
def saveArea (l : Nat) : Nat := 0x40000 + l

/-- The tiles of a RESIDENT model set in half `h` (R81). -/
def residentTiles (wrefs : List Wref) (resis : List Resi) (h : Nat) : Nat :=
  (resis.filter (fun r => !r.spill && bit r.halves h)).foldl (fun a r =>
    a + (match wrefs[r.model]? with | some w => w.tileCount | none => 0)) 0

/-- Layers placed one after another from place `p` while they fit whole in `cap` tiles; a layer that does not fit ends it (R80). -/
def placeLayers (m : List Host.Cell) (model table cap : Nat) : List Nat → Nat → List PlacedLayer
  | [], _ => []
  | l :: r, p =>
    let n := (readLayer m table l).tiles
    if p + n ≤ cap then { model := model, layer := l, place := p, tiles := n } :: placeLayers m model table cap r (p + n)
    else []

/-- The placement of one half: RESIDENT models in RESI order, then SPILL models in RESI order (R80). -/
def placeHalf (m : List Host.Cell) (wrefs : List Wref) (resis : List Resi) (h cap : Nat) : List PlacedLayer :=
  let order := resis.filter (fun r => !r.spill && bit r.halves h) ++ resis.filter (fun r => r.spill && bit r.halves h)
  order.foldl (fun acc r =>
    match wrefs[r.model]? with
    | some w =>
      let p := match acc.getLast? with | some e => e.place + e.tiles | none => 0
      acc ++ placeLayers m r.model w.layerTable cap (List.range w.layerCount) p
    | none => acc) []

/-- The tiles that a Weight Store half offers (R79, R605). -/
def State.wsTiles (s : State) (h : Nat) : Nat := if s.domOn (15 + h) then 252 else 0

/-- Step 8: capacities of the Shared Field, the SAVE regions and the Weight Store (R68, R69, R81). -/
def step8 (s : State) (part : Part) (chains : List Chain) (progs : List Prog) (travs : List TravCfg) (wrefs : List Wref)
    (resis : List Resi) : Option (Nat × Nat) :=
  let sum := part.regions.foldl (fun a r => a + r.size) 0
  let cap := s.sfUnits 17 + s.sfUnits 18 + s.sfUnits 19
  let past := (part.regions.map (fun r => ((List.range r.size).filter (fun i => !s.sfUnitUp (r.start + i))).length)).foldl (· + ·) 0
  let pre := ((List.range 8).filter (fun g => preemptible ((part.tgClass[g]?).getD 0))).length
  let save := match saveLocal part chains progs travs with
    | some l =>
      let n := 2 * pre * saveArea l
      need (n ≤ saveBytes part) 0x11 (n - saveBytes part)
    | none => none
  let half := fun h =>
    let n := residentTiles wrefs resis h
    need (n ≤ s.wsTiles h) 0x12 (h * 2 ^ 48 + (n - s.wsTiles h) * 65536)
  firstFail [need (sum ≤ cap) 0x10 ((sum - cap) * 65536), need (past == 0) 0x10 (past * 65536), save, half 0, half 1]

/-- Whether an image names peers (R65). -/
def namesPeers (chains : List Chain) : Bool := chains.any (fun c => c.allPeers || !c.peers.isEmpty)

/-- Step 9: port counts (R65), which no other limit checks (log entry 81). -/
def step9 (s : State) (minMem minPlk : Nat) (chains : List Chain) : Option (Nat × Nat) :=
  let plk := max minPlk (boolNat (namesPeers chains))
  firstFail [need (minMem ≤ s.integ.memPorts) 0x13 (minMem * 2 ^ 16 + s.integ.memPorts),
    need (plk ≤ s.integ.plkPorts) 0x13 (2 ^ 48 + plk * 2 ^ 16 + s.integ.plkPorts)]

/-- Whether a stage has a unit in service within its mask (step 10 of R85). -/
def State.stageHasUnit (s : State) (t : Stage) : Bool :=
  let groups := bitsOf 8 t.tgMask
  match t.kind with
  | 3 => groups.any (fun g => (List.range 4).any (fun i => s.inService (.tc ⟨(4 * g + i) % 32, Nat.mod_lt _ (by decide)⟩))) && s.domOn 20
  | 4 => groups.any (fun g => (List.range 4).any (fun i => s.inService (.tc ⟨(4 * g + i) % 32, Nat.mod_lt _ (by decide)⟩))) && s.domOn 20
  | 1 => groups.any (fun g => (List.range 2).any (fun i => s.inService (.lc ⟨(2 * g + i) % 16, Nat.mod_lt _ (by decide)⟩)))
  | 6 => groups.any (fun g => (List.range 2).any (fun i => s.inService (.lc ⟨(2 * g + i) % 16, Nat.mod_lt _ (by decide)⟩)))
  | 5 => (List.finRange 8).any (fun q => bit t.quadMask q.val && s.inService (.quad q))
  | 7 => (List.finRange 16).any (fun e => bit t.seMask e.val && s.inService (.se e))
  | _ => true

/-- Step 10: units in service. -/
def step10 (s : State) (chains : List Chain) : Option (Nat × Nat) :=
  firstFail ((List.range chains.length).flatMap (fun i =>
    match chains[i]? with
    | some c => (List.range c.stages.length).map (fun j =>
      match c.stages[j]? with
      | some t => need (s.stageHasUnit t) 0x14 (chainDetail i j)
      | none => none)
    | none => []))

/-- The configuration of the image at `base`, its sections taken as they stand. -/
def parseImage (s : State) (g : ImgSrc) : Image :=
  let l := g.sects
  let one := fun t => (ofType l t).head?
  let wrefs := match one 5 with | some x => g.wrefs x | none => []
  let resis := match one 6 with | some x => g.resis x | none => []
  { id := g.at 0x10 8, addr := g.base, len := g.at 8 4, chains := (ofType l 1).map g.chain, progs := (ofType l 2).map g.prog,
    part := (match one 3 with | some x => g.part x | none => { tgClass := [], quadClass := [], regions := [], ranges := [] }),
    strmAddr := (match one 4 with | some x => g.base + x.off | none => 0),
    strmCount := (match one 4 with | some x => x.cnt | none => 0), wrefs := wrefs, resis := resis,
    travs := (match one 7 with | some x => g.travs x | none => []),
    qrys := (match one 8 with | some x => g.qrys x | none => []),
    qos := (match one 9 with | some x => g.qos x | none => []),
    placeA := placeHalf g.mem wrefs resis 0 (s.wsTiles 0), placeB := placeHalf g.mem wrefs resis 1 (s.wsTiles 1),
    minPlk := g.at 0x19 1 }

/-- Validation of the image at `base` in the order of R85: the configuration, or the first failure. -/
def State.validate (s : State) (base : Nat) : Except (Nat × Nat) Image :=
  let g : ImgSrc := { mem := s.mem, base := base }
  match step1 g with
  | some e => .error e
  | none =>
  match step2 g with
  | some e => .error e
  | none =>
  match step3 g s.mgmt.lifecycle s.mgmt.keys with
  | some e => .error e
  | none =>
  match step4 g with
  | some e => .error e
  | none =>
  match step5 g with
  | some e => .error e
  | none =>
    let im := parseImage s g
    match firstFail [step6 im.part im.chains, step7 im.part im.chains,
        step8 s im.part im.chains im.progs im.travs im.wrefs im.resis, step9 s (g.at 0x18 1) im.minPlk im.chains,
        step10 s im.chains] with
    | some e => .error e
    | none => .ok im

end Sys2Proof.Machine
end

