-- ==== Sys2Proof/Machine/MemOps.lean ====
section
/-! DEFINITION. Memory outside the engine, the Shared Field, micro-TLBs and memory-port requests: the shared operations by which
units read and write ("Address Translation and Page Faults", "Stream Engines and Data Movement"). -/

namespace Sys2Proof.Machine

/-! ### Memory at I/O virtual addresses -/

/-- `n` bytes of memory (R10). -/
def State.memGet (s : State) (a n : Nat) : List Byte := bytesAt s.mem a n

/-- A little-endian value of memory. -/
def State.memNat (s : State) (a n : Nat) : Nat := leAt s.mem a n

/-- The lane core without the cache lines that `n` bytes at `a` touch (R391). -/
def LaneCore.drop (l : LaneCore) (a n : Nat) : LaneCore :=
  { l with cache := l.cache.filter (fun c => n = 0 || (a + n - 1) / 128 < c.1 || c.1 < a / 128) }

/-- Memory holds other bytes from `a` upwards: the write is visible to every lane core, so their cache lines of these bytes are invalid
(R391). -/
def State.memStore (s : State) (a : Nat) (bs : List Byte) : State :=
  { s with mem := putBytes s.mem a bs, lcs := s.lcs.map (fun l => l.drop a bs.length) }

/-- Memory written from `a` upwards, and seen on the port. -/
def State.memPut (s : State) (a : Nat) (bs : List Byte) : State := (s.memStore a bs).emit (.memWrite a bs)

/-! ### The Shared Field -/

/-- Whether bank `b` is fenced. -/
def State.bankFenced (s : State) (b : Nat) : Bool :=
  if b < 32 then bit (s.get F.rasFencedSfLo) b else bit (s.get F.rasFencedSfHi) (b - 32)

/-- The bank of the line at Shared Field byte address `a`: the (j mod B′)-th bank in service of its domain (R603, R656). -/
def State.sfBank (s : State) (a : Nat) : Nat :=
  let u := a / 65536
  let d := if u < 252 then 17 else if u < 504 then 18 else 19
  let (u0, _, b0, n) := sfDomain d
  let up := ((List.range n).map (b0 + ·)).filter (fun b => !s.bankFenced b)
  (up[(a / 64 - u0 * 1024) % (max up.length 1)]?).getD b0

/-- `n` bytes of the Shared Field. -/
def State.sfGet (s : State) (a n : Nat) : List Byte := bytesAt s.sf a n

/-- The 64 B lines that `n` bytes from `a` touch. -/
def linesOf (a n : Nat) : List Nat := if n = 0 then [] else (List.range ((a + n - 1) / 64 - a / 64 + 1)).map (a / 64 + ·)

/-- The bank of the first poisoned line among `n` bytes from `a`, if any (R655). -/
def State.sfPoisonAt (s : State) (a n : Nat) : Option Nat :=
  ((linesOf a n).find? (fun l => s.sfPoison.contains l)).map (fun l => s.sfBank (64 * l))

/-- Data accesses of unit `u` of class `c` to `n` bytes at `a`: SF_ACCESS counts 1 per 64 B access (Table 152a). -/
def State.sfTouch (s : State) (u : EUnit) (c : Option Nat) (a n : Nat) : State := s.perf 9 u c (linesOf a n).length

/-- The Shared Field written from `a` upwards; a write of a whole 64 B line clears its poison (R655). -/
def State.sfStore (s : State) (a : Nat) (bs : List Byte) : State :=
  let whole := (linesOf a bs.length).filter (fun l => a ≤ 64 * l && 64 * l + 64 ≤ a + bs.length)
  { s with sf := putBytes s.sf a bs, sfPoison := s.sfPoison.filter (fun l => !whole.contains l) }

/-- A write of the Shared Field by unit `u`, counted. -/
def State.sfPut (s : State) (u : EUnit) (c : Option Nat) (a : Nat) (bs : List Byte) : State :=
  (s.sfTouch u c a bs.length).sfStore a bs

/-- Whether every one of `n` bytes at `a` of the Shared Field lies in a region of the given kinds (R70): regions are made of 64 KiB
units, so each unit that the bytes touch does. -/
def State.sfInRegion (s : State) (kinds : List Nat) (a n : Nat) : Bool :=
  match s.active with
  | some im => (List.range ((a + n - 1) / 65536 - a / 65536 + 1)).all (fun i => im.part.regions.any (fun r =>
      kinds.contains r.kind && r.start ≤ a / 65536 + i && a / 65536 + i < r.start + r.size))
  | none => false

/-- The Shared Field address of byte `off` of regions laid end to end (R69, R380). -/
def spanAddr : List Region → Nat → Nat
  | [], _ => 0
  | r :: rest, off => if off < 65536 * r.size then 65536 * r.start + off else spanAddr rest (off - 65536 * r.size)

/-- The regions of a kind in the active image, in index order. -/
def State.regionsOf (s : State) (kind : Nat) : List Region :=
  match s.active with | some im => im.part.regions.filter (fun r => r.kind == kind) | none => []

/-! ### Requesters and micro-TLBs -/

/-- The transfers a stream engine holds outstanding: those of its run and those of service requests (R456). -/
def State.seOutstanding (s : State) (e : Nat) : Nat :=
  match s.ses[e]? with
  | some t => t.service + (match t.active with | .run r => r.xfers.length | _ => 0)
  | none => 0

/-- The stream engine that takes a service request: in service, fewest transfers outstanding, lowest index (R251). -/
def State.serviceSe (s : State) : Option (Fin 16) :=
  leastBy (fun a b => s.seOutstanding a.val < s.seOutstanding b.val) ((List.finRange 16).filter (fun e => s.inService (.se e)))

/-- The requester of an access (Table 131, R515), when its access names one; other accesses are service requests. -/
def accessUnit (a : Access) : Option Nat :=
  match a with
  | .run e => some e.val
  | .armDesc e => some e.val
  | .lane lc _ _ => some (48 + lc.val)
  | .copy lc _ _ => some (48 + lc.val)
  | .code lc _ => some (48 + lc.val)
  | _ => none

/-- The micro-TLB of a requester. -/
def State.tlb (s : State) (req : Nat) : List TlbEntry := (s.tlbs[req]?).getD []

/-- The bytes of a translation page size (R759). -/
def pageBytes (size : Nat) : Nat := match size with | 0 => 0x1000 | 1 => 0x10000 | 2 => 0x200000 | _ => 0x40000000

/-- Whether an entry covers the 4 KiB page `p`. -/
def TlbEntry.covers (e : TlbEntry) (p : Nat) : Bool := p * 4096 / pageBytes e.size == e.page * 4096 / pageBytes e.size

/-- The unblocked entry of a requester's micro-TLB that covers a page and permits the access (R500, R507). -/
def State.tlbHit (s : State) (req p : Nat) (write : Bool) : Option TlbEntry :=
  (s.tlb req).find? (fun e => e.covers p && !e.blocked && (if write then e.writeOk else e.readOk))

/-- The physical address of I/O virtual address `a` under a requester's micro-TLB, by an unblocked entry before a blocked one (R507); the
address itself while no entry stands. -/
def State.physical (s : State) (req a : Nat) : Nat :=
  let l := (s.tlb req).filter (fun e => e.covers (a / 4096))
  match (l.filter (fun e => !e.blocked) ++ l).head? with
  | some e => e.pa * 4096 / pageBytes e.size * pageBytes e.size + a % pageBytes e.size
  | none => a % 2 ^ 52

/-! ### Memory-port requests -/

/-- The entry of a requester's micro-TLB that covers a page becomes its most recently used (R500). -/
def State.tlbTouch (s : State) (req p : Nat) : State :=
  { s with tlbs := modifyAt (fun l => l.filter (fun e => !e.covers p) ++ l.filter (fun e => e.covers p)) req s.tlbs }

/-- The requester of an access: its own, or for a service request the engine of R251. -/
def State.requester (s : State) (acc : Access) : Nat :=
  match accessUnit acc with
  | some r => r
  | none => match s.serviceSe with | some e => e.val | none => 0

/-- The requests of a queue with one more in its place by the order in which they were made (R480, R654). -/
def insertReq (r : MemReq) : List MemReq → List MemReq
  | [] => [r]
  | q :: rest => if r.seq < q.seq then r :: q :: rest else q :: insertReq r rest

/-- A request joins the queue of the port that carries its physical address (R24), in the order in which it was made. -/
def State.portPush (s : State) (r : MemReq) : State :=
  match s.portOf r.pa with
  | some p => { s with ports := modifyAt (fun m => { m with queue := insertReq r m.queue }) p.val s.ports }
  | none => s

/-- The 64 B sectors that `n` bytes at an address touch. -/
def sectorsOf (a n : Nat) : List Nat := (linesOf a n).map (64 * ·)

/-- One request of a requester for a 64 B sector joins the queue of its port (R24, R473). -/
def State.requestBy (s : State) (req : Nat) (acc : Access) (write prefetch remote : Bool) (x : Nat) : State :=
  let r : MemReq := { seq := s.nextReq, addr := x, pa := s.physical req x, ready := (s.tlbHit req (x / 4096) write).isSome, write := write,
                      prefetch := prefetch, remote := remote, req := req, stale := [], acc := acc }
  (State.portPush { s with nextReq := s.nextReq + 1 } r).tlbTouch req (x / 4096)

/-- The requests of 64 B sectors for `len` bytes at `a` join the queues of their ports (R24, R473). -/
def State.request (s : State) (acc : Access) (a len : Nat) (write prefetch : Bool) : State :=
  let req := s.requester acc
  (sectorsOf a len).foldl (fun s x => s.requestBy req acc write prefetch false x) s

/-! ### Hot pages (R523–R525) -/

/-- The index of the entry with the lowest count, the lowest index on ties. -/
def coldest (l : List HotEntry) : Nat :=
  (leastBy (fun (a b : HotEntry × Nat) => decide (a.1.count < b.1.count)) (l.zip (List.range l.length))).elim 0 (fun e => e.2)

/-- `k` sectors of a requester's accesses to the region of address `a` count for it, one after another (R523–R525). -/
def State.hotCount (s : State) (a k : Nat) : State :=
  if !s.flag F.xlatHotCfgEn || k = 0 then s
  else
    let region := a / 65536
    let th := s.get F.xlatHotCfgThreshold
    let old := s.hot.find? (fun e => e.region == region)
    let before := match old with | some e => e.count | none => 0
    let n := min (before + k) 0xFFFF
    let was := match old with | some e => e.flagged | none => false
    let hits := !was && decide (n ≥ th)
    let e : HotEntry := { region := region, count := n, flagged := was || hits }
    let s : State := { s with hot := match old with
      | some _ => s.hot.map (fun x => if x.region == region then e else x)
      | none => if s.hot.length < 4096 then s.hot ++ [e] else modifyAt (fun _ => e) (coldest s.hot) s.hot }
    if !hits then s
    else
      let s := s.raise intXlat
      if s.hotFifo.length < 32 then { s with hotFifo := s.hotFifo ++ [(region, max th (min (before + 1) 0xFFFF))] } else s.bump F.xlatHotDropped 1

/-! ### Accesses that one command makes (R24, R475, R497, R499, R523)

An access whose data one command brings, or which one command performs, passes through the micro-TLB of its requester and through the
memory ports within that command: it can be made only where every page is mapped and every port that carries a part of it has a tag
free, and it counts there as any other access does.  It takes its tags and gives them back within the command (log entry 84). -/

/-- The tags that a port may have outstanding (R475, R476). -/
def State.tagLimit (s : State) : Nat := if s.tagLimited then 128 else 2048

/-- The pages of 4 KiB that `n` bytes at `a` touch, each with the number of 64 B sectors in it. -/
def pagesOf (a n : Nat) : List (Nat × Nat) :=
  if n = 0 then []
  else
    let f := a / 64
    let l := (a + n - 1) / 64
    (List.range (l / 64 - f / 64 + 1)).map (fun i => let p := f / 64 + i; (p, min l (64 * p + 63) + 1 - max f (64 * p)))

/-- Whether a requester's micro-TLB maps every page of `n` bytes at `a` (R499, R500), and a port in service has a tag free for each.  Of an
access to more pages than a micro-TLB has entries, these are the last 16: the others have been mapped and replaced (log entry 84). -/
def State.maps (s : State) (req a n : Nat) (write : Bool) : Bool :=
  let l := pagesOf a n
  (l.drop (l.length - 16)).all (fun p => (s.tlbHit req p.1 write).isSome &&
    (match s.portOf (s.physical req (4096 * p.1)) with
    | some q => (match s.ports[q.val]? with | some m => decide (m.tags.length < s.tagLimit) | none => false)
    | none => false))

/-- The requesters that may make an access (Table 131): the unit that it names, a cluster of the group for a neural weight block, and for a
service request the engine of R251, or another in service, since the engine was chosen when the request was made. -/
def State.requesters (s : State) (acc : Access) : List Nat :=
  match accessUnit acc, acc with
  | some r, _ => [r]
  | none, .neural tg _ => (List.range 4).map (fun i => 16 + 4 * tg.val + i)
  | none, _ => s.requester acc :: ((List.finRange 16).filter (fun e => s.inService (.se e))).map (fun e => e.val)

/-- The requester that can make an access to `n` bytes at `a` now. -/
def State.maker (s : State) (acc : Access) (a n : Nat) (write : Bool) : Option Nat :=
  (s.requesters acc).find? (fun r => s.maps r a n write)

/-- Whether an access can be made now. -/
def State.reaches (s : State) (acc : Access) (a n : Nat) (write : Bool) : Bool := (s.maker acc a n write).isSome

/-- The sectors of one page pass through their memory port, in a read, write or remote slot, and count there and for the region. -/
def State.carryPage (s : State) (req cls : Nat) (write remote : Bool) (p : Nat × Nat) : State :=
  let s := s.tlbTouch req p.1
  match s.portOf (s.physical req (4096 * p.1)) with
  | none => s
  | some q =>
    let f := if remote then F.mpRmSectors q.val else if write then F.mpWrSectors q.val else F.mpRdSectors q.val
    let s := (s.bump f p.2).perf (if write then 11 else 10) (.mp q) (some cls) p.2
    if remote then s else s.hotCount (4096 * p.1) p.2

/-- `n` bytes at `a` pass through the memory ports for a requester of class `cls`. -/
def State.carry (s : State) (req cls a n : Nat) (write remote : Bool) : State :=
  (pagesOf a n).foldl (fun s p => s.carryPage req cls write remote p) s

/-- The bytes that a stream engine has moved for service requests (Table 125, SE_BYTES). -/
def State.seMoved (s : State) (req n : Nat) : State := if req < 16 then s.tally2 (F.seBytesLo req) (F.seBytesHi req) n else s

/-- An access is made: it passes through the ports for the requester that can make it, and a service request counts its bytes. -/
def State.access (s : State) (acc : Access) (cls a n : Nat) (write : Bool) : State :=
  let r := (s.maker acc a n write).getD (s.requester acc)
  (s.carry r cls a n write false).seMoved r n

/-- A response with POISON or ERROR to an access at an address: UNC_DATA with store 6, naming the memory port (R758). -/
def State.uncRead (s : State) (acc : Access) (a : Nat) : State :=
  let pa := s.physical (s.requester acc) a
  s.capture 2 ((s.portOf pa).map (fun p => EUnit.mp p)) (6 * 2 ^ 28 + pa / 64 % 2 ^ 28)

/-- Whether an access waits on an open fault record (R513). -/
def State.waits (s : State) (acc : Access) : Bool := s.fwaits.any (fun w => w.acc == acc)

/-- Whether a read of `n` bytes at `a` can end with an outcome now: it waits on no fault record, and, unless it is aborted, it can be made. -/
def State.readable (s : State) (acc : Access) (a n : Nat) (o : ReadOutcome) : Bool :=
  !s.waits acc && (o == .abort || s.reaches acc a n false)

/-- A read has ended: it was made, and found uncorrectable under `.unc`; an aborted one was never made. -/
def State.readEnds (s : State) (acc : Access) (cls a n : Nat) (o : ReadOutcome) : State :=
  match o with
  | .ok => s.access acc cls a n false
  | .unc => (s.access acc cls a n false).uncRead acc a
  | .abort => s

end Sys2Proof.Machine
end

