-- ==== Sys2Proof/Machine/CacheOps.lean ====
section
/-! DEFINITION. Node and spill caches of the traversal clusters: accesses, replacement, fills, evictions, maintenance and parity
("Node and Spill Caches"). -/

namespace Sys2Proof.Machine

/-! ### Replacement (R536) -/

/-- Whether any usable leaf stands below node `k` of a tree with `n` leaves. -/
def usableBelow (n k : Nat) (usable : List Nat) : Bool :=
  usable.any (fun e => (List.range 8).any (fun i => (e + n) >>> i == k))

/-- The victim that the tree points to among the usable leaves; `keys` holds the nodes whose bit is 1. -/
def treeWalk (n : Nat) (keys usable : List Nat) : Nat → Nat → Nat
  | 0, k => k - n
  | fuel + 1, k =>
    if k ≥ n then k - n
    else
      let c := 2 * k + boolNat (keys.contains k)
      let c := if usableBelow n c usable then c else 2 * k + boolNat (!keys.contains k)
      treeWalk n keys usable fuel c

/-- The tree after a hit or fill of leaf `e`: every node on its path points away. -/
def treeTouch (n e : Nat) (keys : List Nat) : List Nat :=
  let path := (List.range 8).filterMap (fun i => if (e + n) >>> i > 1 then some ((e + n) >>> i) else none)
  path.foldl (fun ks k => let p := k / 2; let ks := ks.filter (· != p); if k % 2 = 0 then ks ++ [p] else ks) keys

/-- The caches of cluster `tc`. -/
def State.cachesOf (s : State) (tc : Nat) : Caches := (s.caches[tc]?).getD Caches.init

/-- The state with the caches of one cluster changed. -/
def State.modCaches (s : State) (tc : Nat) (f : Caches → Caches) : State := { s with caches := modifyAt f tc s.caches }

/-- A traversal cluster as a unit. -/
def tcUnit (tc : Nat) : EUnit := .tc ⟨tc % 32, Nat.mod_lt _ (by decide)⟩

/-! ### Node cache -/

/-- The set of a Treelet Store line (R532). -/
def ncSet (slot line : Nat) : Nat := (line % 128) ^^^ (slot % 128)

/-- The index of a node-cache line that holds a Treelet Store line, if any. -/
def Caches.ncFind (c : Caches) (slot line : Nat) : Option (Nat × NcLine) :=
  c.nc.find? (fun e => e.2.slot == slot && e.2.line == line)

/-- The tree nodes of one set. -/
def ncKeys (tree : List Nat) (set : Nat) : List Nat := (tree.filter (fun k => k / 4 == set)).map (· % 4)

/-- The tree bits after a touch of way `w` of a set. -/
def ncTouch (tree : List Nat) (set w : Nat) : List Nat :=
  tree.filter (fun k => k / 4 != set) ++ (treeTouch 4 w (ncKeys tree set)).map (fun k => 4 * set + k)

/-- 128 bytes of the Treelet Store. -/
def State.tsLine (s : State) (slot line : Nat) : List Byte := bytesAt s.ts (slot * 65536 + 128 * line) 128

/-- A way that a miss in a set may take: the lowest invalid one, else the tree's victim; none while every way is being filled. -/
def Caches.ncVictim (c : Caches) (set : Nat) : Option Nat :=
  let held := fun w => c.nc.find? (fun e => e.1 == 4 * set + w)
  match (List.range 4).find? (fun w => (held w).isNone) with
  | some w => some w
  | none =>
    let usable := (List.range 4).filter (fun w => match held w with | some e => !e.2.filling | none => true)
    if usable.isEmpty then none else some (treeWalk 4 (ncKeys c.ncTree set) usable 4 1)

/-- One line access by requester `r`: hit, or a miss that blocks the requester (R534). -/
def State.ncLine (s : State) (tc r slot line : Nat) : Bool × State :=
  let c := s.cachesOf tc
  let key := slot * 512 + line
  match c.ncFind slot line with
  | some (i, l) =>
    if l.filling then
      (false, (s.modCaches tc (fun c => { c with ncMiss := c.ncMiss ++ [(r, key)], ncGot := c.ncGot ++ [(r, key)] })).bump F.cmNcMiss 1)
    else if c.ncGot.contains (r, key) then (true, s)
    else
      let tree := ncTouch c.ncTree (i / 4) (i % 4)
      (true, (s.modCaches tc (fun c => { c with ncTree := tree, ncGot := c.ncGot ++ [(r, key)] })).bump F.cmNcHit 1)
  | none =>
    let set := ncSet slot line
    match c.ncVictim set with
    | none => (false, s)
    | some w =>
      let e := (4 * set + w, { slot := slot, line := line, filling := true, data := [] : NcLine })
      (false, (s.modCaches tc (fun c =>
        { c with nc := c.nc.filter (fun x => x.1 != 4 * set + w) ++ [e], ncMiss := c.ncMiss ++ [(r, key)],
                 ncGot := c.ncGot ++ [(r, key)] })).bump F.cmNcMiss 1)

/-- The lines accessed in turn until one misses. -/
def State.ncLines (s : State) (tc r slot : Nat) : List Nat → Bool × State
  | [] => (true, s)
  | l :: rest => match s.ncLine tc r slot l with
    | (true, s) => s.ncLines tc r slot rest
    | (false, s) => (false, s)

/-- Whether a read of `n` bytes at offset `off` of a Treelet Store slot meets a line that holds an uncorrectable error and that the
cluster's node cache does not hold (R641, R660). -/
def State.tsBad (s : State) (tc slot off n : Nat) : Bool :=
  s.tsPoison.any (fun l => l / 1024 == slot && off / 64 ≤ l % 1024 && l % 1024 ≤ (off + n - 1) / 64 &&
    !(bit (s.get F.cmNcOn) tc && (match (s.cachesOf tc).ncFind slot (l % 1024 / 2) with | some (_, x) => !x.filling | none => false)))

/-- The lines `ls` of a Treelet Store slot read by requester `r` of a cluster in one access: their bytes one after another, or none while
one is missing (R533, R534).  A disabled node cache reads the Treelet Store (R556). -/
def State.ncGather (s : State) (tc r slot : Nat) (ls : List Nat) : Option (List Byte) × State :=
  if ls.isEmpty then (some [], s)
  else if !bit (s.get F.cmNcOn) tc then (some (ls.flatMap (s.tsLine slot)), s)
  else if (s.cachesOf tc).ncMiss.any (fun m => m.1 == r) then (none, s)
  else
    match s.ncLines tc r slot ls with
    | (false, s) => (none, s)
    | (true, s) =>
      let c := s.cachesOf tc
      (some (ls.flatMap (fun l => match c.ncFind slot l with | some (_, x) => x.data | none => [])),
       s.modCaches tc (fun c => { c with ncGot := c.ncGot.filter (fun g => g.1 != r) }))

/-- `n` bytes at offset `off` of a Treelet Store slot read by requester `r` of a cluster, or none while a line of them is missing. -/
def State.ncRead (s : State) (tc r slot off n : Nat) : Option (List Byte) × State :=
  match s.ncGather tc r slot ((List.range ((off + n + 127) / 128 - off / 128)).map (off / 128 + ·)) with
  | (some all, s) => (some ((all.drop (off % 128)).take n), s)
  | (none, s) => (none, s)

/-- NC_FILL_DONE: the fill that requester `r` waits for arrives, for it and for every requester that joined it (R534). -/
def State.ncFillDone (s : State) (tc r : Nat) : State :=
  let c := s.cachesOf tc
  match c.ncMiss.find? (fun m => m.1 == r) with
  | none => s
  | some (_, key) =>
    let data := s.tsLine (key / 512) (key % 512)
    s.modCaches tc (fun c =>
      let at' := fun (l : NcLine) => l.slot * 512 + l.line == key
      let tree := match c.nc.find? (fun e => at' e.2) with | some e => ncTouch c.ncTree (e.1 / 4) (e.1 % 4) | none => c.ncTree
      { c with nc := c.nc.map (fun e => if at' e.2 then (e.1, { e.2 with filling := false, data := data }) else e),
               ncMiss := c.ncMiss.filter (fun m => m.2 != key), ncTree := tree })

/-- A Treelet Store slot enters FETCHING: its lines leave every enabled node cache (R535), and a disabled one that holds a valid line
is marked stale (R557). -/
def State.ncSlotFetching (s : State) (slot : Nat) : State :=
  (List.range 32).foldl (fun s tc =>
    if bit (s.get F.cmNcOn) tc then s.modCaches tc (fun c => { c with nc := c.nc.filter (fun e => e.2.slot != slot) })
    else if (s.cachesOf tc).nc.any (fun e => !e.2.filling) then s.setBit F.cmNcStale tc true
    else s) s

/-- Image activation: every line of every enabled node cache is invalidated, a disabled one that holds a line is marked stale
(R535, R557). -/
def State.ncActivate (s : State) : State :=
  (List.range 32).foldl (fun s tc =>
    if bit (s.get F.cmNcOn) tc then s.modCaches tc (fun c => { c with nc := [], ncMiss := [], ncGot := [] })
    else if (s.cachesOf tc).nc.any (fun e => !e.2.filling) then s.setBit F.cmNcStale tc true
    else s) s

/-! ### Spill cache -/

/-- SPC_MASK(r). -/
def State.spcMask (s : State) (r : Nat) : Nat := s.get (F.spcMaskLo r) + 2 ^ 32 * s.get (F.spcMaskHi r)

/-- The entries locked to `r`, and the shared ones (R540). -/
def State.spcLocked (s : State) (r : Nat) : List Nat := (List.range 48).filter (fun e => bit (s.spcMask r) e)
def State.spcShared (s : State) : List Nat :=
  (List.range 48).filter (fun e => !(List.range 5).any (fun r => bit (s.spcMask r) e))

/-- The entry that a miss by `r` takes (R541). -/
def State.spcVictim (s : State) (tc r : Nat) : Option Nat :=
  let c := s.cachesOf tc
  let held := fun e => c.spc.find? (fun x => x.1 == e)
  match (s.spcLocked r).find? (fun e => (held e).isNone) with
  | some e => some e
  | none =>
    match s.spcShared.find? (fun e => (held e).isNone) with
    | some e => some e
    | none =>
      let usable := (s.spcLocked r ++ s.spcShared).filter (fun e => match held e with | some x => !x.2.filling | none => true)
      if usable.isEmpty then none else some (treeWalk 64 c.spcTree usable 8 1)

/-- What a spill line comes to hold when it is written: its form is internal, so that its bytes are free values (R196). -/
def State.freeLine (s : State) : List Byte × State :=
  ((List.range 4).flatMap (fun i => leBytes 32 (Config.freeValue (s.freeCtr + i)).toNat), { s with freeCtr := s.freeCtr + 4 })

/-- The oldest line of the eviction buffer reaches the Shared Field (R543). -/
def State.evictOne (s : State) (tc : Nat) : State :=
  match (s.cachesOf tc).evict with
  | [] => s
  | (a, _, bs) :: r =>
    ((s.modCaches tc (fun c => { c with evict := modifyAt (fun e => (e.1, true, e.2.2)) 0 r })).bump F.cmSpcWb 1).sfPut (tcUnit tc) none a bs

/-- A dirty line enters the eviction buffer; when the buffer is full its oldest line goes out first. -/
def State.evictPush (s : State) (tc a : Nat) (bs : List Byte) : State :=
  let s := if (s.cachesOf tc).evict.length ≥ 4 then s.evictOne tc else s
  s.modCaches tc (fun c => { c with evict := c.evict ++ [(a, c.evict.isEmpty, bs)] })

/-- Every line of the eviction buffer reaches the Shared Field. -/
def State.evictAll (s : State) (tc : Nat) : State := (List.range (s.cachesOf tc).evict.length).foldl (fun s _ => s.evictOne tc) s

/-- One spill-line access by requester `r` (R538, R541–R544): `begin_` marks the write that begins a line.  An access given again after a
miss is the same access: it neither counts nor touches the tree again (R536). -/
def State.spcLine (s : State) (tc r a : Nat) (write begin_ : Bool) : Bool × State :=
  let c := s.cachesOf tc
  let again := c.spcGot.contains (r, a)
  let got := fun (c : Caches) => if again then c.spcGot else c.spcGot ++ [(r, a)]
  match c.spc.find? (fun e => e.2.addr == a) with
  | some (i, l) =>
    if l.filling then
      (false, (s.modCaches tc (fun c => { c with spcMiss := c.spcMiss ++ [(r, a)], spcGot := got c })).bump F.cmSpcMiss 1)
    else
      let (bs, s) := if write then s.freeLine else (l.data, s)
      let s := s.modCaches tc (fun c =>
        { c with spc := c.spc.map (fun e => if e.1 == i && write then (i, { e.2 with dirty := true, data := bs }) else e),
                 spcTree := if again then c.spcTree else treeTouch 64 i c.spcTree, spcGot := got c })
      (true, if again then s else s.bump F.cmSpcHit 1)
  | none =>
    match s.spcVictim tc r with
    | none => (false, s)
    | some e =>
      let old := c.spc.find? (fun x => x.1 == e)
      let dirty := match old with | some x => x.2.dirty | none => false
      if dirty && c.evict.length ≥ 4 then (false, s)
      else
        let s := match old with
          | some x => if dirty then s.modCaches tc (fun c => { c with evict := c.evict ++ [(x.2.addr, c.evict.isEmpty, x.2.data)] }) else s
          | none => s
        let snoop := (s.cachesOf tc).evict.find? (fun x => x.1 == a)
        let fill := snoop.isNone && !begin_
        let s := match snoop with
          | some x => (if x.2.1 then s else s.modCaches tc (fun c => { c with evict := c.evict.filter (fun y => y.1 != a) })).bump F.cmSpcSnoop 1
          | none => s
        let (bs, s) := match snoop with
          | some x => if write then s.freeLine else (x.2.2, s)
          | none => if write && begin_ then s.freeLine else ([], s)
        let line : SpcLine := { addr := a, dirty := snoop.isSome || (write && begin_), filling := fill, data := bs }
        let s := (s.modCaches tc (fun c =>
          { c with spc := c.spc.filter (fun x => x.1 != e) ++ [(e, line)],
                   spcTree := if fill then c.spcTree else treeTouch 64 e c.spcTree,
                   spcMiss := if fill then c.spcMiss ++ [(r, a)] else c.spcMiss,
                   spcGot := got c })).bump F.cmSpcMiss 1
        (!fill, s)

/-- Spill-line accesses made in turn until one must wait: (address, write, begins the line). -/
def State.spcLines (s : State) (tc r : Nat) : List (Nat × Bool × Bool) → Bool × State
  | [] => (true, s.modCaches tc (fun c => { c with spcGot := c.spcGot.filter (fun g => g.1 != r) }))
  | (a, w, b) :: rest =>
    let first := !(s.cachesOf tc).spcGot.contains (r, a)
    match s.spcLine tc r a w (b && first) with
    | (true, s) => s.spcLines tc r rest
    | (false, s) => (false, s)

/-- The spill-line accesses of a step: they may go on at once when the cache is disabled (R556), and wait while the requester has a
miss outstanding. -/
def State.spcAccess (s : State) (tc r : Nat) (l : List (Nat × Bool × Bool)) : Bool × State :=
  if l.isEmpty then (true, s)
  else if !bit (s.get F.cmSpcOn) tc then
    (true, l.foldl (fun s e =>
      if e.2.1 then (let (bs, s) := s.freeLine; s.sfPut (tcUnit tc) none e.1 bs) else s.sfTouch (tcUnit tc) none e.1 128) s)
  else if (s.cachesOf tc).spcMiss.any (fun m => m.1 == r) then (false, s)
  else s.spcLines tc r l

/-- The first of some spill-line accesses that would read a poisoned line of the Shared Field (R655): one that no cache line, no evicted
line and no beginning write answers. -/
def State.spillPoison (s : State) (tc : Nat) (l : List (Nat × Bool × Bool)) : Option Nat :=
  let c := s.cachesOf tc
  (l.find? (fun e => !e.2.2 && (!bit (s.get F.cmSpcOn) tc && !e.2.1 ||
    bit (s.get F.cmSpcOn) tc && !c.spc.any (fun x => x.2.addr == e.1 && !x.2.filling) && !c.evict.any (fun x => x.1 == e.1)) &&
    (s.sfPoisonAt e.1 128).isSome)).map (fun e => e.1)

/-- SPC_FILL_DONE: the line that requester `r` waits for arrives from the Shared Field (R538); a poisoned line does not stand, and its
reader meets the poison when it asks again (R655). -/
def State.spcFillDone (s : State) (tc r : Nat) : State :=
  let c := s.cachesOf tc
  match c.spcMiss.find? (fun m => m.1 == r) with
  | none => s
  | some (_, a) =>
    let bad := (s.sfPoisonAt a 128).isSome
    let bs := s.sfGet a 128
    (s.modCaches tc (fun c =>
      let tree := match c.spc.find? (fun e => e.2.addr == a) with | some e => treeTouch 64 e.1 c.spcTree | none => c.spcTree
      { c with spc := if bad then c.spc.filter (fun e => e.2.addr != a)
                      else c.spc.map (fun e => if e.2.addr == a then (e.1, { e.2 with filling := false, data := bs }) else e),
               spcMiss := c.spcMiss.filter (fun m => m.2 != a), spcTree := if bad then c.spcTree else tree })).sfTouch (tcUnit tc) none a 128

/-! ### Homes (R196, R537)

A home is a place of 14 lines in the RAYQ regions, laid end to end: lines 0–7 hold the stack, 8 and 9 the state of a suspended item, 10–13 the
list of a query.  Which free place a ray gets is the engine's choice. -/

/-- The places for homes. -/
def State.homePlaces (s : State) : Nat := ((s.regionsOf 2).foldl (fun n r => n + 512 * r.size) 0) / 14

/-- The Shared Field address of line `j` of a ray's home. -/
def State.spillAddr (s : State) (r : Ray) (j : Nat) : Nat := spanAddr (s.regionsOf 2) (128 * (14 * r.home.getD 0 + j))

/-- A ray that a cluster takes has a home: the one it brought, or a free one. -/
def State.giveHome (s : State) (id : Nat) : State :=
  match s.ray id with
  | none => s
  | some r =>
    let n := s.homePlaces
    if r.home.isSome || n = 0 then s
    else
      let (k, s) := s.draw
      let used := s.rays.filterMap (fun r => r.home)
      let h := ((List.range (used.length + 1)).map (fun i => (Config.pick k n + i) % n)).find? (fun i => !used.contains i)
      s.modRay id (fun r => { r with home := some (h.getD 0), lines := 0 })

/-- The spill lines of an item leave a cluster's cache: written to the Shared Field first when the item goes on to another queue or to a
peer, without writing them back when it ends (R539). -/
def State.spcRelease (s : State) (tc ray : Nat) (clean : Bool) : State :=
  match s.ray ray with
  | none => s
  | some r =>
    let mine := if r.home.isSome then (List.range 14).map (s.spillAddr r) else []
    let c := s.cachesOf tc
    let dirty := (c.spc.filter (fun e => mine.contains e.2.addr && e.2.dirty)).map (fun e => (e.2.addr, e.2.data))
    let s := if clean then State.evictAll (dirty.foldl (fun s e => s.evictPush tc e.1 e.2) s) tc else s
    s.modCaches tc (fun c => { c with spc := c.spc.filter (fun e => !mine.contains e.2.addr),
                                      spcMiss := c.spcMiss.filter (fun m => !mine.contains m.2) })

/-! ### Maintenance -/

/-- Whether a cluster holds a ray or query in a context, in a batch or suspended (R546). -/
def State.tcHolds (s : State) (tc : Nat) : Bool :=
  s.rays.any (fun r => r.tc == tc && (r.loc == .batch || r.loc == .ctx || r.loc == .callout || r.loc == .neural))

/-- Whether maintenance reaches a cluster: in service and powered (R551). -/
def State.cmReaches (s : State) (tc : Nat) : Bool := s.domOn (21 + tc / 4) && !s.fenced (tcUnit tc)

/-- The clusters that a CM_CMD word names. -/
def cmClusters (w : Nat) : List Nat := if bit w 8 then List.range 32 else [w % 32]

/-- Whether a line address (in units of 128 B) is in the scope of an operation, for the entry `e` that holds it. -/
def CmOp.inScope (o : CmOp) (e line : Nat) : Bool :=
  match bits o.word 12 2 with
  | 0 => decide (o.addr ≤ line) && decide (line < o.addr + o.lines)
  | 1 => decide (e = o.entry)
  | _ => true

/-- Whether the operands of an operation are out of range (Table 140). -/
def CmOp.badArg (o : CmOp) : Bool :=
  let spill := bit o.word 9
  let scope := bits o.word 12 2
  scope == 3 || bits o.word 10 2 == 0 || (scope == 1 && spill && o.entry ≥ 48) ||
  (scope == 0 && o.addr + o.lines > (if spill then 393216 else 131072))

/-- One cluster's part of an operation on the lines `p` holds of (Table 138); lines being filled are left for later (R549). -/
def State.cmApply (s : State) (o : CmOp) (tc : Nat) : State :=
  let op := bits o.word 10 2
  if bit o.word 9 then
    if op = 2 ∧ s.tcHolds tc = true then s
    else
      let c := s.cachesOf tc
      let hit := fun (e : Nat × SpcLine) => o.inScope e.1 (e.2.addr / 128) && !e.2.filling
      let s := if op = 2 then
          s.modCaches tc (fun c => { c with evict := c.evict.filter (fun x => !o.inScope 99 (x.1 / 128)) })
        else (c.spc.filter (fun e => hit e && e.2.dirty)).foldl (fun s e => s.evictPush tc e.2.addr e.2.data) s
      s.modCaches tc (fun c =>
        { c with spc := if op = 1 then c.spc.map (fun e => if hit e then (e.1, { e.2 with dirty := false }) else e)
                        else c.spc.filter (fun e => !hit e) })
  else if op = 1 then s
  else
    let s := s.modCaches tc (fun c =>
      { c with nc := c.nc.filter (fun e => e.2.filling || !o.inScope e.1 (e.2.slot * 512 + e.2.line)) })
    if bits o.word 12 2 = 2 then s.setBit F.cmNcStale tc false else s

/-- The lines in the scope of an operation that a cluster is filling, as (cluster, line). -/
def State.cmFilling (s : State) (o : CmOp) (tc : Nat) : List (Nat × Nat) :=
  let c := s.cachesOf tc
  if bit o.word 9 then (c.spc.filter (fun e => e.2.filling && o.inScope e.1 (e.2.addr / 128))).map (fun e => (tc, e.2.addr / 128))
  else (c.nc.filter (fun e => e.2.filling && o.inScope e.1 (e.2.slot * 512 + e.2.line))).map (fun e => (tc, e.2.slot * 512 + e.2.line))

/-- Whether a line that an operation has met while it was filled is filled still. -/
def State.cmLate (s : State) (o : CmOp) (x : Nat × Nat) : Bool :=
  let c := s.cachesOf x.1
  if bit o.word 9 then c.spc.any (fun e => e.2.filling && e.2.addr / 128 == x.2)
  else c.nc.any (fun e => e.2.filling && e.2.slot * 512 + e.2.line == x.2)

/-- The operation on one line that has been filled meanwhile (R549). -/
def State.cmLine (s : State) (o : CmOp) (x : Nat × Nat) : State :=
  let one : CmOp := { o with word := withBit (withBit o.word 12 false) 13 false, addr := x.2, lines := 1 }
  s.cmApply one x.1

/-- CM_CMD written with GO: an operation starts with the operands of the moment, or LOST is set (R551). -/
def State.cmStart (s : State) (w : Nat) : State :=
  if s.cmOp.isSome then s.mark F.cmStatusLost
  else
    let o : CmOp := { word := w % 65536, addr := s.get F.cmAddr, lines := s.get F.cmLen, entry := s.get F.cmEntry, busy := false, late := [] }
    let s := s.setAll [(F.cmCmdGo, 1), (F.cmCmdScope, bits w 12 2), (F.cmCmdOp, bits w 10 2), (F.cmCmdCache, bits w 9 1),
      (F.cmCmdAllClusters, bits w 8 1), (F.cmCmdCluster, w)]
    if o.badArg then { s with cmOp := some o }
    else
      let cl := (cmClusters w).filter s.cmReaches
      let refused := fun (tc : Nat) => bit w 9 && bits w 10 2 == 2 && s.tcHolds tc
      let late := (cl.filter (fun tc => !refused tc)).flatMap (s.cmFilling o)
      let s := cl.foldl (fun s tc => s.cmApply o tc) s
      { s with cmOp := some { o with busy := cl.any refused, late := late } }

/-- CM_OP_DONE: the operation completes once the lines that it met while they were filled have arrived, and been processed (R547, R549). -/
def State.cmDone (s : State) : State :=
  match s.cmOp with
  | none => s
  | some o =>
    let w := o.word
    let cl := (cmClusters w).filter s.cmReaches
    if o.late.any (s.cmLate o) then s
    else
      let s := o.late.foldl (fun s x => s.cmLine o x) s
      let s := if o.badArg then s else
        cl.foldl (fun s tc =>
          if bit w 9 && bits w 10 2 != 2 then s.evictAll tc else s) s
      let res := if o.badArg then 2 else if o.busy then 1 else if !bit w 8 && cl.isEmpty then 3 else 0
      { (s.setAll [(F.cmCmdGo, 0), (F.cmStatusDone, 1), (F.cmStatusResult, res)]) with cmOp := none }

/-! ### Parity -/

/-- The first parity error is captured in CM_PAR_INFO and CM_PAR_ADDR (R555). -/
def State.parCapture (s : State) (tc : Nat) (spill dirty tagOk : Bool) (entry line : Nat) : State :=
  if s.flag F.cmParInfoValid then s
  else s.setAll [(F.cmParInfoValid, 1), (F.cmParInfoCluster, tc), (F.cmParInfoCache, boolNat spill),
    (F.cmParInfoDirty, boolNat dirty), (F.cmParInfoTagOk, boolNat tagOk), (F.cmParInfoEntry, entry), (F.cmParAddr, line)]

/-- A parity error in a node-cache line or a clean spill-cache line invalidates it (R553). -/
def State.cacheParity (s : State) (tc : Nat) (spill : Bool) (entry : Nat) (tagOk : Bool) : State :=
  let c := s.cachesOf tc
  if spill then
    match c.spc.find? (fun e => e.1 == entry) with
    | none => s
    | some (_, l) =>
      if l.dirty then s
      else
        let s := s.modCaches tc (fun c => { c with spc := c.spc.filter (fun e => e.1 != entry) })
        ((s.parCapture tc true false tagOk entry (l.addr / 128)).bump F.cmSpcPar 1).capture 1 (some (tcUnit tc)) 0
  else
    match c.nc.find? (fun e => e.1 == entry) with
    | none => s
    | some (_, l) =>
      let s := s.modCaches tc (fun c => { c with nc := c.nc.filter (fun e => e.1 != entry) })
      ((s.parCapture tc false false tagOk entry (l.slot * 512 + l.line)).bump F.cmNcPar 1).capture 1 (some (tcUnit tc)) 0

/-- R542: whether every requester could allocate at least 2 entries under the given masks. -/
def spcMasksOk (masks : List Nat) : Bool :=
  let shared := (List.range 48).filter (fun e => !masks.any (fun m => bit m e))
  masks.all (fun m => popCount 48 m + shared.length ≥ 2)

end Sys2Proof.Machine
end

