-- ==== Sys2Proof/Machine/PlkOps.lean ====
section
/-! DEFINITION. Packets, credits, routing and sending on the peer link: the shared operations of "Peer Link and Multi-Engine
Systems". -/

namespace Sys2Proof.Machine

/-! ### Packets -/

/-- The head flit with CRC and HOPS as given (Table 183). -/
def packetHead (p : Packet) (hops crc : Nat) : List Byte :=
  leBytes 1 p.typ.toNat ++ leBytes 1 (p.cls.val + 4 * boolNat p.rsp + 8 * p.svc.val) ++ leBytes 1 p.len.toNat ++ leBytes 1 hops ++
  leBytes 2 p.dst.toNat ++ leBytes 2 p.src.toNat ++ leBytes 2 p.seq.toNat ++ leBytes 2 p.ack.toNat ++
  (p.credits ++ List.replicate 8 (0 : Byte)).take 8 ++ leBytes 8 p.arg.toNat ++ leBytes 4 crc

/-- The CRC of a packet: CRC and HOPS are taken as zero (R713). -/
def packetCrc (p : Packet) : Nat := crc32c (packetHead p 0 0 ++ p.payload)

/-- The flits of a packet (R711). -/
def packetFlits (p : Packet) : Nat := 1 + p.len.toNat

/-- The credit pool of a packet (Table 183). -/
def packetPool (p : Packet) : Nat := 2 * p.cls.val + boolNat p.rsp

/-- Whether a TYPE is one of the link types (R714). -/
def linkType (t : Nat) : Bool := 1 ≤ t && t ≤ 5

/-- Packet types by name (Table 184). -/
def ptRay : Nat := 0x10
def ptRayAck : Nat := 0x11
def ptHit : Nat := 0x12
def ptQuery : Nat := 0x13
def ptQres : Nat := 0x14
def ptUnreachable : Nat := 0x15
def ptRread : Nat := 0x20
def ptRdata : Nat := 0x21
def ptMcReq : Nat := 0x30
def ptMcTile : Nat := 0x31
def ptMcNak : Nat := 0x32
def ptEvent : Nat := 0x40
def ptTelem : Nat := 0x42
def ptNodeLost : Nat := 0x44

/-- Traffic classes (Table 185). -/
def tcMgmt : Fin 4 := 0
def tcRemote : Fin 4 := 1
def tcRay : Fin 4 := 2
def tcMcast : Fin 4 := 3

/-- Port states (PLK_PORTp.STATE). -/
def psDisabled : Nat := 0
def psDown : Nat := 1
def psInit : Nat := 2
def psUp : Nat := 3
def psLost : Nat := 4

/-! ### Ports and routes -/

/-- The state of port `p`. -/
def State.plkState (s : State) (p : Nat) : Nat := s.get (F.plkPortState p)

/-- Port `p` beside its registers. -/
def State.plkPort (s : State) (p : Nat) : PlkPort := (s.plk.ports[p]?).getD PlkPort.init

/-- The state with port `p` changed. -/
def State.modPlkPort (s : State) (p : Nat) (f : PlkPort → PlkPort) : State :=
  { s with plk := { s.plk with ports := modifyAt f p s.plk.ports } }

/-- Whether port `p` carries sequenced packets (R716). -/
def State.plkUp (s : State) (p : Nat) : Bool :=
  decide (p < s.integ.plkPorts) && s.plkState p == psUp && !s.fenced (.plk ⟨p % 8, Nat.mod_lt _ (by decide)⟩) && s.domOn 4

/-- Whether the routing entry of a node is VALID. -/
def State.routed (s : State) (node : Nat) : Bool := bit (s.get (F.plkRoute (node / 8))) (4 * (node % 8) + 3)

/-- The nodes whose routing entry is VALID. -/
def State.routedNodes (s : State) : List Nat := (List.range 4096).filter s.routed

/-- The port on which a packet for a node leaves (R726), if one is UP and the node is not marked lost (R727). -/
def State.routePort (s : State) (node : Nat) : Option Nat :=
  if !s.routed node || s.plk.lost.contains node then none
  else
    let p := bits (s.get (F.plkRoute (node / 8))) (4 * (node % 8)) 3
    let bad := s.plkState p == psLost || s.fenced (.plk ⟨p % 8, Nat.mod_lt _ (by decide)⟩)
    let alt := s.get F.plkAlt
    let q := if bad && bit alt (4 * p + 3) then bits alt (4 * p) 3 else p
    if s.plkUp q then some q else none

/-! ### Sending -/

/-- CREDITS: per pool, the 8-flit units freed since the port entered UP, modulo 256 (R719). -/
def PlkPort.creditBytes (p : PlkPort) : List Byte := p.freed.map (fun f => BitVec.ofNat 8 (f / 8))

/-- A packet put on port `p` with the ACK and CREDITS of the moment and its CRC. -/
def State.transmit (s : State) (p : Nat) (k : Packet) : State :=
  let t := s.plkPort p
  let k := { k with ack := BitVec.ofNat 12 (t.rxSeq + 4095), credits := t.creditBytes }
  let k := { k with crc := BitVec.ofNat 32 (packetCrc k) }
  ((s.emit (.packet p k)).bump (F.plkTxFlits p) (packetFlits k)).perf 15 (.plk ⟨p % 8, Nat.mod_lt _ (by decide)⟩) none (packetFlits k)

/-- A link packet on port `p`: neither sequenced nor forwarded (R714). -/
def State.linkSend (s : State) (p typ arg : Nat) : State :=
  s.transmit p { typ := BitVec.ofNat 8 typ, cls := 0, rsp := false, svc := 0, len := 0, hops := 0, dst := 0,
                 src := BitVec.ofNat 12 (s.get F.plkNode), seq := 0, ack := 0, credits := [], arg := BitVec.ofNat 64 arg, crc := 0,
                 payload := [] }

/-- Whether the partner's pool has room for a whole packet (R719). -/
def PlkPort.hasCredit (t : PlkPort) (k : Packet) : Bool :=
  let i := packetPool k
  decide ((t.sent[i]?).getD 0 + packetFlits k ≤ 256 + 8 * (t.credit[i]?).getD 0)

/-- Whether the replay buffer has room for a packet (R721). -/
def PlkPort.hasReplay (t : PlkPort) (k : Packet) : Bool :=
  decide (t.replay.foldl (fun n x => n + packetFlits x) 0 + packetFlits k ≤ 2048)

/-- The rank of a waiting packet among those ready (R723): MGMT first, then the class rotation from the class served last, RSP
before REQ, lower service class first. -/
def PlkPort.rank (t : PlkPort) (k : Packet) : Nat :=
  let c := k.cls.val
  let turn := if c = 0 then 0 else 1 + (c + 5 - t.rot) % 3
  (turn * 2 + boolNat (!k.rsp)) * 4 + k.svc.val

/-- The next packet that port `p` sends, with its place among the waiting ones (R723). -/
def PlkPort.next (t : PlkPort) : Option (Nat × TxPacket) :=
  let ready := (t.queue.zipIdx.map (fun e => (e.2, e.1))).filter (fun e => t.hasCredit e.2.pkt && t.hasReplay e.2.pkt)
  leastBy (fun a b => t.rank a.2.pkt < t.rank b.2.pkt) ready

/-- Receive pool space of a packet freed at port `p` (R719, R720). -/
def State.plkFree (s : State) (p pool flits : Nat) : State :=
  s.modPlkPort p (fun t => { t with freed := modifyAt (· + flits) pool t.freed })

/-- One packet of port `p` sent, if one is ready. -/
def State.pumpOne (s : State) (p : Nat) : State :=
  let t := s.plkPort p
  match t.next with
  | none => s
  | some (i, x) =>
    let k := { x.pkt with seq := BitVec.ofNat 12 t.txSeq }
    let s := s.modPlkPort p (fun t =>
      { t with txSeq := (t.txSeq + 1) % 4096, queue := t.queue.eraseIdx i, replay := t.replay ++ [k],
               sent := modifyAt (· + packetFlits k) (packetPool k) t.sent,
               rot := if k.cls.val = 0 then t.rot else k.cls.val })
    let s := s.transmit p k
    match x.holds with
    | some (q, pool, n) => s.plkFree q pool n
    | none => s

/-- Port `p` sends what it can. -/
def State.pumpN (s : State) (p : Nat) : Nat → State
  | 0 => s
  | n + 1 => if s.plkUp p && !s.plk.laneDown.contains p && s.resetting.isNone then (s.pumpOne p).pumpN p n else s

/-- Everything port `p` can send now. -/
def State.pump (s : State) (p : Nat) : State := s.pumpN p (s.plkPort p).queue.length

/-- A packet leaves for its DST (R726, R727): the port it takes, or none when it is unreachable, which is counted. -/
def State.depart (s : State) (x : TxPacket) : Option Nat × State :=
  let hops := x.pkt.hops.toNat + 1
  match (if hops > s.get F.plkCfgHopLimit then none else s.routePort x.pkt.dst.toNat) with
  | some p =>
    let x := { x with pkt := { x.pkt with hops := BitVec.ofNat 8 hops } }
    (some p, (s.modPlkPort p (fun t => { t with queue := t.queue ++ [x] })).pump p)
  | none => (none, (s.bump F.plkUnreach 1).mark F.plkEventUnreach)

/-- A packet of this engine's own. -/
def State.ownPacket (s : State) (dst typ : Nat) (cls : Fin 4) (rsp : Bool) (svc arg : Nat) (payload : List Byte) : Packet :=
  { typ := BitVec.ofNat 8 typ, cls := cls, rsp := rsp, svc := ⟨svc % 4, Nat.mod_lt _ (by decide)⟩,
    len := BitVec.ofNat 8 ((payload.length + 31) / 32), hops := 0, dst := BitVec.ofNat 12 dst,
    src := BitVec.ofNat 12 (s.get F.plkNode), seq := 0, ack := 0, credits := [], arg := BitVec.ofNat 64 arg, crc := 0,
    payload := payload ++ List.replicate ((32 - payload.length % 32) % 32) (0 : Byte) }

/-- A packet of this engine sent to a node: the port it takes, or none when it is unreachable (R727). -/
def State.plkSend (s : State) (dst typ : Nat) (cls : Fin 4) (rsp : Bool) (svc arg : Nat) (payload : List Byte) :
    Option Nat × State :=
  s.depart { pkt := s.ownPacket dst typ cls rsp svc arg payload, holds := none }

/-- A packet whose loss nobody answers. -/
def State.plkPost (s : State) (dst typ : Nat) (cls : Fin 4) (rsp : Bool) (svc arg : Nat) (payload : List Byte) : State :=
  (s.plkSend dst typ cls rsp svc arg payload).2

/-- The nodes an EVENT goes to: every routed node, or the one named (R746). -/
def State.eventNodes (s : State) (all : Bool) (node : Nat) : List Nat := if all then s.routedNodes else [node]

/-- An EVENT sent to a node other than this one (R746); one named to this engine is consumed here, by its caller (R726). -/
def State.sendEvents (s : State) (nodes : List Nat) (ev : Nat) : State :=
  (nodes.filter (· != s.get F.plkNode)).foldl (fun s n => s.plkPost n ptEvent tcMgmt false 0 ev []) s

/-- The remote window that covers an I/O virtual address, if any: its serving node (R736). -/
def State.windowOf (s : State) (a : Nat) : Option Nat :=
  if s.integ.plkPorts = 0 then none
  else
    ((List.range 4).find? (fun k =>
      let l := s.get (F.plkWinCfgSizeLog2 k)
      let l := if 30 ≤ l ∧ l ≤ 47 then l else 30
      let base := s.get (F.plkWinLo k) * 2 ^ 30 + 2 ^ 32 * s.get (F.plkWinHi k)
      s.flag (F.plkWinCfgEn k) && base / 2 ^ l * 2 ^ l ≤ a && a < base / 2 ^ l * 2 ^ l + 2 ^ l)).map
      (fun k => s.get (F.plkWinCfgNode k))

end Sys2Proof.Machine
end

