-- ==== Sys2Proof/Machine/TreeletQueues.lean ====
section
/-! DEFINITION. Treelet queues of the ray sorter: segments, descriptors, the overflow list, and the freeing of entries ("Ray Sorting,
Treelet Streaming and Hit Return"). -/

namespace Sys2Proof.Machine

/-! ### Segments (R242, R254) -/

/-- The segments of 4 KiB in all RAYQ regions. -/
def State.segTotal (s : State) : Nat := (s.regionsOf 2).foldl (fun n r => n + 16 * r.size) 0

/-- The free segments. -/
def State.segFree (s : State) : Nat :=
  s.segTotal - s.tqs.foldl (fun n t => n + (t.segs.filter (fun g => g.place != .spilled)).length) 0

/-- The segments now spilled. -/
def State.segSpilled (s : State) : Nat := s.tqs.foldl (fun n t => n + (t.segs.filter (fun g => g.place == .spilled)).length) 0

/-- The untaken rays of a queue. -/
def TQueue.untaken (t : TQueue) : Nat := t.segs.foldl (fun n g => n + (g.entries.filter (fun e => e.st == 0)).length) 0

/-- Whether a segment has no entry that still stands. -/
def Seg.gone (g : Seg) : Bool := g.entries.all (fun e => e.st == 2)

/-- Whether a segment is full and all its entries are free: it is freed unless it is the tail (R243). -/
def Seg.done (g : Seg) : Bool := g.entries.length == 64 && g.gone

/-- The queue of a treelet that holds a descriptor, for a dispatch or guest pair (R240). -/
def State.queueOf (s : State) (id : Nat) (query : Bool) (treelet : Nat) : Option TQueue :=
  s.tqs.find? (fun t => t.desc.isSome && t.disp == id && t.query == query && t.treelet == treelet)

/-- The queue descriptors taken. -/
def State.descsTaken (s : State) : Nat := (s.tqs.filter (fun t => t.desc.isSome)).length

/-- Whether a ray can be appended for a treelet: the tail has room, or a segment is free (R258). -/
def State.canBin (s : State) (id : Nat) (query : Bool) (treelet : Nat) : Bool :=
  match s.queueOf id query treelet with
  | some t =>
    (match t.segs.getLast? with | some g => g.entries.length < 64 && g.place == .field | none => false) || s.segFree > 0
  | none => s.segFree > 0 || s.descsTaken ≥ 4096

/-- A queue with one ray more at its tail (R242); a tail that is full with every entry free is freed as another takes its place (R243). -/
def TQueue.push (t : TQueue) (ray : Nat) : TQueue :=
  let e : SegEntry := { ray := ray, st := 0 }
  match t.segs.getLast? with
  | some g =>
    if g.entries.length < 64 ∧ g.place = .field then
      { t with segs := t.segs.dropLast ++ [{ g with entries := g.entries ++ [e] }], appended := t.appended + 1 }
    else
      { t with segs := t.segs.filter (fun g => !g.done) ++ [{ ord := g.ord + 1, place := .field, raw := false, entries := [e] }],
               appended := t.appended + 1 }
  | none => { t with segs := [{ ord := t.appended / 64, place := .field, raw := false, entries := [e] }], appended := t.appended + 1 }

/-- A queue whose standing entry of a ray takes a state: taken or freed. -/
def TQueue.mark (t : TQueue) (ray st : Nat) : TQueue :=
  { t with segs := t.segs.map (fun g =>
      { g with entries := g.entries.map (fun e => if e.ray == ray && e.st != 2 then { e with st := st } else e) }) }

/-- A queue without the segments that are free and not its tail (R243). -/
def TQueue.trim (t : TQueue) : TQueue := { t with segs := (t.segs.dropLast).filter (fun g => !g.done) ++ t.segs.getLast?.toList }

/-- The entry that a ray holds in its treelet queue is freed, and with it every segment that is free and not the tail, and a queue without
descriptor that holds no entry any more (R243). -/
def State.freeRayEntry (s : State) (ray : Nat) : State :=
  let tqs := s.tqs.map (fun t => (t.mark ray 2).trim)
  { s with tqs := tqs.filter (fun t => t.desc.isSome || !t.segs.all Seg.gone) }

/-- A ray that ends while it waits leaves the untaken entries of its queue, and the overflow list; the entry stands until its record is
accepted (R243). -/
def State.takeEntry (s : State) (ray : Nat) : State :=
  { s with tqs := s.tqs.map (fun t => t.mark ray 1), overflow := s.overflow.filter (· != ray) }

/-! ### Appending (R240, R241) -/

/-- The continuation state of a ray as its queue entry takes it. -/
def Ray.toCont (r : Ray) : RayCont :=
  { started := r.started, stack := r.stack, frames := r.frames, best := r.best, bestT := r.bestT, list := r.list,
    total := r.total, lines := r.lines }

/-- A ray as it starts from its queue entry (R651). -/
def Ray.fromCont (r : Ray) : Ray :=
  let c := r.cont
  { r with started := c.started, stack := c.stack, frames := c.frames, best := c.best, bestT := c.bestT, list := c.list,
           total := c.total, lines := c.lines, leaf := none, call := none, neural := none, tc := 0, pipe := 0 }

/-- A ray appended to a queue that holds a descriptor; the entry that it held in another queue is freed (R243). -/
def State.appendRay (s : State) (r : Ray) (q : TQueue) : State :=
  let s := s.freeRayEntry r.id
  State.modRay { s with tqs := s.tqs.map (fun t => if t.id == q.id then t.push r.id else t) } r.id
    (fun r => { r with loc := .queued, tq := q.id, pos := q.appended, tc := 0, pipe := 0, cont := r.toCont })

/-- A ray appended to the queue of its treelet, or, with every descriptor taken, to the overflow list (R240, R241). -/
def State.enqueue (s : State) (r : Ray) : State :=
  match s.queueOf r.disp r.query r.treelet with
  | some q => s.appendRay r q
  | none =>
    if s.descsTaken < 4096 then
      let used := s.tqs.filterMap (fun t => t.desc)
      let q : TQueue := { id := s.nextTq, desc := (List.range 4096).find? (fun i => !used.contains i), disp := r.disp,
                          query := r.query, cls := r.cls, treelet := r.treelet, appended := 0, evicted := false, segs := [] }
      State.appendRay { s with tqs := s.tqs ++ [q], nextTq := s.nextTq + 1 } r q
    else
      (State.modRay { s with overflow := s.overflow ++ [r.id] } r.id (fun r => { r with loc := .overflow, cont := r.toCont })).bump F.srtOvfRays 1

/-- Rays of the overflow list appended in the order they joined it, until one finds no descriptor, or no segment to stand in (R241, R258). -/
def State.drainOverflowN (s : State) : Nat → State
  | 0 => s
  | n + 1 =>
    match s.overflow with
    | [] => s
    | id :: rest =>
      match s.ray id with
      | none => State.drainOverflowN { s with overflow := rest } n
      | some r =>
        if ((s.queueOf r.disp r.query r.treelet).isSome || s.descsTaken < 4096) && s.canBin r.disp r.query r.treelet then
          (State.enqueue { s with overflow := rest } r).drainOverflowN n
        else s

/-- The overflow list drained as far as it goes. -/
def State.drainOverflow (s : State) : State := s.drainOverflowN s.overflow.length

/-- A ray's queue entry is freed, and rays of the overflow list take the room (R241, R243). -/
def State.freeSeg (s : State) (ray : Nat) : State := (s.freeRayEntry ray).drainOverflow

/-- Descriptors of queues with no untaken ray and no batch are released (R240), and the overflow list drains (R241). -/
def State.tidyQueues (s : State) : State :=
  let idle := fun (t : TQueue) => t.desc.isSome && t.untaken == 0 && !s.batches.any (fun b => b.tq == t.id)
  let tqs := s.tqs.map (fun t => if idle t then { t with desc := none } else t)
  State.drainOverflow { s with tqs := tqs.filter (fun t => t.desc.isSome || !t.segs.all Seg.gone) }

end Sys2Proof.Machine
end

