-- ==== Sys2Proof/Machine/WorkOps.lean ====
section
/-! DEFINITION. Items, failure lists, completion records, hand-over queues and standing-schedule firings: the shared operations
of "Dispatch, Service Classes and Ownership". -/

namespace Sys2Proof.Machine

/-- Item statuses (Table 66). -/
def stOk : Nat := 0
def stMiss : Nat := 1
def stFenced : Nat := 2
def stPage : Nat := 3
def stUnc : Nat := 4
def stProg : Nat := 5
def stLink : Nat := 6
def stAbort : Nat := 7

/-! ### Runs of ended items -/

/-- Whether item `i` is in a list of runs. -/
def inRuns (l : List (Nat × Nat)) (i : Nat) : Bool := l.any (fun r => r.1 ≤ i && i < r.1 + r.2)

/-- The parts of the run [a, a + n) that no run of `l` covers; `l` is rising and disjoint. -/
def missingRuns : List (Nat × Nat) → Nat → Nat → List (Nat × Nat)
  | [], a, n => if n = 0 then [] else [(a, n)]
  | (b, m) :: r, a, n =>
    if n = 0 then []
    else if a + n ≤ b then [(a, n)]
    else if b + m ≤ a then missingRuns r a n
    else
      let left := if a < b then [(a, b - a)] else []
      left ++ missingRuns r (max a (b + m)) (a + n - max a (b + m))

/-- The runs with [a, a + n) added; the run is disjoint from all of them. -/
def addRun : List (Nat × Nat) → Nat → Nat → List (Nat × Nat)
  | [], a, n => [(a, n)]
  | (b, m) :: r, a, n =>
    if a + n < b then (a, n) :: (b, m) :: r
    else if a + n = b then (a, n + m) :: r
    else if b + m = a then
      match r with
      | (c, k) :: r' => if a + n = c then (b, m + n + k) :: r' else (b, m + n) :: r
      | [] => [(b, m + n)]
    else (b, m) :: addRun r a n

/-! ### Writes of records -/

/-- The completion record and failure entries of a queue wait: DONE_LOST is held, or the write waits on a fault (R115). -/
def State.writesBlocked (s : State) (c : Fin 4) : Bool :=
  s.flag (F.doneLostLoValid c.val) || s.waits (.completion c) || s.waits (.failList c)

/-- The access that writes a completion record or an entry of a failure list (Table 131). -/
def PWrite.access (w : PWrite) (c : Fin 4) : Access := if w.entry then .failList c else .completion c

/-- A lost record is kept in DONE_LOST and INT_FAULT raised, or waits while DONE_LOST holds one (R115); the words past the record read
0 (R587). -/
def State.loseWrite (s : State) (c : Nat) (w : PWrite) : State :=
  if s.flag (F.doneLostLoValid c) then s.modQueue c (fun q => { q with lost := q.lost ++ [w] })
  else
    let s := s.setAll ([(F.doneLostLoAddrLo c, w.addr / 16), (F.doneLostLoKind c, boolNat w.entry), (F.doneLostLoValid c, 1),
      (F.doneLostHi c, w.addr / 2 ^ 32)] ++
      (List.range 8).map (fun j => (F.doneLostW c j, leVal ((w.bytes.drop (4 * j)).take 4))))
    s.raise intFault

/-- A firing of schedule entry `i`: merged into one that waits (R129), or waiting to be read (R127). -/
def State.fireEntry (s : State) (i : Nat) : State :=
  let waiting := s.schedWait.contains i || s.queues.any (fun q => q.firings.any (fun f => f.entry == i))
  if waiting || s.mgmt.down || s.mgmt.running.isNone then
    let first := !bit (s.get F.schedOvr) i
    let s := (s.setBit F.schedOvr i true).bump F.schedOvrCount 1
    if first then s.note 13 ([BitVec.ofNat 8 i, 0] ++ List.replicate 10 255) else s
  else { s with schedWait := s.schedWait ++ [i] }

/-- The address of a schedule entry (R125). -/
def State.schedAddr (s : State) (i : Nat) : Nat := s.get2 F.schedBaseLo F.schedBaseHi + 64 * i

/-- The enabled entries whose chain's TRIGGER and TRIGGER_ARG are the given ones fire (R126). -/
def State.fire (s : State) (trigger arg : Nat) : State :=
  (List.range 32).foldl (fun s i =>
    if bit (s.get F.schedEn) i then
      match s.active with
      | some im =>
        match im.chain (s.memNat (s.schedAddr i) 2) with
        | some c => if c.trigger == trigger && c.triggerArg == arg then s.fireEntry i else s
        | none => s
      | none => s
    else s) s

/-- Whether any enabled entry would fire on the trigger. -/
def State.fires (s : State) (trigger arg : Nat) : Bool :=
  (List.range 32).any (fun i => bit (s.get F.schedEn) i &&
    (match s.active with
      | some im =>
        match im.chain (s.memNat (s.schedAddr i) 2) with
        | some c => c.trigger == trigger && c.triggerArg == arg
        | none => false
      | none => false))

/-- The records between DQc_HEAD and DQc_TAIL (R100). -/
def State.pendingRecs (s : State) (c : Nat) : Nat := (s.get (F.dqTail c) + 2 ^ 16 - s.get (F.dqHead c)) % 2 ^ 16

/-- The events that peers are told of when a chain's completion record is written OK or PARTIAL (R746): (ALL, NODE, EVENT). -/
def State.ondone (s : State) (chain : Nat) : List (Bool × Nat × Nat) :=
  (List.range 8).filterMap (fun k =>
    if s.flag (F.plkEvtOndoneEn k) && s.get (F.plkEvtOndoneChain k) == chain then
      some (s.flag (F.plkEvtOndoneAll k), s.get (F.plkEvtOndoneNode k), s.get (F.plkEvtOndoneEvent k))
    else none)

/-- What follows when a completion record of class `c` has been written: DONE_PEND and INT_DONE by R114, and the CHAIN_DONE firings
of R126. -/
def State.afterRecord (s : State) (c : Nat) (w : PWrite) : State :=
  let chain := leVal ((w.bytes.drop 4).take 2)
  let status := leVal ((w.bytes.drop 7).take 1)
  let q := s.queue c
  let n := q.sinceDone + 1
  let limit := match s.active with | some im => ((im.qos[c]?).map Qos.coalesce).getD 1 | none => 1
  let quiet := (s.running c).isEmpty && s.pendingRecs c == 0 && q.firings.isEmpty
  let s := s.modQueue c (fun q => { q with sinceDone := n })
  let s := if n ≥ limit || w.irq || status != 0 || quiet then (s.setBit F.donePend c true).raise intDone else s
  if status ≤ 1 then
    (s.ondone chain).foldl (fun s e =>
      let nodes := s.eventNodes e.1 e.2.1
      let s := s.sendEvents nodes e.2.2
      if nodes.contains (s.get F.plkNode) then s.fire 2 e.2.2 else s) (s.fire 3 chain)
  else s

/-- The next waiting write of queue `c` is sent, unless one is on its way or the queue is blocked (R110, R115). -/
def State.drain (s : State) (c : Fin 4) : State :=
  let q := s.queue c.val
  if s.writesBlocked c || !q.sent.isEmpty then s
  else match q.writes with
    | [] => s
    | w :: r =>
      (s.modQueue c.val (fun q => { q with writes := r, sent := [w] })).request (w.access c) w.addr w.bytes.length true false

/-- The write that queue `c` has sent is answered: it stands in memory, or, answered with POISON or ERROR, is kept in DONE_LOST and the
bytes it was to write hold what the fabric leaves there, a free value (R109, R114, R115, R758). -/
def State.writeAnswered (s : State) (c : Fin 4) (bad : Bool) : State :=
  match (s.queue c.val).sent with
  | [] => s
  | w :: r =>
    let s := s.modQueue c.val (fun q => { q with sent := r })
    if bad then
      let (k, s) := s.draw
      let s := s.memStore w.addr (leBytes w.bytes.length (Config.freeValue k).toNat)
      s.loseWrite c.val w
    else
      let s := s.memPut w.addr w.bytes
      (if w.entry then s else s.afterRecord c.val w).drain c

/-- A write joins the waiting writes of queue `c`. -/
def State.pushWrite (s : State) (c : Fin 4) (w : PWrite) : State :=
  (s.modQueue c.val (fun q => { q with writes := q.writes ++ [w] })).drain c

/-- A class number as a queue index. -/
def clsOf (c : Nat) : Fin 4 := ⟨c % 4, Nat.mod_lt _ (by decide)⟩

/-! ### Failed and ended items -/

/-- A failure list entry (Table 37). -/
def failEntry (r : FailRun) : List Byte :=
  leBytes 4 r.first ++ leBytes 4 r.count ++ leBytes 1 r.status ++ leBytes 1 r.kind ++ leBytes 2 r.index ++ leBytes 4 0

/-- A run of failed items of dispatch `d` in its failure list: the last entry extended, a new entry, or FAIL_LIST_FULL (R112). -/
def State.listFail (s : State) (d : Dispatch) (r : FailRun) : State :=
  if d.rcd.failAddr = 0 || d.failFull then s
  else
    let c := clsOf d.queue
    let ext := match d.failLast with
      | some l => l.first + l.count == r.first && l.status == r.status && l.kind == r.kind && l.index == r.index
      | none => false
    let last := (d.failLast).getD r
    if ext then
      let e := { last with count := last.count + r.count }
      let s := s.modDisp d.id (fun d => { d with failLast := some e })
      s.pushWrite c { addr := d.rcd.failAddr + 16 * (d.failEntries - 1), bytes := failEntry e, entry := true, irq := false }
    else if d.failEntries < d.rcd.failCap then
      let s := s.modDisp d.id (fun d => { d with failLast := some r, failEntries := d.failEntries + 1 })
      s.pushWrite c { addr := d.rcd.failAddr + 16 * d.failEntries, bytes := failEntry r, entry := true, irq := false }
    else s.modDisp d.id (fun d => { d with failFull := true })

/-- Items failed by a fault of the open recovery window are counted for its EPOCH_FENCE record (R664). -/
def State.countWindow (s : State) (n status : Nat) (u : Option EUnit) : State :=
  if status = stFenced ∨ status = stLink ∨ (status = stUnc ∧ unitKind u = 6) then
    { s with window := s.window.map (fun w => { w with failed := w.failed + n }) }
  else s

/-- The items [first, first + count) of dispatch `id` that have not ended end failed, with a status and a unit (R30, R112, R113). -/
def State.failItems (s : State) (id first count status : Nat) (u : Option EUnit) : State :=
  match s.disp id with
  | none => s
  | some d =>
    let parts := missingRuns d.endedItems first (min count (d.rcd.itemCount - min first d.rcd.itemCount))
    let s := parts.foldl (fun s p =>
      let s := s.modDisp id (fun d => { d with fail := d.fail + p.2, endedItems := addRun d.endedItems p.1 p.2 })
      let s := (match u with | some u => s.perf 2 u (some d.rcd.cls) p.2 | none => s).countWindow p.2 status u
      match s.disp id with
      | some d => s.listFail d { first := p.1, count := p.2, status := status, kind := unitKind u, index := unitIndex u }
      | none => s) s
    s

/-- One item ends failed. -/
def State.failItem (s : State) (id item status : Nat) (u : Option EUnit) : State := s.failItems id item 1 status u

/-- One item ends with a result, its final record written by unit `u` (R30). -/
def State.endItem (s : State) (id item : Nat) (u : EUnit) : State :=
  match s.disp id with
  | none => s
  | some d =>
    if inRuns d.endedItems item || d.rcd.itemCount ≤ item then s
    else
      let s := s.modDisp id (fun d => { d with done := d.done + 1, endedItems := addRun d.endedItems item 1 })
      s.perf 1 u (some d.rcd.cls) 1

/-- Whether an item of a dispatch has ended. -/
def State.itemEnded (s : State) (id item : Nat) : Bool :=
  match s.disp id with
  | some d => inRuns d.endedItems item
  | none => true

/-- The class of a dispatch. -/
def State.clsOfDisp (s : State) (id : Nat) : Option Nat := (s.disp id).map (fun d => d.rcd.cls)

/-! ### Hand-over queues -/

/-- The queue record of queue `q` of a dispatch's chain. -/
def State.queueRec (s : State) (d : Dispatch) (q : Nat) : Option QueueRec :=
  match s.chainOf d with
  | some c => c.queues[q]?
  | none => none

/-- The Shared Field address of place `slot` of a queue (R59, R62). -/
def State.queueAddr (s : State) (r : QueueRec) (slot : Nat) : Nat :=
  let start := match s.active with
    | some im => match im.part.regions[r.region]? with | some g => g.start | none => 0
    | none => 0
  start * 65536 + r.offset + slot * r.bytes

/-- A queue of a dispatch at run time. -/
def Dispatch.hq (d : Dispatch) (q : Nat) : HQueue := (d.queues[q]?).getD { entries := [], appended := 0 }

/-- Whether queue `q` of a dispatch has room for one entry more (R29); 0xFF names no queue and has room. -/
def State.hasRoom (s : State) (d : Dispatch) (q : Nat) : Bool :=
  if q = 255 then true
  else match s.queueRec d q with
    | some r => decide ((d.hq q).entries.length < r.capacity)
    | none => true

/-- The place that the next entry of a queue takes: the first free one from its turn in the ring on. -/
def HQueue.nextSlot (h : HQueue) (cap : Nat) : Nat :=
  let used := h.entries.map (fun e => e.slot)
  (((List.range cap).map (fun i => (h.appended + i) % cap)).find? (fun i => !used.contains i)).getD 0

/-- An entry appended whole to queue `q` of dispatch `id` by unit `u` (R61): its bytes in the Shared Field, zero-filled to the entry
size; the entry's place and position are the queue's next. -/
def State.appendEntry (s : State) (u : EUnit) (id q : Nat) (e : QEntry) (bs : List Byte) : State :=
  match s.disp id with
  | none => s
  | some d =>
    match s.queueRec d q with
    | none => s
    | some r =>
      let h := d.hq q
      let e : QEntry := { e with pos := h.appended, slot := h.nextSlot r.capacity }
      let data := (bs ++ List.replicate (r.bytes - bs.length) (0 : Byte)).take r.bytes
      let s := s.sfPut u (some d.rcd.cls) (s.queueAddr r e.slot) data
      s.modDisp id (fun d =>
        { d with queues := modifyAt (fun h => { entries := h.entries ++ [e], appended := h.appended + 1 }) q d.queues })

/-- The entry of an item or a run of items, not held. -/
def QEntry.fresh (item count flags : Nat) (ended : Bool) (ray : Nat) : QEntry :=
  { pos := 0, slot := 0, item := item, count := count, flags := flags, ended := ended, held := false, ray := ray, used := 0, src := 0 }

/-- A record appended to queue `q`. -/
def State.append (s : State) (u : EUnit) (id q : Nat) (item count flags : Nat) (ended : Bool) (ray : Nat) (bs : List Byte) : State :=
  s.appendEntry u id q (QEntry.fresh item count flags ended ray) bs

/-- A ray whose final record has been accepted leaves the engine (R243). -/
def State.dropRay (s : State) (ray : Nat) : State :=
  { s.freeSeg ray with rays := s.rays.filter (fun r => r.id != ray) }

/-- The entry at position `pos` of queue `q` leaves it; a hit record's ray goes with it. -/
def State.freeEntry (s : State) (id q pos : Nat) : State :=
  let ray := match s.disp id with
    | some d => match (d.hq q).entries.find? (fun e => e.pos == pos) with | some e => e.ray | none => 0
    | none => 0
  let s := s.modDisp id (fun d =>
    { d with queues := modifyAt (fun h => { h with entries := h.entries.filter (fun e => e.pos != pos) }) q d.queues })
  if ray = 0 then s else s.dropRay (ray - 1)

/-- The entry at position `pos` of queue `q` is held by its consumer, or given back (R373). -/
def State.holdEntry (s : State) (id q pos : Nat) (b : Bool) : State :=
  s.modDisp id (fun d => { d with queues := modifyAt (fun h =>
    { h with entries := h.entries.map (fun e => if e.pos == pos then { e with held := b } else e) }) q d.queues })

/-- Whether an entry is a tile of a STREAM stage's item that has ended failed: its consumer takes it without processing it (R469). -/
def QEntry.marked (e : QEntry) : Bool := e.ended && e.src != 0 && !e.held

/-- The consumer of a queue passes the marked entries that come next in turn (R469). -/
def State.passMarked (s : State) (id q : Nat) : State :=
  match s.disp id with
  | none => s
  | some d => (((d.hq q).entries.filter (fun e => !e.held)).takeWhile QEntry.marked).foldl (fun s e => s.freeEntry id q e.pos) s

/-- The oldest entry of queue `q` that no consumer holds. -/
def Dispatch.front (d : Dispatch) (q : Nat) : Option QEntry := (d.hq q).entries.find? (fun e => !e.held)

/-- The Shared Field address of place `slot` of a dispatch's queue `q`, and the bytes of its entries. -/
def State.entryAddr (s : State) (d : Dispatch) (slot q : Nat) : Nat :=
  match s.queueRec d q with | some r => s.queueAddr r slot | none => 0
def State.entrySize (s : State) (d : Dispatch) (q : Nat) : Nat := match s.queueRec d q with | some r => r.bytes | none => 0

/-- The bytes of the entry at place `slot` of queue `q`. -/
def State.entryBytes (s : State) (d : Dispatch) (slot q : Nat) : List Byte := s.sfGet (s.entryAddr d slot q) (s.entrySize d q)

/-- The queue an item goes to by ROUTE_SEL (R58): MISS hit records to OUT1, or by a flag of the ray; 0xFF is none. -/
def Stage.route (t : Stage) (bs : List Byte) (flags : Nat) : Nat :=
  match t.routeSel with
  | 1 => if leVal ((bs.drop 0x17).take 1) = stMiss then t.out1 else t.out0
  | 2 => if bit (flags % 65536) t.routeBit then t.out1 else t.out0
  | _ => t.out0

/-- The record of an item leaves stage `t`, produced by unit `u`: appended to its output queue, or, with no queue, the item's final
record with a result (R30). -/
def State.produce (s : State) (u : EUnit) (id : Nat) (t : Stage) (item flags ray : Nat) (ended : Bool) (bs : List Byte) : State :=
  let q := t.route bs flags
  if q = 255 then (if ended then s else s.endItem id item u) else s.append u id q item 1 flags ended ray bs

/-- A Shared Field bank as a unit. -/
def bankUnit (b : Nat) : EUnit := .bank ⟨b % 64, Nat.mod_lt _ (by decide)⟩

/-- A read of `n` bytes at `a` of the Shared Field: the bank of a poisoned line among them, whose reading counts as UNC_DATA and
starts no sequence (R655). -/
def State.readPoison (s : State) (a n : Nat) : Option EUnit × State :=
  match (linesOf a n).find? (fun l => s.sfPoison.contains l) with
  | some l => let u := bankUnit (s.sfBank (64 * l)); (some u, s.capture 2 (some u) (2 ^ 28 + l))
  | none => (none, s)

/-- Every item of every running dispatch that `p` holds of ends failed, and the dispatch with them (R660). -/
def State.failDispatches (s : State) (p : Dispatch → Bool) (status : Nat) (u : Option EUnit) : State :=
  (s.disps.filter (fun d => s.runs d && p d)).foldl (fun s d =>
    let s := s.failItems d.id 0 d.rcd.itemCount status u
    s.modDisp d.id (fun d => { d with phase := .ended })) s

/-! ### Epochs and holds -/

/-- An engine epoch: no dispatch runs in any queue (R116), and no treelet queue holds an item or a spilled segment (R260), guests' included
(log entry 88). -/
def State.quiet (s : State) : Bool :=
  s.disps.all (fun d => !s.runs d) && s.tqs.all (fun t => t.untaken == 0 && t.segs.all (fun g => g.place == .field)) && s.overflow.isEmpty

/-- Low-power states (CP_LP_STATUS.STATE). -/
def lpRun : Nat := 0
def lpEntering : Nat := 1
def lpNap : Nat := 2
def lpSleep : Nat := 3
def lpWaking : Nat := 4

/-- Whether an engine epoch stands now (R116): no dispatch runs, and the engine is in RUN or about to leave it. -/
def State.epochNow (s : State) : Bool :=
  s.quiet && s.present && s.resetting.isNone && (s.get F.cpLpStatusState == lpRun || s.get F.cpLpStatusState == lpEntering)

/-- The hold of R117 begins, unless EPOCH_WAIT stands. -/
def State.beginHold (s : State) : State := if s.flag F.glbStatusEpochWait then s else s.mark F.glbStatusHold

/-- Something waits for an engine epoch: buffered writes, a DOMAIN reset, a wipe. -/
def State.epochWork (s : State) : Bool :=
  !s.wbuf.isEmpty || (s.flag F.rstDomainGo && s.domBusy.isNone) || s.flag F.wipeStatusPending

/-- The loader states (Table 29). -/
def ldrIdle : Nat := 0
def ldrLoading : Nat := 1
def ldrHolding : Nat := 2
def ldrStaged : Nat := 3
def ldrSwitching : Nat := 4

/-- Whether queues may advance: an image is active, and no image epoch has come that is not past step 4 (R89, R96).  A moment in
HOLDING at which nothing runs is the image epoch, so that nothing is taken at it. -/
def State.mayAdvance (s : State) : Bool :=
  s.present && s.active.isSome && s.get F.ldrStateState != ldrSwitching && !(s.get F.ldrStateState == ldrHolding && s.quiet)

/-- Whether a dispatch of class `c` may start (R88, R89, R102, R117, R619, R662). -/
def State.mayStart (s : State) (c : Nat) : Bool :=
  s.mayAdvance &&
  (s.get F.cpLpStatusState == lpRun || (s.get F.cpLpStatusState == lpEntering && c == 0)) &&
  (c == 0 || (!s.flag F.glbStatusHold && s.get F.ldrStateState != ldrHolding &&
    (match s.window with | some w => !w.holding | none => true) &&
    !(s.get F.cpLpCtrlReq == 1 || s.get F.cpLpCtrlReq == 2)))

end Sys2Proof.Machine
end

