-- ==== Sys2Proof/Machine/Loader.lean ====
section
/-! DEFINITION. The image loader: LOAD, ACTIVATE, DISCARD, validation, the image epoch, SWITCHING and residency ("Structure Images",
"Loading and activation"). -/

namespace Sys2Proof.Machine

/-- The loader reports an outcome: STATUS and DETAIL, and LOAD_END (Table 148). -/
def State.ldrReport (s : State) (code detail : Nat) : State :=
  s.setAll [(F.ldrStateStatus, code), (F.ldrDetailLo, detail), (F.ldrDetailHi, detail / 2 ^ 32), (F.ldrStateLoadEnd, 1)]

/-- LOAD (R85, Table 30). -/
def State.ldrLoad (s : State) : State :=
  let st := s.get F.ldrStateState
  if st = ldrIdle then
    { s.set F.ldrStateState ldrLoading with loadAddr := s.get2 F.ldrAddrLo F.ldrAddrHi }
  else if st = ldrLoading then s.ldrReport 0x01 0
  else s.ldrReport 0x02 (match s.staged with | some im => im.id | none => 0)

/-- ACTIVATE re-enters HOLDING from STAGED (R93). -/
def State.ldrActivate (s : State) : State :=
  if s.get F.ldrStateState = ldrStaged then s.set F.ldrStateState ldrHolding else s

/-- The loader's accesses have ended: none of them waits on a fault record any more. -/
def State.ldrEnd (s : State) : State :=
  { s with fwaits := s.fwaits.filter (fun w => match w.acc with | .image _ => false | _ => true) }

/-- DISCARD (R93, Table 30). -/
def State.ldrDiscard (s : State) : State :=
  let st := s.get F.ldrStateState
  if st = ldrLoading ∨ st = ldrHolding ∨ st = ldrStaged then
    (State.ldrEnd { s.set F.ldrStateState ldrIdle with staged := none }).ldrReport 0x18 0
  else s

/-- A load fails: the report, and IDLE (R85). -/
def State.ldrFail (s : State) (code detail : Nat) : State := ((s.set F.ldrStateState ldrIdle).ldrEnd).ldrReport code detail

/-- LDR_CMD (Table 28). -/
def State.ldrCommand (s : State) (cmd : Nat) : State :=
  match cmd with
  | 1 => s.ldrLoad
  | 2 => s.ldrActivate
  | 3 => s.ldrDiscard
  | _ => s

/-- The load's reads ended with ABORT at an address (R87). -/
def State.ldrAbort (s : State) (a : Nat) : State :=
  if s.get F.ldrStateState = ldrLoading then s.ldrFail 0x15 a else s

/-- Whether the loader waits on a fault record (R87): its accesses are named by the address they read. -/
def State.ldrWaits (s : State) : Bool := s.fwaits.any (fun w => match w.acc with | .image _ => true | _ => false)

/-- The bytes that validation reads: none at an address that is not aligned, the header alone when its own checks fail, else the image. -/
def State.imageBytes (s : State) : Nat :=
  let g : ImgSrc := { mem := s.mem, base := s.loadAddr }
  if s.loadAddr % 64 ≠ 0 then 0 else if (step1 g).isSome then 256 else g.at 8 4

/-- Validation ends: the image is staged and the loader holds, or the first failure is reported (R85, R87, R88); not while a page fault of
its reads is not yet answered. -/
def State.validationEnd (s : State) (r : LoadRead) : State :=
  let acc : Access := .image (BitVec.ofNat 64 s.loadAddr)
  if s.get F.ldrStateState ≠ ldrLoading ∨ s.ldrWaits = true then s
  else match r with
    | .abort a => s.ldrFail 0x15 a.toNat
    | .unc a => (s.uncRead (.image a) a.toNat).ldrFail 0x16 ((a.toNat + 2 ^ 64 - s.loadAddr % 2 ^ 64) % 2 ^ 64)
    | .ok =>
      if !s.reaches acc s.loadAddr s.imageBytes false then s
      else
      let s := s.access acc 0 s.loadAddr s.imageBytes false
      match s.validate s.loadAddr with
      | .error (code, detail) => s.ldrFail code detail
      | .ok im =>
        let s := s.setAll [(F.ldrStateState, ldrHolding), (F.ldrStagedLo, im.id), (F.ldrStagedHi, im.id / 2 ^ 32)]
        ({ s with staged := some im }).ldrReport 0 0

/-- The regions of a partition whose ZERO_ON_ACTIVATE is 1, cleared to zero (R89, step 3). -/
def clearRegions (part : Part) (sf : List Host.Cell) : List Host.Cell :=
  sclear (fun a => part.regions.any (fun r => r.zero && r.start * 65536 ≤ a && a < (r.start + r.size) * 65536)) sf

/-- The poison of lines of cleared regions goes with their contents. -/
def clearPoison (part : Part) (l : List Nat) : List Nat :=
  l.filter (fun x => !part.regions.any (fun r => r.zero && r.start * 1024 ≤ x && x < (r.start + r.size) * 1024))

/-- The image epoch: SWITCHING with steps 1 to 3 of R89.  The staged configuration is active from step 1 on, and stays named as the
staged image until step 4. -/
def State.imageEpoch (s : State) : State :=
  if s.get F.ldrStateState = ldrHolding ∧ s.quiet = true then
    match s.staged with
    | some im =>
      let s := (s.set F.ldrStateState ldrSwitching).ncActivate
      { s with active := some im, firstImage := s.active.isNone, tslots := [], ts := [], tsPoison := [], ws := s.ws.map (fun w => { w with bytes := [], arrived := [], tiles := [] }),
               lcs := s.lcs.map (fun l => { l with cache := [], code := [] }), sf := clearRegions im.part s.sf,
               sfPoison := clearPoison im.part s.sfPoison }
    | none => s
  else s

/-- The layers placed in a Weight Store half (R80). -/
def Image.placed (im : Image) (half : Nat) : List PlacedLayer := if half = 0 then im.placeA else im.placeB

/-- The layer table address of a model. -/
def Image.layerTable (im : Image) (model : Nat) : Nat := match im.wrefs[model]? with | some w => w.layerTable | none => 0

/-- The pieces of memory that make up place `p` of a placed layer, each as an offset in its 64 KiB, an address and a length: a weight tile,
or attribute tile `p − TILE_COUNT`, which packs the attribute blocks of the layer's weight tiles in order (R336, R339). -/
def tilePieces (m : List Host.Cell) (table : Nat) (l : Layer) (p : Nat) : List (Nat × Nat × Nat) :=
  let entry := fun i => table + l.tileFirst + 16 * i
  if p < l.tileCount then [(0, leAt m (entry p) 8, 65536)]
  else
    match pairClass l.wFmt l.aFmt with
    | none => []
    | some c =>
      let n := attrBlock c l.wFmt l.sparse
      let first := (p - l.tileCount) * 65536
      (List.range l.tileCount).filterMap (fun b =>
        let lo := max first (b * n)
        let hi := min (first + 65536) (b * n + n)
        if lo < hi then some (lo - first, leAt m (entry b + 8) 8 + (lo - b * n), hi - lo) else none)

/-- The pieces written to a place of a Weight Store half, the rest of which is zero. -/
def placeBytes (m w : List Host.Cell) (at' : Nat) (l : List (Nat × Nat × Nat)) : List Host.Cell :=
  l.foldl (fun w x => copyBytes m w x.2.1 (at' + x.1) x.2.2) (sclear (fun k => at' ≤ k && k < at' + 65536) w)

/-- One place of a Weight Store half filled from memory (R89, step 5); `count` tells whether the fetch is this half's own, and not one that
fills both halves and is counted for the other (R350). -/
def State.fetchPlace (s : State) (im : Image) (half : Nat) (l : PlacedLayer) (i : Nat) (count : Bool) : State :=
  let table := im.layerTable l.model
  let pieces := tilePieces s.mem table (readLayer s.mem table l.layer) i
  let p := l.place + i
  let s := if count then pieces.foldl (fun (s : State) (x : Nat × Nat × Nat) =>
      s.access (.image (BitVec.ofNat 64 x.2.1)) 0 x.2.1 x.2.2 false) s else s
  { s with ws := modifyAt (fun w =>
      { w with bytes := placeBytes s.mem w.bytes (p * 65536) pieces, arrived := dedup (w.arrived ++ [p]) }) half s.ws }

/-- The places of the resident layers of half `half` for which `p` holds of the model, fetched in the order of R80; a tile of a layer that both
halves hold is fetched once (R350). -/
def State.fetchHalf (s : State) (im : Image) (half : Nat) (p : Nat → Bool) : State :=
  ((im.placed half).filter (fun l => p l.model)).foldl (fun s l =>
    let own := half == 0 || !(im.placed 0).any (fun x => x.model == l.model && x.layer == l.layer)
    (List.range l.tiles).foldl (fun s i => s.fetchPlace im half l i own) s) s

/-- SWITCHING ends: the hold is released, the new image is reported active, and residency begins (R89, steps 4 and 5).
Models that peers send by multicast are left to "Peer Link and Multi-Engine Systems" (`own` holds of a model fetched here). -/
def State.switchOver (s : State) (own : Image → Nat → Bool) : State :=
  match s.staged with
  | some im =>
    if s.get F.ldrStateState = ldrSwitching then
      let s := s.setAll [(F.ldrStateState, ldrIdle), (F.ldrActiveLo, im.id), (F.ldrActiveHi, im.id / 2 ^ 32), (F.ldrStateActDone, 1)]
      let s := ({ s with active := some im, firstImage := false, staged := none, tagStart := false }).raise intDone
      (s.fetchHalf im 0 (own im)).fetchHalf im 1 (own im)
    else s
  | none => s

/-- The activation hold times out: STAGED, ACT_TIMEOUT reported with the µs spent (R92). -/
def State.actTimeout (s : State) : State :=
  let t := s.get F.ldrActTimeout
  if s.get F.ldrStateState = ldrHolding ∧ t ≠ 0 then
    s.setAll [(F.ldrStateState, ldrStaged), (F.ldrStateStatus, 0x17), (F.ldrDetailLo, t), (F.ldrDetailHi, 0), (F.ldrStateTimeout, 1)]
  else s

end Sys2Proof.Machine
end

