-- ==== Sys2Proof/Machine/Work.lean ====
section
/-! DEFINITION. Dispatch queues, taking and completing dispatches, preemption by class 0, and standing schedules ("Dispatch,
Service Classes and Ownership"). -/

namespace Sys2Proof.Machine

/-! ### Queues -/

/-- DQc_SIZE (Table 147): 0–3 act as 4, 13–15 as 12. -/
def State.dqSlots (s : State) (c : Nat) : Nat := 2 ^ (min 12 (max 4 (s.get (F.dqSize c))))

/-- DQc_BASE. -/
def State.dqBase (s : State) (c : Nat) : Nat := s.get2 (F.dqBaseLo c) (F.dqBaseHi c)

/-- Whether the engine takes records from DQc: ENABLE, or a FLUSH in progress (R103). -/
def State.dqOpen (s : State) (c : Nat) : Bool := (s.queue c).enabled || (s.queue c).flushTo.isSome

/-- The STATE field follows the queue (Table 147). -/
def State.dqShow (s : State) (c : Nat) : State :=
  let q := s.queue c
  s.set (F.dqStatusState c) (if q.flushTo.isSome then 2 else boolNat q.enabled)

/-- The queue enters PAUSE with its record still at the head, and INT_FAULT is raised (R101). -/
def State.dqFault (s : State) (c : Nat) : State :=
  ((s.modQueue c (fun q => { q with enabled := false, flushTo := none, head := none })).dqShow c).raise intFault

/-- The engine wakes (R622): REQ = RUN, the source recorded.  `src` is the LAST_WAKE code. -/
def State.wake (s : State) (src : Nat) : State :=
  s.setAll [(F.cpLpCtrlReq, 0), (F.cpLpStatusLastWake, src), (F.cpLpStatusState, lpWaking)]

/-- A write to DQc_TAIL (R100); in NAP it wakes the engine when TAIL is enabled and it leaves records pending in an enabled queue
(R622). -/
def State.dqTail (s : State) (c v : Nat) : State :=
  let n := (v % 2 ^ 16 + 2 ^ 16 - s.get (F.dqHead c)) % 2 ^ 16
  if n > s.dqSlots c then s.mark (F.dqStatusOverflow c)
  else
    let s := s.set (F.dqTail c) v
    if s.get F.cpLpStatusState = lpNap ∧ s.flag F.cpLpCtrlTail = true ∧ n ≠ 0 ∧ (s.queue c).enabled = true then s.wake 2 else s

/-- DQc_CTRL (Table 33).  ENABLE or PAUSE written while a FLUSH is in progress sets the state that the queue has when the flush ends
(log entry 82). -/
def State.dqCommand (s : State) (c cmd : Nat) : State :=
  match cmd with
  | 1 => (s.modQueue c (fun q => { q with enabled := true })).dqShow c
  | 2 => (s.modQueue c (fun q => { q with enabled := false })).dqShow c
  | 3 =>
    if s.pendingRecs c = 0 then s
    else (s.modQueue c (fun q => { q with flushTo := some (s.get (F.dqTail c)) })).dqShow c
  | _ => s

/-- A dispatch record at an address (Table 34). -/
def State.readRecord (s : State) (a : Nat) : DispRec :=
  let fl := s.memNat (a + 3) 1
  { chain := s.memNat a 2, cls := s.memNat (a + 2) 1, irq := bit fl 0, afterPrev := bit fl 1, itemCount := s.memNat (a + 4) 4,
    paramAddr := s.memNat (a + 8) 8, doneAddr := s.memNat (a + 16) 8, failAddr := s.memNat (a + 24) 8,
    failCap := s.memNat (a + 32) 4, tag := s.memNat (a + 36) 4, doneRing := s.memNat (a + 40) 2 }

/-- The address of the record at the head of DQc. -/
def State.headAddr (s : State) (c : Nat) : Nat := s.dqBase c + 64 * (s.get (F.dqHead c) % s.dqSlots c)

/-- The read of the record at the head of DQc ends (R101).  A read that fails had begun before, so its failure acts on a queue that has
been paused meanwhile as well. -/
def State.recordRead (s : State) (c : Fin 4) (r : ReadOutcome) : State :=
  let a := s.headAddr c.val
  if (s.queue c.val).head.isSome || s.pendingRecs c.val == 0 || !s.readable (.record c) a 64 r || !s.present then s
  else
    let rcd := s.readRecord a
    let s := s.readEnds (.record c) c.val a 64 r
    if r ≠ .ok then s.dqFault c.val
    else if s.dqOpen c.val then s.modQueue c.val (fun q => { q with head := some rcd }) else s

/-! ### Taking a dispatch -/

/-- The units that run a stage (Table 8): clusters for TRAVERSE and QUERY, lane cores for GENERATE and PROGRAM and for a TRAVERSE
stage's callouts, quadrants for MATMUL and for a TRAVERSE stage's neural leaves. -/
def Stage.hasUnit (t : Stage) (u : EUnit) : Bool :=
  match u with
  | .tc i => (t.kind == 3 || t.kind == 4) && bit t.tgMask (i.val / 4)
  | .lc i => (t.kind == 1 || t.kind == 6 || t.kind == 3) && bit t.tgMask (i.val / 2)
  | .quad i => (t.kind == 5 || t.kind == 3) && bit t.quadMask i.val
  | _ => false

/-- Whether a chain has a stage that a unit runs. -/
def Chain.hasUnit (c : Chain) (u : EUnit) : Bool := c.stages.any (fun t => t.hasUnit u)

/-- Whether PART lets a unit take work of class `c` (R31). -/
def State.unitAdmits (s : State) (u : EUnit) (c : Nat) : Bool :=
  match s.active with
  | some im =>
    match u with
    | .tc i => admits ((im.part.tgClass[i.val / 4]?).getD 0) c
    | .lc i => admits ((im.part.tgClass[i.val / 2]?).getD 0) c
    | .quad i => admits ((im.part.quadClass[i.val]?).getD 0) c
    | _ => true
  | none => true

/-- The dispatches of class 1, 2 or 3 whose work a unit is running: rays and queries in a cluster, groups resident on a lane core and
neural batches that it evaluates, batches, neural batches and scoring in a quadrant.  A guest's work counts under its pair. -/
def State.lowerWork (s : State) (u : EUnit) : List Nat :=
  let low := fun id => match s.clsOfDisp id with | some c => c != 0 | none => false
  let neural := fun (p : NBatch → Bool) => (s.nbatches.filter (fun b => b.closed && p b)).flatMap (fun b =>
    (b.samples.filterMap (fun x => s.ray x.ray)).filterMap (fun r => if r.cls = 0 then none else some r.disp))
  let onQuad := fun (d k i : Nat) => match s.disp d with
    | some d => (match s.stageOf d k with | some t => bit t.quadMask i | none => false)
    | none => false
  match u with
  | .tc i => (s.rays.filter (fun r => r.tc == i.val && (r.loc == .batch || r.loc == .ctx || r.loc == .callout || r.loc == .neural) &&
      r.cls != 0)).map (fun r => r.disp)
  | .lc i => (s.groups.filter (fun g => g.lc == i.val && g.slot.isSome && g.cls != 0)).map (fun g => g.disp) ++
      neural (fun b => b.quad.isNone && b.lc == i.val)
  | .quad i =>
    (s.mbatches.filter (fun m => m.arr == i.val / 4 && low m.disp && onQuad m.disp m.stage i.val)).map (fun m => m.disp) ++
    neural (fun b => b.quad == some i.val) ++
    (s.gblocks.filter (fun b => b.quad == some i.val && low b.disp)).map (fun b => b.disp)
  | _ => []

/-- Whether dispatch `d` is the one that a unit takes work of (R33): of the running dispatches for which `waits` holds, none is of a
lower class, and none older of its own. -/
def State.comesFirst (s : State) (d : Dispatch) (waits : Dispatch → Bool) : Bool :=
  !s.disps.any (fun e => e.phase == .running && e.fixedStatus == 0 &&
    (e.rcd.cls < d.rcd.cls || (e.rcd.cls == d.rcd.cls && e.id < d.id)) && waits e)

/-- Whether a unit is preempted or asked to stop. -/
def State.preempted (s : State) (u : EUnit) : Bool := s.preempts.any (fun p => p.unit == u)

/-- Whether a unit may take work of class `c` now: in service, admitting the class, and, while preempted, only class 0 after its
preemption point (R31, R118, R119). -/
def State.mayWork (s : State) (u : EUnit) (c : Nat) : Bool :=
  s.inService u && s.unitAdmits u c && !s.inSeq u &&
  (match s.preempts.find? (fun p => p.unit == u) with
    | some p => p.saved && c == 0
    | none => true)

/-- Taking a class 0 dispatch preempts every unit of its chain that admits class 0 and runs work of another class (R118). -/
def State.preemptFor (s : State) (c : Chain) : State :=
  EUnit.all.foldl (fun s u =>
    let l := s.lowerWork u
    if c.hasUnit u && s.unitAdmits u 0 && s.inService u && !l.isEmpty && !s.preempted u then
      { s with preempts := s.preempts ++ [{ unit := u, saved := false }],
               disps := s.disps.map (fun d => if l.contains d.id then { d with preempted := true } else d) }
    else s) s

/-- The check of a taken record, steps 1 to 4 of R107: the status it fails with. -/
def recordCheck (im : Option Image) (c : Nat) (r : DispRec) : Option Nat :=
  if r.cls ≠ c then some 0x04
  else match im.bind (fun i => i.chain r.chain) with
    | none => some 0x03
    | some ch =>
      if !bit ch.classMask r.cls then some 0x04
      else if (ch.paramSize ≠ 0 && r.paramAddr % 64 != 0) || r.doneAddr % 32 != 0 || r.failAddr % 16 != 0 then some 0x05
      else none

/-- Whether the conditions of R102 on a record at the head of DQc hold. -/
def State.mayTake (s : State) (c : Nat) (r : DispRec) : Bool :=
  match s.active with
  | none => false
  | some im =>
    s.mayStart c && (s.running c).length < ((im.qos[c]?).map Qos.maxInflight).getD 1 &&
    !s.disps.any (fun d => s.runs d && d.fixedStatus == 0 && d.rcd.chain == r.chain) &&
    (!r.afterPrev || (s.running c).isEmpty) && (s.queue c).enabled

/-- A new dispatch from a record taken of DQc: it waits for its parameter block where its chain has one. -/
def State.newDispatch (s : State) (c : Nat) (r : DispRec) (triggered : Bool) : Dispatch :=
  let ch := s.active.bind (fun i => i.chain r.chain)
  { id := s.nextDisp, queue := c, rcd := r, seq := s.get (F.dqSeq c),
    imageId := (match s.active with | some i => i.id | none => 0),
    phase := (match ch with | some h => if h.paramSize = 0 then .running else .paramWait | none => .paramWait), fixedStatus := 0, param := [], asDesc := [],
    asFail := 0, ksAddr := none, ksDesc := none, ksFail := 0, done := 0, fail := 0, endedItems := [], failLast := none,
    failEntries := 0, failFull := false, preempted := false, recovery := s.window.isSome, triggered := triggered,
    stages := (match ch with | some h => h.stages.map (fun _ => { taken := 0, runs := 0, finished := false }) | none => []),
    queues := (match ch with | some h => h.queues.map (fun _ => { entries := [], appended := 0 }) | none => []),
    intake := 0, deadTreelets := [], lost := none }

/-- A taken record that is not run: every item fails FAIL_ABORT and it completes with a fixed status (R107, R113), without RECOVERY,
since it never ran (R663). -/
def State.rejectDispatch (s : State) (id status itemStatus : Nat) : State :=
  let s := s.modDisp id (fun d => { d with fixedStatus := status, recovery := false })
  let s := match s.disp id with | some d => s.failItems id 0 d.rcd.itemCount itemStatus none | none => s
  s.modDisp id (fun d => { d with phase := .ended })

/-- The record `r` is taken from DQc: SEQ assigned, checked, and its dispatch begun or rejected (R107). -/
def State.takeRecord (s : State) (c : Nat) (r : DispRec) (triggered flushed : Bool) : State :=
  let d := s.newDispatch c r triggered
  let s := ({ s with disps := s.disps ++ [d], nextDisp := s.nextDisp + 1 }).tally (F.dqSeq c) 1
  if flushed then s.rejectDispatch d.id 0x07 stAbort
  else match recordCheck s.active c r with
    | some st => s.rejectDispatch d.id st stAbort
    | none =>
      if r.itemCount = 0 then s.modDisp d.id (fun d => { d with phase := .ended, recovery := false })
      else
        match s.active.bind (fun i => i.chain r.chain) with
        | none => s
        | some ch => if c = 0 then s.preemptFor ch else s

/-- DISPATCH_TAKE of DQc: a firing first (R127), else the head record; under FLUSH the record is taken without running, where queues may
advance (R89, R96, R103). -/
def State.dispatchTake (s : State) (c : Nat) : State :=
  let q := s.queue c
  let ring := fun (s : State) (flushed : Bool) (r : DispRec) =>
    let s := (s.set (F.dqHead c) (s.get (F.dqHead c) + 1)).modQueue c (fun q => { q with head := none })
    let s := s.takeRecord c r false flushed
    if (s.queue c).flushTo = some (s.get (F.dqHead c)) then (s.modQueue c (fun q => { q with flushTo := none })).dqShow c else s
  match q.flushTo, q.head with
  | some _, some r => if s.mayAdvance then ring s true r else s
  | some _, none => s
  | none, h =>
    match q.firings with
    | f :: rest => if s.mayTake c f.rcd then (s.modQueue c (fun q => { q with firings := rest })).takeRecord c f.rcd true false else s
    | [] =>
      match h with
      | some r => if s.mayTake c r then ring s false r else s
      | none => s

/-- The address of the acceleration-structure descriptor of a dispatch, when its parameter block has been read and one of its stages traverses
the structure that an aligned AS_ADDR names (R143). -/
def State.descWanted (s : State) (d : Dispatch) (ch : Chain) : Option Nat :=
  let a := s.memNat d.rcd.paramAddr 8
  if ch.stages.any (fun t => t.kind == 3) && a % 64 == 0 then some a else none

/-- The effect of the reads of a dispatch's parameter block and descriptor (R106, R107, R143). -/
def State.paramEnds (s : State) (d : Dispatch) (ch : Chain) (r desc : ReadOutcome) : State :=
  let at' := d.rcd.paramAddr
  let s := s.readEnds (.param d.id) d.rcd.cls at' ch.paramSize r
  match r with
  | .abort => s.rejectDispatch d.id 0x06 stPage
  | .unc => s.rejectDispatch d.id 0x06 stUnc
  | .ok =>
    let p := s.memGet at' ch.paramSize
    match s.descWanted d ch with
    | none => s.modDisp d.id (fun d => { d with param := p, asDesc := [], asFail := 0, phase := .running })
    | some a =>
      let bs := if desc = .ok then s.memGet a 64 else []
      let f := match desc with | .ok => 0 | .abort => stPage | .unc => stUnc
      (s.readEnds (.asDesc d.id) d.rcd.cls a 64 desc).modDisp d.id (fun d => { d with param := p, asDesc := bs, asFail := f, phase := .running })

/-- The parameter block read of a dispatch ends, and with it the read of its acceleration-structure descriptor. -/
def State.paramRead (s : State) (id : Nat) (r desc : ReadOutcome) : State :=
  match s.disp id with
  | none => s
  | some d =>
    match s.chainOf d with
    | none => s
    | some ch =>
      let ready := match (if r = .ok then s.descWanted d ch else none) with
        | some a => s.readable (.asDesc id) a 64 desc
        | none => !s.waits (.asDesc id)
      if d.phase != .paramWait || !s.readable (.param id) d.rcd.paramAddr ch.paramSize r || !ready then s else s.paramEnds d ch r desc

/-- The fault of a dispatch's parameter block, or of its descriptor when `desc`, is answered with ABORT. -/
def State.paramLost (s : State) (id : Nat) (desc : Bool) : State :=
  match s.disp id with
  | none => s
  | some d =>
    match s.chainOf d with
    | none => s
    | some ch => if d.phase != .paramWait then s else if desc then s.paramEnds d ch .ok .abort else s.paramEnds d ch .abort .ok

/-! ### Completion -/

/-- The STATUS of a completed dispatch (Table 36). -/
def Dispatch.status (d : Dispatch) : Nat :=
  if d.fixedStatus ≠ 0 then d.fixedStatus
  else if d.fail = 0 then 0x00
  else if d.done = 0 then 0x02
  else 0x01

/-- The completion record (Table 35); DONE_MARK stands in its last word (R109). -/
def Dispatch.record (d : Dispatch) : List Byte :=
  let fl := boolNat d.preempted + 2 * boolNat d.recovery + 4 * boolNat d.failFull + 8 * boolNat d.triggered
  leBytes 4 d.rcd.tag ++ leBytes 2 d.rcd.chain ++ leBytes 1 d.rcd.cls ++ leBytes 1 d.status ++ leBytes 4 d.done ++
  leBytes 4 d.fail ++ leBytes 2 (min d.failEntries 0xFFFF) ++ leBytes 2 fl ++ leBytes 4 d.imageId ++ leBytes 4 d.seq ++
  leBytes 4 (2 ^ 31 + d.seq % 2 ^ 31)

/-- The completion record of the oldest dispatch of DQc is written once it has ended, after its end marker (R108, R110, R112). -/
def State.complete (s : State) (c : Fin 4) : State :=
  match s.disps.find? (fun d => d.queue == c.val) with
  | none => s
  | some d =>
    if s.runs d then s
    else
      let s := { s with disps := s.disps.filter (fun e => e.id != d.id) }
      let s := if d.rcd.failAddr ≠ 0 ∧ d.failEntries < d.rcd.failCap then
          s.pushWrite c { addr := d.rcd.failAddr + 16 * d.failEntries, bytes := List.replicate 16 0, entry := true, irq := false }
        else s
      s.pushWrite c { addr := d.rcd.doneAddr, bytes := d.record, entry := false, irq := d.rcd.irq }

/-- The owner's read of DONE_LOST_HI while VALID is 1 (R587). -/
def State.doneLostRead (s : State) (c : Fin 4) : State :=
  if !s.flag (F.doneLostLoValid c.val) then s
  else
    let s := s.set (F.doneLostLoValid c.val) 0
    match (s.queue c.val).lost with
    | w :: rest => (s.modQueue c.val (fun q => { q with lost := rest })).loseWrite c.val w
    | [] => s.drain c

/-! ### Standing schedules -/

/-- A frame event (R760): ignored while PRESENT is 0; it fires entries (R126) and in NAP wakes the engine when enabled (R622). -/
def State.frameEvent (s : State) (n : Nat) : State :=
  if !s.present then s
  else
    let w := s.get F.cpLpStatusState == lpNap && s.flag F.cpLpCtrlFrame && s.fires 1 n
    let s := s.fire 1 n
    if w then s.wake 3 else s

/-- The read of a fired schedule entry ends: it is placed in DQc ahead of every record not yet taken, or discarded and logged
(R127, R128, Table 134). -/
def State.schedPlaced (s : State) (i : Fin 32) (r : ReadOutcome) : State :=
  let a := s.schedAddr i.val
  if !s.schedWait.contains i.val || !s.readable (.sched i) a 64 r then s
  else
    let s := s.readEnds (.sched i) ((s.readRecord a).cls % 4) a 64 r
    let s := { s with schedWait := s.schedWait.filter (· != i.val) }
    match r with
    | .ok =>
      let e := s.readRecord a
      let k := (s.schedK[i.val]?).getD 0
      let e := if 2 ≤ e.doneRing then
          { e with doneAddr := e.doneAddr + 32 * (k % e.doneRing),
                   failAddr := if e.failAddr = 0 then 0 else e.failAddr + 16 * e.failCap * (k % e.doneRing) }
        else e
      let s := { s with schedK := modifyAt (· + 1) i.val s.schedK }
      s.modQueue (e.cls % 4) (fun q => { q with firings := q.firings ++ [{ entry := i.val, rcd := e, k := k }] })
    | _ => s.note 13 ([BitVec.ofNat 8 i.val, 1] ++ List.replicate 10 255)

/-- SCHED_EN written: an entry whose bit is newly set counts its firings from 0 (R128). -/
def State.schedEnable (s : State) (v : Nat) : State :=
  let old := s.get F.schedEn
  let ks := (List.range 32).map (fun i => if bit v i && !bit old i then 0 else (s.schedK[i]?).getD 0)
  { s.set F.schedEn v with schedK := ks }

end Sys2Proof.Machine
end

