-- ==== Sys2Proof/Machine/RayOps.lean ====
section
/-! DEFINITION. Rays and queries in the ray sorter: what their dispatch or guest pair gives them, treelet table entries, treelet
queues and segments, tickets, forwarding to peers, and ending with a record ("Ray Sorting, Treelet Streaming and Hit Return",
"Peer Link and Multi-Engine Systems"). -/

namespace Sys2Proof.Machine

/-- `n` bytes at `o` of a record, as a little-endian value. -/
def fieldOf (b : List Byte) (o n : Nat) : Nat := leVal ((b.drop o).take n)

/-! ### What a ray's dispatch gives it -/

/-- The guest pair with a key. -/
def State.pair (s : State) (key : Nat) : Option GuestPair := s.plk.pairs.find? (fun p => p.key == key)

/-- The TRAVERSE or QUERY stage of a ray or queue, by its dispatch or guest pair and its stage. -/
def State.stageFor (s : State) (id stage : Nat) : Option Stage :=
  match s.disp id with
  | some d => s.stageOf d stage
  | none =>
    match s.pair id, s.active with
    | some p, some im => (im.chain p.chain).bind (fun c => c.stages[stage]?)
    | _, _ => none

/-- The address of the descriptor of a ray or queue and the copy read of it. -/
def State.descFor (s : State) (id : Nat) (query : Bool) : Nat × List Byte :=
  match s.disp id with
  | some d => if query then (d.ksAddr.getD 0, d.ksDesc.getD []) else (fieldOf d.param 0 8, d.asDesc)
  | none =>
    match s.pair id with
    | some p => if query then (p.ksAddr, p.ksDesc) else (p.asAddr, p.asDesc)
    | none => (0, [])

/-- The descriptor of a ray. -/
def State.descOf (s : State) (r : Ray) : Nat × List Byte := s.descFor r.disp r.query

/-- The stage of a ray. -/
def State.rayStage (s : State) (r : Ray) : Option Stage := s.stageFor r.disp r.stage

/-- The TRAV entry of a stage. -/
def State.travOf (s : State) (t : Stage) : TravCfg :=
  ((s.active.bind (fun im => im.travs[t.settings]?))).getD
    { maxDepth := 0, samples := 0, anyhit := 0xFFFF, isect := 0xFFFF, refine := 0xFFFF, arrayBatch := 0 }

/-- The QRY entry of a stage. -/
def State.qryOf (s : State) (t : Stage) : QryCfg :=
  ((s.active.bind (fun im => im.qrys[t.settings]?))).getD { dims := 2, kMax := 1, output := 0, candMax := 1, scoreDim := 1 }

/-- Fields of a descriptor (Tables 45 and 73). -/
def descCount (d : List Byte) : Nat := fieldOf d 4 4
def descBase (d : List Byte) : Nat := fieldOf d 8 8
def descRoot (d : List Byte) : Nat := fieldOf d 16 4
def descGen (d : List Byte) : Nat := fieldOf d 20 4

/-- TREELET and OFFSET of a node reference (Table 46). -/
def refTreelet (r : Nat) : Nat := bits r 10 20
def refOffset (r : Nat) : Nat := bits r 0 10

/-- Whether a descriptor is well formed, its address included (R177). -/
def descOk (addr : Nat) (d : List Byte) (query : Bool) : Bool :=
  addr % 64 == 0 && d.length == 64 && fieldOf d 0 2 == (if query then 2 else 1) && 1 ≤ descCount d && descCount d ≤ 1048576 &&
  descBase d % 64 == 0 &&
  (!query || (2 ≤ fieldOf d 2 1 && fieldOf d 2 1 ≤ 8 && fieldOf d 3 1 ≤ 4 && 1 ≤ fieldOf d 24 4 && fieldOf d 24 4 ≤ 67108864 &&
    1 ≤ fieldOf d 28 2 && fieldOf d 28 2 ≤ 256 && fieldOf d 32 8 % 32 == 0 && fieldOf d 40 4 % 32 == 0 &&
    fieldOf d 40 4 ≥ fieldOf d 28 2 * (if fieldOf d 3 1 ≤ 1 then 2 else 1)))

/-! ### The treelet table -/

/-- Treelet table entry `i` (Table 47). -/
def State.ttEntry (s : State) (d : List Byte) (i : Nat) : List Byte := s.memGet (descBase d + 16 * i) 16

/-- ADDR, SIZE in bytes and HOME of a table entry. -/
def ttAddr (e : List Byte) : Nat := fieldOf e 0 8
def ttBytes (e : List Byte) : Nat := 64 * fieldOf e 8 2
def ttRemote (e : List Byte) : Bool := bit (fieldOf e 10 2) 15
def ttNode (e : List Byte) : Nat := fieldOf e 10 2 % 4096

/-- Whether a reference to treelet `i` is malformed (R177, BAD_REF). -/
def State.ttBad (s : State) (d : List Byte) (i : Nat) : Bool :=
  if i ≥ descCount d then true
  else
    let e := s.ttEntry d i
    !bit (fieldOf e 12 2) 0 || ttBytes e == 0 || ttBytes e > 65536 || ttAddr e % 256 != 0 || (ttRemote e && s.integ.plkPorts == 0)

/-- Whether entry `i` of the treelet table of a dispatch or guest pair can be read now; a reference that is not below TT_COUNT reads
none (R147). -/
def State.ttReach (s : State) (id : Nat) (d : List Byte) (i : Nat) : Bool :=
  i ≥ descCount d || s.reaches (.tableEntry id i) (descBase d + 16 * i) 16 false

/-- The entry is read, for a ray or queue of class `cls`. -/
def State.ttRead (s : State) (id cls : Nat) (d : List Byte) (i : Nat) : State :=
  if i ≥ descCount d then s else s.access (.tableEntry id i) cls (descBase d + 16 * i) 16 false

/-! ### Batches -/

/-- A ray leaves its batch, which is spent when it holds none (R249). -/
def State.leaveBatch (s : State) (ray : Nat) : State :=
  { s with batches := (s.batches.map (fun b => { b with rays := b.rays.filter (· != ray) })).filter (fun b => !b.rays.isEmpty) }

/-! ### Tickets (R266) -/

/-- The input queues of a chain's RETURN stages. -/
def Chain.returns (c : Chain) : List Nat := (c.stages.filter (fun t => t.kind == 8)).map (fun t => t.input)

/-- The input queues of RETURN stages of a chain with ORDERED_RETURN whose producer is a TRAVERSE stage (R265). -/
def Chain.orderedQueues (c : Chain) : List Nat :=
  if !c.ordered then []
  else c.returns.filter (fun q => c.stages.any (fun u => u.kind == 3 && (u.out0 == q || u.out1 == q)))

/-- Whether a ray of the chain holds a ticket: ORDERED_RETURN is set (R266). -/
def Chain.tickets (c : Chain) : Bool := c.ordered

/-- The tickets held by rays of a dispatch. -/
def State.ticketsHeld (s : State) (id : Nat) : Nat :=
  (s.rays.filter (fun r => r.disp == id && r.ticket && r.guest.isNone)).length

/-- Whether the ray sorter may take one ray more of a dispatch (R268). -/
def State.ticketRoom (s : State) (d : Dispatch) : Bool :=
  match s.chainOf d with
  | none => true
  | some c =>
    if !c.tickets then true
    else
      let l := if c.orderedQueues.isEmpty then c.returns.take 1 else c.orderedQueues
      l.all (fun i => match c.queues[i]? with
        | some q => s.ticketsHeld d.id < min q.capacity 65536
        | none => true)

/-! ### Gather blocks (R299) -/

/-- Whether stage `k` of a dispatch holds items that it has taken and not yet passed on. -/
def State.stageBusy (s : State) (id k : Nat) : Bool :=
  s.rays.any (fun r => r.disp == id && r.stage == k && r.guest.isNone && r.loc != .settled) ||
  s.groups.any (fun g => g.disp == id && g.stage == k) || s.mbatches.any (fun b => b.disp == id && b.stage == k) ||
  s.gblocks.any (fun b => b.disp == id && b.stage == k && !b.closed) || s.sitems.any (fun e => e.disp == id && e.stage == k)

/-- Whether records may still come to stage `k` of a dispatch: its first stage has items left, its input queue holds some, or a
stage before it holds or expects some. -/
def State.comes (s : State) (d : Dispatch) (c : Chain) : Nat → Nat → Bool
  | 0, _ => false
  | n + 1, k =>
    match c.stages[k]? with
    | none => false
    | some t =>
      if t.input = 255 then ((d.stages[k]?).map (fun x => !x.finished)).getD false
      else !(d.hq t.input).entries.isEmpty ||
        (match c.stages.findIdx? (fun u => u.out0 == t.input || u.out1 == t.input) with
          | some j => s.stageBusy d.id j || s.comes d c n j
          | none => false)

/-- Whether the producer of a stage's input queue may still append to it. -/
def State.moreInput (s : State) (d : Dispatch) (c : Chain) (q : Nat) : Bool :=
  match c.stages.findIdx? (fun u => u.out0 == q || u.out1 == q) with
  | some j => s.stageBusy d.id j || s.comes d c 16 j
  | none => false

/-- The queries of a dispatch's QUERY stage that it can still bring: records not yet taken, or taken and not yet ended. -/
def State.queriesLeft (s : State) (id stage : Nat) : Bool :=
  match s.disp id with
  | none => false
  | some d =>
    s.rays.any (fun r => r.disp == id && r.stage == stage && r.query && (r.loc != .ended && r.loc != .settled)) ||
    (match s.chainOf d with
      | some c => s.comes d c 16 stage
      | none => false)

/-- The bytes of a gather tile (Table 79). -/
def GBlock.tile (b : GBlock) : List Byte :=
  let union := (dedup (b.queries.flatMap (fun q => q.cands))).mergeSort (fun a b => decide (a ≤ b))
  let posOf := fun k => (union.findIdx? (· == k)).getD 0
  let pad := fun (n : Nat) (l : List Byte) => (l ++ List.replicate (n - l.length) (0 : Byte)).take n
  let info := b.queries.flatMap (fun q =>
    pad 32 (leBytes 4 q.qid ++ leBytes 4 q.item ++ leBytes 8 q.qvec ++ leBytes 1 q.k ++ leBytes 1 q.status ++
      leBytes 1 q.cands.length))
  let pos := b.queries.flatMap (fun q =>
    pad 128 (((q.cands.map posOf).mergeSort (fun a b => decide (a ≤ b))).flatMap (leBytes 2)))
  pad 0x40 (leBytes 2 b.queries.length ++ leBytes 2 0 ++ leBytes 4 union.length) ++ pad 0x1000 info ++ pad 0x4000 pos ++
  pad 0x8000 (union.flatMap (leBytes 4))

/-- The distinct key indices of a block. -/
def GBlock.unionCount (b : GBlock) : Nat := (dedup (b.queries.flatMap (fun q => q.cands))).length

/-- The quadrant that scores a block: of the scoring stage's QUAD_MASK, in service, the one with the fewest blocks, the lowest index on ties.
DESIGN CHOICE: by R305 nothing depends on it (log entry 89). -/
def State.scoreQuad (s : State) (d : Dispatch) (t : Stage) : Option Nat :=
  match (s.chainOf d).bind (fun c => c.stages.find? (fun u => u.kind == 5 && u.input == t.out0)) with
  | none => none
  | some u =>
    let held := fun (q : Fin 8) => (s.gblocks.filter (fun b => b.quad == some q.val)).length
    (leastBy (fun a b => decide (held a < held b)) ((List.finRange 8).filter (fun q =>
      bit u.quadMask q.val && s.inService (.quad q) && s.unitAdmits (.quad q) d.rcd.cls))).map
      (fun q => q.val)

/-- A block takes no query more; when its stage's output queue has room, one gather tile is appended (R299). -/
def State.closeBlock (s : State) (id : Nat) : State :=
  match s.gblocks.find? (fun b => b.id == id && !b.closed) with
  | none => s
  | some b =>
    match s.disp b.disp, s.stageFor b.disp b.stage with
    | some d, some t =>
      let room := s.hasRoom d t.out0
      let quad := s.scoreQuad d t
      let s : State := { s with gblocks := s.gblocks.map (fun (x : GBlock) =>
        if x.id == id then (if room then { x with full := true, closed := true, quad := quad } else { x with full := true }) else x) }
      if !room then s
      else
        let first := match b.queries.head? with | some q => q.item | none => 0
        let s := s.append .query b.disp t.out0 first b.queries.length b.id false 0 b.tile
        (s.bump F.qryBlocks 1).bump F.qryUnionKeys b.unionCount
    | _, _ => s

/-- The open block of a stage. -/
def State.openBlock (s : State) (id stage : Nat) : Option GBlock :=
  s.gblocks.find? (fun b => b.disp == id && b.stage == stage && !b.closed && !b.full)

/-- Blocks that are full, or that wait for room, or whose stage has no further queries, close (R299). -/
def State.closeFull (s : State) : State :=
  (s.gblocks.filter (fun b => !b.closed)).foldl (fun s b =>
    if b.full || b.queries.length ≥ 128 || !s.queriesLeft b.disp b.stage then s.closeBlock b.id else s) s

/-- An ended query joins the open gather block of its stage (R299). -/
def State.gather (s : State) (id stage : Nat) (q : GQuery) : State :=
  let s := match s.openBlock id stage with
    | some b =>
      { s with gblocks := s.gblocks.map (fun (x : GBlock) => if x.id == b.id then { x with queries := x.queries ++ [q] } else x) }
    | none =>
      let b : GBlock := { id := s.nextGb, disp := id, stage := stage, full := false, closed := false, queries := [q], scored := false, done := 0,
                           lost := [], quad := none }
      { s with gblocks := s.gblocks ++ [b], nextGb := s.nextGb + 1 }
  s.closeFull

/-! ### Ending (R230, R231, R295) -/

/-- FLAGS and PIXEL_KEY of a ray as its queue entries carry them. -/
def Ray.route (r : Ray) : Nat := if r.query then 0 else fieldOf r.rcd 0x20 2 + 65536 * fieldOf r.rcd 0x28 4

/-- ARG of RAY_ACK, HIT and QRES: handle, item and generation (Table 184). -/
def guestArg (handle item gen : Nat) : Nat := handle % 65536 + 65536 * (item % 2 ^ 32) + 2 ^ 48 * (gen % 256)

/-- The record of a ray that has ended leaves its stage: appended to the stage's output, or the item's final record (R231).
A record that finds no room waits (R29). -/
def State.settleRay (s : State) (r : Ray) : State :=
  match s.rayStage r, s.disp r.disp with
  | some t, some d =>
    let q := t.route r.fin r.route
    let u := if r.query then EUnit.query else tcUnit r.tc
    if q = 255 then
      let s := if r.failed then s else s.endItem r.disp r.item u
      s.dropRay r.id
    else if s.hasRoom d q then
      let keep := match s.chainOf d with | some c => c.orderedQueues.contains q | none => false
      let s := s.append u r.disp q r.item 1 r.route r.failed (r.id + 1) r.fin
      s.modRay r.id (fun r => { r with loc := .settled, ticket := r.ticket && keep })
    else s
  | _, _ => s.dropRay r.id

/-- Every record that waits for room in its stage's output, oldest ray first, and every gather block that can close. -/
def State.flushRays (s : State) : State :=
  ((s.rays.filter (fun r => r.loc == .ended)).foldl (fun s r => s.settleRay r) s).closeFull

/-- Whether a stage of a dispatch has a record or a gather block that waits for room: its pipelines then issue nothing for it (R29). -/
def State.stageBlocked (s : State) (r : Ray) : Bool :=
  s.rays.any (fun x => x.loc == .ended && x.disp == r.disp && x.stage == r.stage) ||
  s.gblocks.any (fun b => b.full && !b.closed && b.disp == r.disp && b.stage == r.stage)

/-- A ray of this engine ends with its final record, which goes to its stage's output.  The spill lines of the ray leave the cluster's
cache (R539) and its batch no longer holds it. -/
def State.finishOwn (s : State) (r : Ray) (fin : List Byte) (failed : Bool) : State :=
  let s := if r.loc = .queued || r.loc = .overflow || r.loc = .remote then s else s.spcRelease r.tc r.id false
  let s := (s.leaveBatch r.id).takeEntry r.id
  let s := s.modRay r.id (fun r => { r with loc := .ended, fin := fin, failed := r.failed || failed, stack := [], leaf := none,
                                            call := none, neural := none, home := none })
  s.flushRays.tidyQueues

/-- The hit record of a failed ray (R230). -/
def failRecord (r : Ray) (status : Nat) : List Byte :=
  List.replicate 23 0 ++ leBytes 1 status ++ leBytes 4 (fieldOf r.rcd 0x24 4) ++ leBytes 4 0

/-- The result record of a query (Table 78). -/
def resultRecord (r : Ray) (total count status kind flags union : Nat) : List Byte :=
  leBytes 4 (fieldOf r.rcd 4 4) ++ leBytes 4 r.item ++ leBytes 4 total ++ leBytes 1 count ++ leBytes 1 status ++ leBytes 1 kind ++
  leBytes 1 flags ++ leBytes 4 union ++ List.replicate 12 0

/-- The result record and list of a query written to memory (R295). -/
def State.writeResult (s : State) (d : Dispatch) (item : Nat) (rcd list : List Byte) : State :=
  let s := if list.isEmpty then s else s.memPut (fieldOf d.param 0x10 8 + 512 * item) list
  s.memPut (fieldOf d.param 0x08 8 + 32 * item) rcd

/-- The first failed query is captured in the query engine's registers (R307, R308). -/
def State.qryCapture (s : State) (status cause : Nat) (u : Option EUnit) (qid treelet : Nat) : State :=
  let s := s.bump F.qryFailCount 1
  if s.flag F.qryFailInfoValid then s
  else s.setAll [(F.qryFailInfoValid, 1), (F.qryFailInfoUnitIndex, unitIndex u), (F.qryFailInfoUnitKind, unitKind u),
    (F.qryFailInfoCause, cause), (F.qryFailInfoStatus, status), (F.qryFailId, qid), (F.qryFailTreelet, treelet)]

/-- The first ray that a cluster of a group fails is captured (R234). -/
def State.tgCapture (s : State) (tc status cause rayId treelet : Nat) : State :=
  let g := tc / 4
  let s := s.bump (F.tgFailCount g) 1
  if s.flag (F.tgFailInfoValid g) then s
  else s.setAll [(F.tgFailInfoValid g, 1), (F.tgFailInfoCluster g, tc % 4), (F.tgFailInfoCause g, cause),
    (F.tgFailInfoStatus g, status), (F.tgFailRay g, rayId), (F.tgFailTreelet g, treelet)]

/-- A query of this engine ends with its result record and list: written and routed, or, under OUTPUT 1, its candidates placed in a
gather block (R295–R299); its queue entry then stands until the block's tile has left the stage's output (R243, R293). -/
def State.endOwnQuery (s : State) (r : Ray) (rcd bytes : List Byte) (u : Option EUnit) : State :=
  let status := fieldOf rcd 13 1
  match s.rayStage r, s.disp r.disp with
  | some t, some d =>
    if (s.qryOf t).output = 1 then
      let q : GQuery := { ray := r.id, item := r.item, qid := fieldOf r.rcd 4 4, qvec := fieldOf r.rcd 0x38 8, k := fieldOf r.rcd 3 1,
                          status := status, kind := unitKind u, index := unitIndex u, total := fieldOf rcd 8 4,
                          truncated := bit (fieldOf rcd 15 1) 0,
                          cands := (List.range (fieldOf rcd 12 1)).map (fun i => fieldOf bytes (8 * i) 4), cause := 0, list := [] }
      let s := if r.loc = .remote then s else s.spcRelease r.tc r.id false
      let s := ((s.leaveBatch r.id).takeEntry r.id).modRay r.id (fun r =>
        { r with loc := .settled, stack := [], leaf := none, call := none, neural := none, home := none })
      (s.gather r.disp r.stage q).tidyQueues
    else (s.writeResult d r.item rcd bytes).finishOwn r rcd (status != stOk)
  | _, _ => s.dropRay r.id

/-- The unit that the failure entry of an item forwarded to a peer names: the port on which it was sent (R735). -/
def Ray.linkUnit (r : Ray) : EUnit := match r.link with | some p => .plk ⟨p % 8, Nat.mod_lt _ (by decide)⟩ | none => .sorter

/-- The final record of a forwarded item arrives at its origin (R734): it joins the stage's output as if the stage had produced it; one
of another generation, or of an item that has ended already, is discarded and counted.  The arrival acknowledges the item, so its
ticket is released (R266). -/
def State.recordArrives (s : State) (query : Bool) (arg : Nat) (bs : List Byte) : State :=
  match s.rays.find? (fun r => r.loc == .remote && r.guest.isNone && r.query == query && guestArg r.disp r.item r.gen == arg % 2 ^ 56) with
  | none => s.bump F.plkDupDrop 1
  | some r =>
    let s := (s.freeSeg r.id).modRay r.id (fun r => { r with ticket := false })
    let r := { r with ticket := false }
    let u := some r.linkUnit
    let status := if query then fieldOf bs 13 1 else fieldOf bs 23 1
    let failed := status != stOk && (query || status != stMiss)
    let scored := match s.rayStage r with | some t => r.query && (s.qryOf t).output == 1 | none => false
    let s := if !failed || scored || r.failed then s else s.failItem r.disp r.item status u
    if query then s.endOwnQuery r (bs.take 32) (bs.drop 32) u else s.finishOwn r (bs.take 32) failed

/-- A ray ends with its final record: a guest's goes to its origin (R733), this engine's own to its stage's output. -/
def State.finishRay (s : State) (r : Ray) (fin extra : List Byte) (failed : Bool) : State :=
  match r.guest with
  | some g =>
    let s := if r.loc = .queued || r.loc = .overflow || r.loc = .remote then s else s.spcRelease r.tc r.id false
    let s := ((s.leaveBatch r.id).dropRay r.id).tidyQueues
    let arg := guestArg g.handle r.item g.gen
    if g.origin = s.get F.plkNode then s.recordArrives r.query arg (fin ++ extra)
    else s.plkPost g.origin (if r.query then ptQres else ptHit) tcRay true r.cls arg (fin ++ extra)
  | none => s.finishOwn r fin failed

/-- A query ends (R295–R299); a guest's record goes to its origin (R733). -/
def State.endQuery (s : State) (r : Ray) (status : Nat) (u : Option EUnit) : State :=
  let ok := status == stOk
  let list := if ok then r.list else []
  let range := fieldOf r.rcd 2 1 == 1
  let total := if !ok then 0 else if range then r.total else list.length
  let flags := boolNat (ok && range && r.total > list.length)
  let rcd := resultRecord r total list.length status 0 flags 0
  let bytes := list.flatMap (fun e => leBytes 4 e.1 ++ leBytes 4 e.2)
  match r.guest with
  | some _ => s.finishRay r rcd bytes (!ok)
  | none => s.endOwnQuery r rcd bytes u

/-- A ray or query ends failed in unit `u` (R178, R230, R296): captured by whoever failed it, listed, and its record emitted.
`u` none stands for the ray sorter's or query engine's own names. -/
def State.failRay (s : State) (r : Ray) (status cause : Nat) (u : EUnit) (byCluster : Bool) : State :=
  let s := if r.query then s.qryCapture status cause (some u) (fieldOf r.rcd 4 4) r.treelet
    else if byCluster then s.tgCapture r.tc status cause (fieldOf r.rcd 0x24 4) r.treelet else s
  let s := if status = stProg then s.capture 9 (some u) 0 else s
  let scored := match s.rayStage r with | some t => r.query && (s.qryOf t).output == 1 | none => false
  let s := if r.guest.isSome || scored || r.failed then s else s.failItem r.disp r.item status (some u)
  if r.query then s.endQuery r status (some u) else s.finishRay r (failRecord r status) [] true

/-- A ray or query ends with a FAIL_UNC record of its own as its dispatch is lost whole (R231, R660); its item is listed already.  The
cluster that lost the line counts it and may capture it (R234, R554). -/
def State.loseRay (s : State) (r : Ray) (u : Option EUnit) : State :=
  let s := match r.query, u with
    | true, u => s.qryCapture stUnc 0x11 u (fieldOf r.rcd 4 4) r.treelet
    | false, some (.tc i) => s.tgCapture i.val stUnc 0x11 (fieldOf r.rcd 0x24 4) r.treelet
    | false, _ => s
  if r.query then s.endQuery r stUnc u else s.finishRay r (failRecord r stUnc) [] true

/-- The ray sorter fails a ray or query (R143, R252, R259). -/
def State.sorterFail (s : State) (r : Ray) (status cause : Nat) : State := s.failRay r status cause .sorter false

/-! ### Binning (R239, R252, R253) -/

/-- A ray goes to a peer (R730): in a RAY or QUERY packet with its origin block, its record and, once it has started, continuation
state, whose form is internal. -/
def State.forwardRay (s : State) (r : Ray) (node : Nat) : State :=
  let own := s.get F.plkNode
  let d := s.descOf r
  let image := match s.active with | some im => im.id % 2 ^ 32 | none => 0
  let chain := match s.disp r.disp with | some x => x.rcd.chain | none => 0
  let g : GuestItem := r.guest.getD
    { origin := own, handle := r.disp % 65536, gen := r.gen, chain := chain, asGen := descGen d.2, intake := r.intake, imageLo := image }
  let blk := leBytes 2 g.origin ++ leBytes 2 g.handle ++ leBytes 4 r.item ++ leBytes 1 g.gen ++ leBytes 1 g.chain ++
    leBytes 1 r.cls ++ leBytes 1 0 ++ leBytes 4 g.imageLo ++ leBytes 4 g.asGen ++ leBytes 4 g.intake ++ leBytes 8 0
  let (k, s) := s.draw
  let flits := if r.started then (Config.freeValue k).toNat % 37 + 1 else 0
  let (k, s) := s.draw
  let cont := (List.range flits).flatMap (fun i => leBytes 32 (Config.freeValue (k + i)).toNat)
  let s := { s with freeCtr := s.freeCtr + flits }
  let (port, s) := s.plkSend node (if r.query then ptQuery else ptRay) tcRay false r.cls (guestArg g.handle r.item g.gen)
    (blk ++ r.rcd ++ cont)
  let s := if r.guest.isNone && r.gen == 0 then s.bump F.plkFwdItems 1 else s
  match port with
  | some p => s.modRay r.id (fun r => { r with loc := .remote, link := some p, home := none })
  | none => s.failRay r stLink 0x13 r.linkUnit false

/-- A treelet of rays or of queries as the treelets that a dispatch has lost name it. -/
def deadKey (query : Bool) (treelet : Nat) : Nat := treelet % 2 ^ 20 + 2 ^ 20 * boolNat query

/-- The treelets of a dispatch or guest pair that an aborted or uncorrectable read has closed, by `deadKey`, with the status (R252). -/
def State.deadFor (s : State) (id : Nat) : List (Nat × Nat) :=
  match s.disp id with
  | some d => d.deadTreelets
  | none => match s.pair id with | some p => p.dead | none => []

/-- Whether every traversal cluster of a stage's mask is fenced (R648). -/
def State.noCluster (s : State) (t : Stage) : Bool :=
  t.tgMask % 256 != 0 && (List.range 32).all (fun tc => !bit t.tgMask (tc / 4) || s.fenced (tcUnit tc))

/-- A ray or query that no cluster of its stage's mask can take any more ends with FAIL_FENCED and the name of the last of them to be
fenced (R648). -/
def State.unserved (s : State) (r : Ray) (t : Stage) : State :=
  s.failRay r stFenced 0x12
    (s.lastFenced (fun u => match u with | .tc i => bit t.tgMask (i.val / 4) | _ => false) (tcUnit (4 * ((lowestBit 8 t.tgMask).getD 0)))) false

/-- The peer that holds the treelet of a ray, if it is not this engine (R253). -/
def State.awayNode (s : State) (r : Ray) : Option Nat :=
  let e := s.ttEntry (s.descOf r).2 r.treelet
  if ttRemote e && ttNode e != s.get F.plkNode && s.integ.plkPorts > 0 then some (ttNode e) else none

/-- A ray is filed under its treelet: failed when its stage has no cluster left or the treelet's fetch has failed, carried to its HOME,
or queued. -/
def State.binRay (s : State) (r : Ray) : State :=
  match (s.deadFor r.disp).find? (fun e => e.1 == deadKey r.query r.treelet) with
  | some (_, st) => s.sorterFail r st (if st = stUnc then 0x11 else if st = stLink then 0x13 else 0x10)
  | none =>
    match s.awayNode r with
    | some n => s.forwardRay r n
    | none =>
      match s.rayStage r with
      | some t => if s.noCluster t then s.unserved r t else s.enqueue r
      | none => s.enqueue r

end Sys2Proof.Machine
end

