-- ==== Sys2Proof/Machine/Window.lean ====
section
/-! DEFINITION. Reads of stream engines through remote windows: RREAD packets out, and the bytes that RDATA has brought ("Peer Link and
Multi-Engine Systems", R736–R738). -/

namespace Sys2Proof.Machine

/-- `n` bytes as a stream engine reads them: those of a remote window as the serving node sent them, others from memory (R736). -/
def State.seGet (s : State) (a n : Nat) : List Byte :=
  if (linesOf a n).all (fun l => (s.windowOf (64 * l)).isNone) then s.memGet a n
  else (List.range n).map (fun i => if (s.windowOf (a + i)).isSome then byteAt s.plk.data (a + i) else byteAt s.mem (a + i))

/-- One RREAD of up to 20 sectors; false when no port takes it (R736, R738). -/
def State.rreadSend (s : State) (acc : Access) (cls node a n : Nat) : Bool × State :=
  let tag := s.plk.nextTag % 2 ^ 32
  let r : RRead := { tag := tag, node := node, addr := a, sectors := n, cls := cls, acc := acc }
  let body := leBytes 8 a ++ leBytes 1 (n - 1) ++ leBytes 4 tag ++ List.replicate 19 (0 : Byte)
  match ({ s with plk := { s.plk with nextTag := s.plk.nextTag + 1 } } : State).plkSend node ptRread tcRemote false cls tag body with
  | (some _, s) => (true, { s with plk := { s.plk with rreads := s.plk.rreads ++ [r] } })
  | (none, s) => (false, s)

/-- Window sectors, in order, gathered into runs of consecutive sectors of one node, at most 20 to a run: node, first address, count. -/
def windowRuns (s : State) : List Nat → List (Nat × Nat × Nat)
  | [] => []
  | a :: rest =>
    match s.windowOf a with
    | none => windowRuns s rest
    | some n =>
      match windowRuns s rest with
      | (m, b, k) :: more => if m = n ∧ b = a + 64 ∧ k < 20 then (n, a, k + 1) :: more else (n, a, 1) :: (m, b, k) :: more
      | [] => [(n, a, 1)]

/-- The sectors of a read that lie in windows are asked of their nodes; false when one cannot be. -/
def State.windowReads (s : State) (acc : Access) (cls : Nat) (sectors : List Nat) : Bool × State :=
  (windowRuns s sectors).foldl (fun (r : Bool × State) x =>
    let (ok, s) := r.2.rreadSend acc cls x.1 x.2.1 x.2.2
    (r.1 && ok, s)) (true, s)

/-- Whether a window read of an access for one of the given sectors is outstanding. -/
def State.windowOpen (s : State) (acc : Access) (l : List Nat) : Bool :=
  s.plk.rreads.any (fun r => r.acc == acc && l.any (fun a => r.addr ≤ a && a < r.addr + 64 * r.sectors))

end Sys2Proof.Machine
end

