-- ==== Sys2Proof/Machine/Streams.lean ====
section
/-! DEFINITION. Stream engines: arming, runs, STREAM stages, transfers and dictionary-compressed input ("Stream Engines and Data
Movement", R456–R493). -/

namespace Sys2Proof.Machine

/-! ### Stream engines and their runs -/

/-- A stream engine as a unit. -/
def seUnit (e : Nat) : EUnit := .se ⟨e % 16, Nat.mod_lt _ (by decide)⟩

/-- A stream engine. -/
def State.se (s : State) (e : Nat) : StreamEng := (s.ses[e]?).getD StreamEng.init

/-- The state with one stream engine changed. -/
def State.modSe (s : State) (e : Nat) (f : StreamEng → StreamEng) : State := { s with ses := modifyAt f e s.ses }

/-- The active run of a stream engine. -/
def State.activeRun (s : State) (e : Nat) : Option Run := match (s.se e).active with | .run r => some r | _ => none

/-- The state with the active run of a stream engine changed. -/
def State.modRun (s : State) (e : Nat) (f : Run → Run) : State :=
  s.modSe e (fun t => match t.active with | .run r => { t with active := .run (f r) } | _ => t)

/-- The cause that a stream engine waits on (Table 127). -/
def State.seWait (s : State) (e w : Nat) : State := s.modSe e (fun t => { t with wait := w })

/-- The dispatch and stage of a run that fills entries of OUT0. -/
def State.runOut (s : State) (r : Run) : Option (Dispatch × Stage) :=
  match r.owner with
  | .armed => none
  | .stage id k _ _ _ =>
    match s.disp id, s.stageFor id k with
    | some d, some t => if t.out0 = 255 then none else some (d, t)
    | _, _ => none

/-- A run from its descriptor. -/
def Run.begin (owner : RunOwner) (cls : Nat) (d : SDesc) (sbase dbase : Int) (item : Nat) : Run :=
  { owner := owner, cls := cls, desc := d, sbase := sbase, dbase := dbase, item := item, next := 0, delivered := 0, limit := d.total,
    xfers := [], tile := [], tiles := 0, endWith := none, bad := [], ring := none, ringTaken := 0, left := [], sawEnd := false, taken := false }

/-- SE_RESTART and SE_DELIVERED at element `e` of a run (R483, R495). -/
def State.restartAt (s : State) (n : Nat) (r : Run) (e : Nat) : State :=
  let ix := r.desc.indices e r.item
  let i := fun k => (ix[k]?).getD 0
  s.setAll [(F.seRestart01I0 n, i 0), (F.seRestart01I1 n, i 1), (F.seRestart23I2 n, i 2), (F.seRestart23I3 n, i 3),
    (F.seRestart4 n, i 4), (F.seDeliveredLo n, e), (F.seDeliveredHi n, e / 2 ^ 32)]

/-- A run becomes the active run of a stream engine (R464, R495). -/
def State.startRun (s : State) (n : Nat) (r : Run) : State :=
  let s := (s.modSe n (fun t => { t with active := .run r, wait := 0 })).restartAt n r r.delivered
  s.setAll [(F.seStatusRunStatus n, 1), (F.seStatusDictExcess n, 0), (F.seTiles n, r.tiles)]

/-! ### Run status (Table 128) -/

def runFine : Nat := 0
def runPage : Nat := 2
def runAddr : Nat := 3
def runUnc : Nat := 4
def runShort : Nat := 5
def runAborted : Nat := 6
def runFenced : Nat := 7
/-- PAGE_FAULT of a run whose data a lost or unreachable peer was to send: its item fails with FAIL_LINK (R738). -/
def runLink : Nat := 0x12

/-- The item status of a run status (Table 128). -/
def runItem (st : Nat) : Nat := if st = runPage then stPage else if st = runUnc then stUnc else if st = runFenced then stFenced else
  if st = runLink then stLink else stProg

/-! ### The items of a STREAM stage (R466, R469, R470) -/

/-- The items of a stage, oldest first. -/
def State.itemsOf (s : State) (id k : Nat) : List StreamItem := s.sitems.filter (fun x => x.disp == id && x.stage == k)

/-- An item of a stage has ended, and its input entry is freed. -/
def State.streamItemGone (s : State) (x : StreamItem) : State :=
  let s : State := { s with sitems := s.sitems.filter (fun y => !(y.disp == x.disp && y.stage == x.stage && y.item == x.item)) }
  match x.entry, s.stageFor x.disp x.stage with
  | some p, some t => s.freeEntry x.disp t.input p
  | _, _ => s

/-- An item fails: its tiles already appended stay in OUT0 and are marked; the consuming stage passes those that come first in turn (R469). -/
def State.streamItemFails (s : State) (x : StreamItem) (status : Nat) (u : EUnit) : State :=
  let s := s.failItem x.disp x.item status (some u)
  let s := match s.stageFor x.disp x.stage with
    | some t =>
      let mark : HQueue → HQueue := fun h =>
        { h with entries := h.entries.map (fun (e : QEntry) => if e.src == x.item + 1 then { e with ended := true } else e) }
      ((s.modDisp x.disp (fun d => { d with queues := modifyAt mark t.out0 d.queues })).passMarked x.disp t.out0).flushRays
    | none => s
  s.streamItemGone x

/-- The last run of an item has ended OK: the item ends with a result, or lives on in OUT0 (R469). -/
def State.streamItemEnds (s : State) (x : StreamItem) (e : Nat) : State :=
  let s := match s.stageFor x.disp x.stage with
    | some t => if t.out0 = 255 then s.endItem x.disp x.item (seUnit e) else s
    | none => s
  s.streamItemGone x

/-! ### The end of a run (R464, R465, R469) -/

/-- The shadow run starts, or the shadow claim becomes the active claim, when the active run ends (R464). -/
def State.startShadow (s : State) (n : Nat) : State :=
  match (s.se n).shadow with
  | .run r => (s.modSe n (fun t => { t with shadow := .free })).startRun n r
  | .pending k c a b => s.modSe n (fun t => { t with active := .pending k c a b, shadow := .free, wait := 0 })
  | .free => s.modSe n (fun t => { t with active := .free, wait := 0 })

/-- What a run of a stream engine waits for ends with it: its waits on fault records, and its share in translations under way (R485). -/
def State.dropRunWaits (s : State) (n : Nat) : State :=
  let mine := fun (a : Access) => match a with | .run e => e.val == n | _ => false
  let cut := fun (x : XReq) => { x with accs := x.accs.filter (fun a => !mine a.1) }
  { s with fwaits := s.fwaits.filter (fun w => !mine w.acc), xreqs := s.xreqs.map cut, xwait := s.xwait.map cut }

/-- A run ends with a status: its registers, its owner's notice or its item, then the shadow run. -/
def State.endRun (s : State) (n : Nat) (r : Run) (st : Nat) : State :=
  let s := ((s.dropRunWaits n).set (F.seStatusRunStatus n) (st % 16)).bump (F.seRuns n) 1
  let s := match r.owner with
    | .armed =>
      let s := s.setBit F.seDonePend n true
      let s := if bit r.desc.flags 1 then s.raise intDone else s
      if st = runFine then s else s.raise intFault
    | .stage id k item tmpl _ =>
      match (s.itemsOf id k).find? (fun (x : StreamItem) => x.item == item), s.stageFor id k with
      | some x, some t =>
        if st ≠ runFine then
          let u := if st = runFenced then s.lastFenced (fun u => match u with | .se i => bit t.seMask i.val | _ => false) (seUnit n)
            else seUnit n
          s.streamItemFails x (runItem st) u
        else if tmpl + 1 < t.strmCount then
          { s with sitems := s.sitems.map (fun y => if y = x then { y with tmpl := tmpl + 1, busy := false } else y) }
        else s.streamItemEnds x n
      | _, _ => s
  s.startShadow n

/-! ### Delivery (R468, R471, R480–R482) -/

/-- Whether an earlier item of the run's stage still has tiles to append (R61, R470). -/
def State.laterItem (s : State) (r : Run) : Bool :=
  match r.owner with
  | .armed => false
  | .stage id k item _ _ => match (s.itemsOf id k).head? with | some x => x.item != item | none => false

/-- One tile of a run appended to OUT0; a tile of activations carries its own FIRST_ITEM and COUNT. -/
def State.appendTile (s : State) (n : Nat) (r : Run) (d : Dispatch) (t : Stage) (bs : List Byte) : State :=
  let e := if s.entrySize d t.out0 = 65536 then QEntry.fresh (leVal (bs.take 4)) (leVal ((bs.drop 4).take 2)) 0 false 0
    else QEntry.fresh r.item 1 0 false 0
  s.appendEntry (seUnit n) d.id t.out0 { e with src := r.item + 1 } bs

/-- Whole tiles of the active run are appended while its turn has come and OUT0 has room. -/
def State.appendTiles (s : State) (n : Nat) : Nat → State
  | 0 => s
  | k + 1 =>
    match s.activeRun n with
    | none => s
    | some r =>
      match s.runOut r with
      | none => s
      | some (d, t) =>
        let size := 2 ^ r.desc.tileLog2
        if r.tile.length < size || s.laterItem r || !s.hasRoom d t.out0 then s
        else
          let s := s.appendTile n r d t (r.tile.take size)
          (s.modRun n (fun r => { r with tile := r.tile.drop size, tiles := r.tiles + 1 })).appendTiles n k

/-- The exact source and destination addresses of an element. -/
def Run.srcAt (r : Run) (e : Nat) : Int := r.desc.address r.sbase r.desc.sstride e r.item
def Run.dstAt (r : Run) (e : Nat) : Int := r.desc.address r.dbase r.desc.dstride e r.item

/-- Bytes of a run reach their destination: OUT0's tile, memory or the Shared Field; they are counted (R495, Table 125). -/
def State.deliver (s : State) (n : Nat) (r : Run) (e : Nat) (bs : List Byte) : State :=
  let gone := match r.owner with | .stage id _ _ _ _ => (s.disp id).isNone | .armed => false
  let s := match s.runOut r with
    | some _ => s.modRun n (fun r => { r with tile := r.tile ++ bs })
    | none =>
      let a := (r.dstAt e).toNat
      if gone then s
      else if r.desc.dstSpace = 0 then s.memPut a bs else s.sfPut (seUnit n) (some r.cls) a bs
  let s := s.modRun n (fun r => { r with delivered := e + 1 })
  let s := s.tally2 (F.seBytesLo n) (F.seBytesHi n) bs.length
  let s := if e + 1 > s.get (F.seDeliveredLo n) + 2 ^ 32 * s.get (F.seDeliveredHi n) then
      s.setAll [(F.seDeliveredLo n, e + 1), (F.seDeliveredHi n, (e + 1) / 2 ^ 32)] else s
  if bit r.desc.flags 0 then s.set (F.seTiles n) ((e + 1) * r.desc.size / 2 ^ r.desc.tileLog2) else s

/-- A run meets an error at element `e`: nothing from `e` on is delivered, and the run ends with the status once its transfers have
completed (R486). -/
def State.stopRun (s : State) (n : Nat) (e st : Nat) : State :=
  match s.activeRun n with
  | none => s
  | some r =>
    if r.endWith.isSome then s
    else (s.restartAt n r e).modRun n (fun r => { r with endWith := some st, limit := min r.limit e })

/-- The bytes of element `e`, or the status that it ends the run with (R460, R486, R655). -/
def State.elemBytes (s : State) (r : Run) (e : Nat) : (List Byte × Nat) × State :=
  let size := r.desc.size
  let a := (r.srcAt e).toNat
  if r.desc.mode = 1 then ((List.replicate size 0, 0), s)
  else if r.desc.srcSpace = 0 then
    if (sectorsOf a size).any r.bad.contains then (([], runUnc), s) else ((s.seGet a size, 0), s)
  else match s.readPoison a size with
    | (some _, s) => (([], runUnc), s)
    | (none, s) => ((s.sfGet a size, 0), s)

/-- The elements of a transfer are delivered in ascending order up to the run's limit (R480). -/
def State.deliverElems (s : State) (n : Nat) (es : List Nat) : State :=
  es.foldl (fun s e =>
    match s.activeRun n with
    | none => s
    | some r =>
      if e ≥ r.limit then s
      else match s.elemBytes r e with
        | ((_, st + 1), s) => s.stopRun n e (st + 1)
        | ((bs, 0), s) => s.deliver n r e bs) s

/-! ### The dictionary ring (R490–R493) -/

/-- The header and the record of a DICT run's ring. -/
def Run.ringBase (r : Run) : Nat := r.sbase.toNat
def State.ringRecord (s : State) (r : Run) (head : Nat) : Nat := r.ringBase + 64 + 32 * (head % s.memNat r.ringBase 4)

/-- The record at HEAD is handed back: CONSUMED, then HEAD + 1 (R491, R493). -/
def State.handBack (s : State) (n : Nat) (r : Run) (head tail : Nat) : State :=
  let a := s.ringRecord r head
  let e : Fin 16 := ⟨n % 16, Nat.mod_lt _ (by decide)⟩
  let s := (s.memPut (a + 0x10) (leBytes 4 r.ringTaken)).request (.run e) (a + 0x10) 4 true false
  let s := (s.memPut (r.ringBase + 4) (leBytes 4 (head + 1))).request (.run e) (r.ringBase + 4) 4 true false
  s.modRun n (fun x => { x with ring := some ((head + 1) % 2 ^ 32, tail), ringTaken := 0 })

/-- Bytes taken from the ring record fill elements; the record is handed back when it is used up or the run has all it needs, and a run
that needs more after the record with END ends SHORT (R491, R493). -/
def State.takeRing (s : State) (n : Nat) (x : Xfer) : State :=
  match s.activeRun n with
  | none => s
  | some r =>
    match r.ring with
    | none => s
    | some (head, tail) =>
      let a := s.ringRecord r head
      let buf := s.memNat a 8 + x.first
      let produced := s.memNat (a + 8) 4
      let fin := bit (s.memNat (a + 12) 4) 1
      let good := match (List.range x.count).find? (fun i => r.bad.contains ((buf + i) / 64 * 64)) with | some i => i | none => x.count
      let data := r.left ++ s.seGet buf good
      let size := r.desc.size
      let m := min (data.length / size) (r.limit - r.delivered)
      let s := s.modRun n (fun y => { y with left := data.drop (m * size), ringTaken := r.ringTaken + good })
      let s := (List.range m).foldl (fun s i => s.deliver n r (r.delivered + i) ((data.drop (i * size)).take size)) s
      match s.activeRun n with
      | none => s
      | some r =>
        if good < x.count then s.stopRun n r.delivered runUnc
        else if r.delivered ≥ r.desc.total then
          let s := if r.ringTaken < produced then s.set (F.seStatusDictExcess n) 1 else s
          s.handBack n r head tail
        else if r.ringTaken ≥ produced then
          let s := (s.handBack n r head tail).modRun n (fun y => { y with sawEnd := fin })
          if fin then s.stopRun n r.delivered runShort else s
        else s

/-! ### Progress of a run -/

/-- The writes of elements of the active run go out to their memory ports (R473, R480). -/
def State.runWrites (s : State) (n : Nat) (es : List Nat) : State :=
  match s.activeRun n with
  | none => s
  | some r =>
    (dedup (es.flatMap (fun e => sectorsOf (r.dstAt e).toNat r.desc.size))).foldl
      (fun s a => s.request (.run ⟨n % 16, Nat.mod_lt _ (by decide)⟩) a 1 true false) s

/-- The first transfer of a run whose data has not been delivered, delivered when it is its turn: transfers to memory then write, others
have completed. -/
def State.turn (s : State) (n : Nat) : Nat → State
  | 0 => s
  | k + 1 =>
    match s.activeRun n with
    | none => s
    | some r =>
      match r.xfers.findIdx? (fun x => x.phase != .writing) with
      | none => s
      | some i =>
        match r.xfers[i]? with
        | none => s
        | some x =>
          if x.phase ≠ .ready then s
          else
            let toMem := (s.runOut r).isNone && r.desc.dstSpace == 0
            let drop := fun (r : Run) => { r with xfers := r.xfers.eraseIdx i }
            if r.desc.mode = 2 then
              let k0 := r.delivered
              let s := (s.modRun n drop).takeRing n x
              let m := (match s.activeRun n with | some r => r.delivered | none => k0) - k0
              (if toMem && m != 0 then (s.runWrites n ((List.range m).map (k0 + ·))).modRun n (fun r =>
                { r with xfers := r.xfers ++ [{ first := k0, count := m, phase := .writing }] }) else s).turn n k
            else
              let es := (List.range x.count).map (x.first + ·)
              let s := s.deliverElems n es
              let s := if toMem then
                  (s.runWrites n (es.filter (fun e => e < ((s.activeRun n).map (fun r => r.limit)).getD 0))).modRun n
                    (fun r => { r with xfers := modifyAt (fun x => { x with phase := .writing }) i r.xfers })
                else s.modRun n drop
              s.turn n k

/-- The active run ends when its transfers have completed and its last element, or the element that it stops at, is reached; the final
tile is filled with zero bytes (R468, R481, R482). -/
def State.settleRun (s : State) (n : Nat) : Nat → State
  | 0 => s
  | k + 1 =>
    match (s.turn n 8).appendTiles n 4 with
    | s =>
      match s.activeRun n with
      | none => s
      | some r =>
        let next := fun (s : State) => s.settleRun n k
        match r.xfers, r.endWith with
        | [], some st => next (s.endRun n r st)
        | [], none =>
          if r.delivered < r.desc.total then s
          else
            match s.runOut r with
            | some (d, t) =>
              if s.laterItem r then s
              else if r.tile.isEmpty then next (s.endRun n r runFine)
              else if r.tile.length ≥ 2 ^ r.desc.tileLog2 || !s.hasRoom d t.out0 then s
              else next ((s.appendTile n r d t r.tile).endRun n r runFine)
            | none =>
              let part := (r.delivered * r.desc.size + 2 ^ r.desc.tileLog2 - 1) / 2 ^ r.desc.tileLog2
              next ((if bit r.desc.flags 0 then s.set (F.seTiles n) part else s).endRun n r runFine)
        | _, _ => s

/-- Every stream engine's active run goes as far as it can: an item that ends lets the next item of its stage append. -/
def State.settleRuns (s : State) (n : Nat) : State :=
  let others := (List.range 16).filter (fun i => i != n)
  others.foldl (fun s i => s.settleRun i 3) (s.settleRun n 3)

/-! ### Arming (R462–R465) -/

/-- ARM: a slot is claimed and the descriptor read begins, or ARM_OVERRUN or NOT_IN_SERVICE. -/
def State.seArm (s : State) (n cls : Nat) : State :=
  let s := s.modSe n (fun t => { t with arms := t.arms + 1 })
  let t := s.se n
  let lo := s.get (F.seArmAddrLo n)
  let a := 64 * lo + 2 ^ 32 * s.get (F.seArmAddrHi n)
  let claim := SSlot.pending t.arms cls a (s.memGet a 64)
  let pending := fun (x : SSlot) => match x with | .pending _ _ _ _ => true | _ => false
  if !s.inService (seUnit n) then s.set (F.seArmResult n) 7
  else if t.active = .free ∧ pending t.shadow = false then
    (s.modSe n (fun t => { t with active := claim })).set (F.seArmResult n) 1
  else if t.shadow = .free then (s.modSe n (fun t => { t with shadow := claim })).set (F.seArmResult n) 1
  else s.set (F.seArmResult n) 4

/-- SE_ARM_STATUS shows the result of a claim, if no later ARM has been given (R462). -/
def State.armResult (s : State) (n arm result : Nat) : State := if (s.se n).arms = arm then s.set (F.seArmResult n) result else s

/-- The claim that is pending: in ACTIVE, or in SHADOW; the number of its ARM, its class, address and descriptor. -/
def StreamEng.claim (t : StreamEng) : Option (Bool × Nat × Nat × Nat × List Byte) :=
  match t.active, t.shadow with
  | .pending k c a b, _ => some (true, k, c, a, b)
  | _, .pending k c a b => some (false, k, c, a, b)
  | _, _ => none

/-- A pending claim is released with an ARM result (R463). -/
def State.armReleased (s : State) (n result : Nat) : State :=
  match (s.se n).claim with
  | some (active, k, _, _, _) =>
    (s.modSe n (fun t => if active then { t with active := .free } else { t with shadow := .free })).armResult n k result
  | none => s

/-- ARM_DESC_READ: the read of an armed descriptor ends, and its run is taken into its slot or the slot released (R463). -/
def State.armDescRead (s : State) (e : Fin 16) (r : ReadOutcome) : State :=
  let n := e.val
  match (s.se n).claim with
  | none => s
  | some (active, k, c, a, b) =>
    if !s.readable (.armDesc e) a 64 r then s
    else
      let s := (s.readEnds (.armDesc e) c a 64 r)
      let d := SDesc.ofBytes b
      if r ≠ .ok then s.armReleased n 6
      else if !d.valid false then s.armReleased n 5
      else
        let x := Run.begin .armed c d d.src d.dst 0
        if active then ((s.armResult n k 2).startRun n x).settleRuns n
        else (s.armResult n k 3).modSe n (fun t => { t with shadow := .run x })

/-- ABORT: the owner-armed active run ends ABORTED after the transfers already issued have completed (R464, Table 128). -/
def State.seAbort (s : State) (n : Nat) : State :=
  match s.activeRun n with
  | some r =>
    if r.owner = .armed ∧ r.endWith = none then
      ((s.modRun n (fun r => { r with endWith := some runAborted })).dropRunWaits n).settleRuns n
    else s
  | none => s

/-- CLEAR_SHADOW: a checked or pending owner-armed shadow run is discarded (R464). -/
def State.seClearShadow (s : State) (n : Nat) : State :=
  match (s.se n).shadow with
  | .pending _ _ _ _ => s.modSe n (fun t => { t with shadow := .free })
  | .run r => if r.owner = .armed then s.modSe n (fun t => { t with shadow := .free }) else s
  | .free => s

/-! ### Placing stage runs (R459, R466–R470) -/

/-- Whether a stream engine holds a run or claim in its active slot. -/
def StreamEng.working (t : StreamEng) : Bool := match t.active with | .free => false | _ => true

/-- The engines of a mask in service. -/
def State.sesUp (s : State) (mask : Nat) : List Nat := (List.range 16).filter (fun e => bit mask e && s.inService (seUnit e))

/-- The engine that takes a stage run: SHADOW free, no active run first, then the fewest transfers outstanding, then the lowest index
(R467). -/
def State.placeOn (s : State) (mask : Nat) : Option Nat :=
  leastBy (fun a b =>
    let x := (s.se a).working
    let y := (s.se b).working
    if x ≠ y then y else decide (s.seOutstanding a < s.seOutstanding b))
    ((s.sesUp mask).filter (fun e => (s.se e).shadow == .free))

/-- Whether everything that a run delivers has been fetched or is in fetch. -/
def Run.fetched (r : Run) : Bool :=
  if r.desc.mode = 2 then
    r.sawEnd || decide (r.delivered * r.desc.size + r.left.length +
      (r.xfers.filter (fun x => x.phase != .writing)).foldl (fun n x => n + x.count) 0 ≥ r.limit * r.desc.size)
  else decide (r.next ≥ r.limit)

/-- The next item of a STREAM stage that may be taken now (R466, R470). -/
def State.nextItem (s : State) (d : Dispatch) (c : Chain) (k : Nat) (t : Stage) : Option StreamItem :=
  let l := s.itemsOf d.id k
  let drained := fun (x : StreamItem) => x.tmpl + 1 == t.strmCount && x.busy && s.ses.any (fun e =>
    match e.active with
    | .run r => (match r.owner with
      | .stage i j m _ _ => i == d.id && j == k && m == x.item && r.fetched
      | .armed => false)
    | _ => false)
  let mayStart := t.out0 == 255 || (match l with | [] => true | [x] => c.fillAhead && drained x | _ => false)
  if !mayStart then none
  else if t.input = 255 then
    let i := ((d.stages[k]?).map (fun x => x.taken)).getD 0
    if i < d.rcd.itemCount then
      some { disp := d.id, stage := k, item := i, entry := none, src := 0, dst := 0, tmpl := 0, busy := false, saved := none } else none
  else (d.front t.input).map (fun e =>
    let b := s.entryBytes d e.slot t.input
    { disp := d.id, stage := k, item := e.item, entry := some e.pos, src := leVal (b.take 8), dst := leVal ((b.drop 8).take 8), tmpl := 0,
      busy := false, saved := none })

/-- An item is taken by its stage. -/
def State.takeItem (s : State) (x : StreamItem) : State :=
  let s : State := { s with sitems := s.sitems ++ [x] }
  match x.entry, s.stageFor x.disp x.stage with
  | some p, some t => s.holdEntry x.disp t.input p true
  | _, _ => s.modDisp x.disp (fun d => { d with stages := modifyAt (fun y =>
      { y with taken := y.taken + 1, finished := decide (y.taken + 1 ≥ d.rcd.itemCount) }) x.stage d.stages })

/-- The base of a side (Table 123). -/
def bindBase (b param entry : Nat) : Nat := match b with | 1 => param | 2 => entry | _ => 0

/-- The run of an item's next template: from the template as read, or, where that read has failed, or the template or a base does not satisfy
R461 any more, one that ends at element 0 (R461, R469). -/
def State.templateRun (s : State) (x : StreamItem) (d : Dispatch) (t : Stage) (a : Nat) (o : ReadOutcome) : Run :=
  let ds := SDesc.ofBytes (if o = .ok then s.memGet a 64 else List.replicate 64 0)
  let sb : Int := (ds.src : Int) + bindBase ds.srcBind (leVal ((d.param.drop 0x18).take 8)) x.src
  let db : Int := (ds.dst : Int) + bindBase ds.dstBind (leVal ((d.param.drop 0x20).take 8)) x.dst
  let fits := (t.out0 == 255 || ds.fitsQueue (s.entrySize d t.out0)) && (t.input != 255 || (ds.srcBind != 2 && ds.dstBind != 2))
  let run := Run.begin (.stage d.id x.stage x.item x.tmpl x.entry) d.rcd.cls ds sb db x.item
  match o with
  | .ok => if ds.valid true && fits && ds.aligned sb && ds.aligned db then run else { run with endWith := some runAddr, limit := 0 }
  | .abort => { run with endWith := some runPage, limit := 0 }
  | .unc => { run with endWith := some runUnc, limit := 0 }

/-- The address of a template of the active image. -/
def State.templateAddr (s : State) (i : Nat) : Nat := (match s.active with | some im => im.strmAddr | none => 0) + 64 * i

/-- A run is placed on an engine: it becomes its active run, or its shadow run while one is active (R467). -/
def State.putRun (s : State) (e : Nat) (run : Run) : State :=
  if (s.se e).working then s.modSe e (fun t => { t with shadow := .run run }) else (s.startRun e run).settleRuns e

/-- The run of an item's next template is placed on an engine (R467, R469); a run taken over from a fenced engine continues from its
restart indices, and the engine counts STALL_RECOVERY until its first transfer (R487). -/
def State.placeRun (s : State) (x : StreamItem) (d : Dispatch) (t : Stage) (e : Nat) (r : ReadOutcome) : State :=
  let busy := fun (s : State) => ({ s with sitems := s.sitems.map (fun y => if y = x then { y with busy := true, saved := none } else y) } : State)
  match x.saved with
  | some run =>
    (busy s).putRun e run
  | none =>
    let a := s.templateAddr (t.strmFirst + x.tmpl)
    let acc := Access.template d.id x.stage
    if !s.readable acc a 64 r then s
    else
      let s := s.readEnds acc d.rcd.cls a 64 r
      (busy s).putRun e (s.templateRun x d t a r)

/-- The item of a STREAM stage whose run is placed next: the oldest whose next run is due, or the stage's next item. -/
def State.dueItem (s : State) (d : Dispatch) (c : Chain) (k : Nat) (t : Stage) : Option StreamItem :=
  match (s.itemsOf d.id k).find? (fun x => !x.busy) with | some x => some x | none => s.nextItem d c k t

/-- Whether a STREAM stage of a dispatch waits for an engine of a mask. -/
def State.streamWaits (s : State) (mask : Nat) (d : Dispatch) : Bool :=
  match s.chainOf d with
  | none => false
  | some c => (c.stages.zip (List.range c.stages.length)).any (fun (t, k) =>
      t.kind == 7 && (t.seMask &&& mask) != 0 && (s.dueItem d c k t).isSome && (s.placeOn t.seMask).isSome && !s.waits (.template d.id k))

/-- STREAM_RUN_PLACE: the stage's oldest item whose next run is due, or its next item, has its run placed, dispatches of a lower class and
older ones of its own first (R33, R466, R467, R469, R487). -/
def State.streamPlace (s : State) (id k : Nat) (r : ReadOutcome) : State :=
  match s.disp id with
  | none => s
  | some d =>
    match s.chainOf d, s.stageOf d k with
    | some c, some t =>
      if t.kind ≠ 7 || d.phase != .running || d.fixedStatus != 0 then s
      else match s.dueItem d c k t with
        | none => s
        | some x =>
          let take := fun (s : State) => if (s.itemsOf id k).contains x then s else s.takeItem x
          let lost := s.lastFenced (fun u => match u with | .se i => bit t.seMask i.val | _ => false)
            (seUnit ((lowestBit 16 t.seMask).getD 0))
          if (s.sesUp t.seMask).isEmpty then (take s).streamItemFails x stFenced lost
          else match s.placeOn t.seMask with
            | none => s
            | some e =>
              if !s.comesFirst d (s.streamWaits t.seMask) ||
                (x.saved.isNone && !s.readable (.template id k) (s.templateAddr (t.strmFirst + x.tmpl)) 64 r) then s
              else (take s).placeRun x d t e r
    | _, _ => s

/-! ### Issuing transfers (R456, R471–R474, R480, R483, R486) -/

/-- What stands in the way of an element: nothing, an address error, or a translation. -/
inductive ElemGate
  | ok
  | bad
  | miss
deriving DecidableEq, Repr

/-- The gate of one side of an element: a window is read without translation here, and a write into one is an address error (R736). -/
def State.sideGate (s : State) (n : Nat) (space : Nat) (a : Int) (size : Nat) (write : Bool) : ElemGate :=
  if a < 0 ∨ a + size > 2 ^ 64 then .bad
  else if space = 1 then (if s.sfInRegion [4, 5, 7] a.toNat size then .ok else .bad)
  else if (s.windowOf a.toNat).isSome then (if write then .bad else .ok)
  else if (s.tlbHit n (a.toNat / 4096) write).isSome then .ok else .miss

/-- The gate of element `e` of a run. -/
def State.elemGate (s : State) (n : Nat) (r : Run) (e : Nat) : ElemGate :=
  let size := r.desc.size
  let a := if r.desc.mode = 0 then s.sideGate n r.desc.srcSpace (r.srcAt e) size false else .ok
  let b := if (s.runOut r).isSome then .ok else s.sideGate n r.desc.dstSpace (r.dstAt e) size true
  if a = .bad ∨ b = .bad then .bad else if a = .miss ∨ b = .miss then .miss else .ok

/-- The elements of the next transfer from `e` on: at most 8 KiB and at most 128 sectors on each side; and the gate that ends it. -/
def State.gatherElems (s : State) (n : Nat) (r : Run) (stop : Nat) : Nat → Nat → List Nat → List Nat → Nat × ElemGate
  | 0, e, _, _ => (e, .ok)
  | k + 1, e, ss, ds =>
    if e ≥ stop then (e, .ok)
    else match s.elemGate n r e with
      | .ok =>
        let add := fun (l : List Nat) (a : Int) => if l.head? = some (a.toNat / 64) then l else a.toNat / 64 :: l
        let ss := if r.desc.mode = 0 then add ss (r.srcAt e) else ss
        let ds := if (s.runOut r).isSome then ds else add ds (r.dstAt e)
        if ss.length > 128 ∨ ds.length > 128 then (e, .ok) else s.gatherElems n r stop k (e + 1) ss ds
      | g => (e, g)

/-- Tiles of a paced run that its consumer has not begun to take, among those appended (R471). -/
def unbegun (d : Dispatch) (t : Stage) (r : Run) : Nat :=
  min r.tiles ((d.hq t.out0).entries.filter (fun e => e.src == r.item + 1 && !e.held && e.used == 0)).length

/-- The bytes of a run that may be issued: two tiles ahead of its consumer, as far as OUT0 has room for them, and the first two tiles of
an item whose turn has not come (R470, R471). -/
def State.byteLimit (s : State) (r : Run) : Nat :=
  let all := r.desc.total * r.desc.size
  match s.runOut r with
  | none => all
  | some (d, t) =>
    let size := 2 ^ r.desc.tileLog2
    let room := (match s.queueRec d t.out0 with | some q => q.capacity - (d.hq t.out0).entries.length | none => 0)
    let ahead := r.tiles + (2 - unbegun d t r)
    let lim := if s.laterItem r then min ahead 2 else min ahead (r.tiles + room)
    min all (size * lim)

/-- Whether a read of byte `b` of a run is a prefetch read: its data lies in a tile beyond the oldest that the consumer has not begun
(R470, R472). -/
def State.isPrefetch (s : State) (r : Run) (b : Nat) : Bool :=
  match s.runOut r with
  | none => false
  | some (d, t) => s.laterItem r || decide (b / 2 ^ r.desc.tileLog2 > r.tiles - unbegun d t r)

/-- The reads of a transfer go out: at the memory ports, each a prefetch read where `pre` holds of its sector, or as RREAD for the sectors in
a window; a window that no port reaches ends the run (R472, R736, R738). -/
def State.runReads (s : State) (e : Fin 16) (r : Run) (sectors : List Nat) (pre : Nat → Bool) : State :=
  let (win, loc) := sectors.partition (fun a => (s.windowOf a).isSome)
  let s := loc.foldl (fun s a => s.request (.run e) a 1 false (pre a)) s
  match s.windowReads (.run e) r.cls win with
  | (true, s) => s
  | (false, s) => s.modRun e.val (fun r => { r with endWith := some (r.endWith.getD runLink) })

/-- The next transfer of a DICT run: bytes of the record at HEAD (R490–R492). -/
def State.issueRing (s : State) (e : Fin 16) (r : Run) : State :=
  let n := e.val
  let hit := fun (a len : Nat) (w : Bool) => (linesOf a len).all (fun l => (!w && (s.windowOf (64 * l)).isSome) || (s.tlbHit n (64 * l / 4096) w).isSome)
  let (head, tail) := (r.ring).getD (s.memNat (r.ringBase + 4) 4, s.memNat (r.ringBase + 8) 4)
  let s1 := s.modRun n (fun r => { r with ring := some (head, tail) })
  let a := s.ringRecord r head
  let produced := s.memNat (a + 8) 4
  let buf := s.memNat a 8 + r.ringTaken
  let done := r.delivered * r.desc.size + r.left.length
  let m := min (min (produced - r.ringTaken) (8192 - buf % 64)) (s.byteLimit r - done)
  if r.xfers.any (fun x => x.phase != .writing) then s
  else if (s.windowOf r.ringBase).isSome then (s.stopRun n r.delivered runAddr).settleRuns n
  else if !hit r.ringBase 64 true then s.seWait n 1
  else if head = tail then s1.seWait n 5
  else if !hit a 32 true || !hit buf m false then s1.seWait n 1
  else if m = 0 ∧ r.ringTaken < produced then s1.seWait n 3
  else
    let gate := (List.range (m / r.desc.size + 1)).foldl (fun g i =>
      if g = .ok ∧ r.delivered + i < r.desc.total then
        (if (s.runOut r).isSome then .ok else s.sideGate n r.desc.dstSpace (r.dstAt (r.delivered + i)) r.desc.size true) else g) ElemGate.ok
    match gate with
    | .miss => s1.seWait n 1
    | .bad => (s1.stopRun n r.delivered runAddr).settleRuns n
    | .ok =>
      let s := s1.seWait n 0
      let x : Xfer := { first := r.ringTaken, count := m, phase := if m = 0 then .ready else .reading }
      ((s.runReads e r (sectorsOf buf m) (fun a => s.isPrefetch r (done + (a - buf)))).modRun n (fun r =>
        { r with xfers := r.xfers ++ [x], taken := false })).settleRuns n

/-- The class of the active run of a stream engine when it could issue a transfer if a slot were free (R456). -/
def State.runWants (s : State) (e : Fin 16) : Option Nat :=
  match s.activeRun e.val with
  | none => none
  | some r =>
    let size := r.desc.size
    if r.endWith.isSome || s.inSeq (.se e) || s.waits (.run e) then none
    else if r.desc.mode = 2 then
      (if r.xfers.all (fun x => x.phase == .writing) && (match r.ring with | some (h, t) => h != t | none => true) then some r.cls else none)
    else if (s.gatherElems e.val r (min r.limit (s.byteLimit r / size)) (8192 / size) r.next [] []).1 = r.next then none
    else some r.cls

/-- STREAM_TRANSFER_ISSUE: the active run translates its next elements and issues one transfer of up to 128 sectors; an element that
misses the micro-TLB, or whose address is in error, ends the transfer before it. -/
def State.streamIssue (s : State) (e : Fin 16) : State :=
  let n := e.val
  match s.activeRun n with
  | none => s
  | some r =>
    if !s.inService (.se e) || s.inSeq (.se e) || r.endWith.isSome || s.waits (.run e) then s
    else if s.seOutstanding n ≥ 6 then s.seWait n 3
    else if r.desc.mode = 2 then s.issueRing e r
    else
      let size := r.desc.size
      let stop := min r.limit (s.byteLimit r / size)
      let (last, gate) := s.gatherElems n r stop (8192 / size) r.next [] []
      if last = r.next then
        match gate with
        | .ok => if r.next < r.limit then s.seWait n 3 else s
        | .miss => s.seWait n 1
        | .bad => (s.stopRun n r.next runAddr).settleRuns n
      else
        let es := (List.range (last - r.next)).map (r.next + ·)
        let reads := r.desc.mode == 0 && r.desc.srcSpace == 0
        let toMem := (s.runOut r).isNone && r.desc.dstSpace == 0
        let pre := fun (a : Nat) => match es.find? (fun i => (sectorsOf (r.srcAt i).toNat size).contains a) with
          | some i => s.isPrefetch r (i * size)
          | none => false
        let s := if reads then
            s.runReads e r (dedup (es.flatMap (fun i => sectorsOf (r.srcAt i).toNat size))) pre
          else s
        let x : Xfer := { first := r.next, count := last - r.next, phase := if !reads && toMem then .ready else .reading }
        ((s.seWait n 0).modRun n (fun r => { r with xfers := r.xfers ++ [x], next := last, taken := false })).settleRuns n

/-- Whether a request of a stream engine's run for one of the given sectors is still open at a memory port or at a peer. -/
def State.openSector (s : State) (e : Fin 16) (write : Bool) (l : List Nat) : Bool :=
  s.ports.any (fun p => (p.queue ++ p.tags.map (fun t => t.2)).any (fun q => q.acc == .run e && q.write == write && l.contains q.addr)) ||
  (!write && s.windowOpen (.run e) l)

/-- STREAM_TRANSFER_DONE: transfer `t` of the active run completes once its sectors have been answered (R456, R480, R481). -/
def State.streamDone (s : State) (e : Fin 16) (t : Nat) : State :=
  let n := e.val
  match s.activeRun n with
  | none => s
  | some r =>
    match r.xfers[t]? with
    | none => s
    | some x =>
      let es := (List.range x.count).map (x.first + ·)
      let src := if r.desc.mode = 2 then
          (match r.ring with
          | some (h, _) => sectorsOf (s.memNat (s.ringRecord r h) 8 + x.first) x.count
          | none => [])
        else es.flatMap (fun i => sectorsOf (r.srcAt i).toNat r.desc.size)
      let reads := r.desc.mode == 2 || (r.desc.mode == 0 && r.desc.srcSpace == 0)
      match x.phase with
      | .ready => s
      | .reading =>
        if reads && s.openSector e false src then s
        else (s.modRun n (fun r => { r with xfers := modifyAt (fun x => { x with phase := .ready }) t r.xfers })).settleRuns n
      | .writing =>
        if s.openSector e true (es.flatMap (fun i => sectorsOf (r.dstAt i).toNat r.desc.size)) then s
        else (s.modRun n (fun r => { r with xfers := r.xfers.eraseIdx t })).settleRuns n

/-- DICT_POLL: a DICT run that waits on an empty ring reads TAIL again (R492). -/
def State.dictPoll (s : State) (e : Fin 16) : State :=
  match s.activeRun e.val with
  | some r =>
    (match r.ring with
    | some (h, t) =>
      if r.desc.mode = 2 ∧ h = t ∧ r.endWith = none then
        (s.seWait e.val 0).modRun e.val (fun r => { r with ring := some (h, s.memNat (r.ringBase + 8) 4) })
      else s
    | none => s)
  | none => s

/-! ### Page faults of a run (R483, R484) -/

/-- The sectors in a page that a run has asked for and no port may issue, its translation having been withdrawn. -/
def State.unready (s : State) (e : Fin 16) (page : Nat) : List Nat :=
  s.ports.flatMap (fun p => (p.queue.filter (fun q => q.acc == .run e && !q.ready && q.addr / 4096 == page)).map (fun q => q.addr))

/-- The pages that the next element of a run needs (R480). -/
def State.nextPages (s : State) (r : Run) : List Nat :=
  if r.next ≥ r.limit then []
  else
    (if r.desc.mode = 0 ∧ r.desc.srcSpace = 0 then [(r.srcAt r.next).toNat / 4096] else []) ++
    (if (s.runOut r).isNone ∧ r.desc.dstSpace = 0 then [(r.dstAt r.next).toNat / 4096] else [])

/-- Whether a run translates a page now: for its next element, in ascending order, or for a request whose translation was withdrawn
(R480, R509). -/
def State.runTranslates (s : State) (e : Fin 16) (page : Nat) : Bool :=
  match s.activeRun e.val with
  | some r => r.desc.mode == 2 || (s.nextPages r).contains page || !(s.unready e page).isEmpty
  | none => false

/-- The element of a run that a fault in a page stops: its next one, or the first whose request lost its translation (R483). -/
def State.faultElem (s : State) (e : Fin 16) (r : Run) (page : Nat) : Nat :=
  let l := s.unready e page
  let touches := fun (i : Nat) =>
    (r.desc.mode == 0 && (sectorsOf (r.srcAt i).toNat r.desc.size).any (fun a => l.contains a)) ||
    (sectorsOf (r.dstAt i).toNat r.desc.size).any (fun a => l.contains a)
  if l.isEmpty then r.next
  else ((r.xfers.flatMap (fun x => (List.range x.count).map (x.first + ·))).filter touches).foldl min r.next

/-- The translation of an element of a run has met a page fault: its indices and the count before it are recorded. -/
def State.runFaulted (s : State) (e : Fin 16) (page : Nat) : State :=
  match s.activeRun e.val with
  | some r => (s.restartAt e.val r (if r.desc.mode = 2 then r.delivered else s.faultElem e r page)).seWait e.val 2
  | none => s

/-- A run without the element that a fault stopped and those after it. -/
def State.cutRun (s : State) (e : Fin 16) (page : Nat) : State :=
  match s.activeRun e.val with
  | none => s
  | some r =>
    if (s.unready e page).isEmpty then s
    else
      let k := s.faultElem e r page
      let xs := if r.desc.mode = 2 then []
        else (r.xfers.filter (fun x => x.first < k)).map (fun (x : Xfer) => { x with count := min x.count (k - x.first) })
      let s := s.modRun e.val (fun r => { r with xfers := xs, next := k })
      { s with ports := s.ports.map (fun (m : MemPort) => { m with queue := m.queue.filter (fun q => q.acc != .run e || q.ready || q.addr / 4096 != page) }) }

/-- The fault of a run is answered with ABORT: the run ends with PAGE_FAULT after its transfers. -/
def State.runAborted' (s : State) (n : Nat) : State :=
  match s.activeRun n with
  | some r => if r.endWith.isSome then s else (s.modRun n (fun r => { r with endWith := some runPage })).settleRuns n
  | none => s

end Sys2Proof.Machine
end

