-- ==== Sys2Proof/Machine/Sorter.lean ====
section
/-! DEFINITION. The ray sorter: intake, batches, treelet fetches and segment spill ("Ray Sorting, Treelet Streaming and Hit
Return"). -/

namespace Sys2Proof.Machine

/-! ### Intake -/

/-- ⌊a ÷ b⌋ of exact numbers, b > 0. -/
def Dy.floorQuot (a b : Dy) : Int := (a.n * (pow2 (a.e - b.e) : Int)) / (b.n * (pow2 (b.e - a.e) : Int))

/-- Whether a ray record is valid (R189). -/
def rayValid (b : List Byte) : Bool :=
  let v := fun o => le b o 4
  let fin := allFin [v 0, v 4, v 8, v 16, v 20, v 24]
  let dir := [v 16, v 20, v 24].any (fun d => (val32 d).n ≠ 0)
  let fl := le b 0x20 2
  fin && dir && leF fp32 0 (v 12) && leF fp32 (v 12) (v 28) && !(bit fl 1 && bit fl 2)

/-- The low 12 bits of the sort key of a ray (R238). -/
def sortKeyLow (b d : List Byte) : Nat :=
  let oct := (List.range 3).foldl (fun n a => n + 2 ^ a * boolNat (bit (le b (16 + 4 * a) 4) 31)) 0
  let cell := (List.range 3).foldl (fun n a =>
    let lo := le d (0x18 + 4 * a) 4
    let hi := le d (0x24 + 4 * a) 4
    let c : Int := if allFin [lo, hi] && ltF fp32 lo hi then
        Dy.floorQuot (((val32 (le b (4 * a) 4)).sub (val32 lo)).mul ⟨8, 0⟩) ((val32 hi).sub (val32 lo))
      else 0
    n + 8 ^ a * (min (max c 0) 7).toNat) 0
  oct * 512 + cell

/-- The stage that takes its items through the treelet queues from the stage whose input queue the ray sorter takes: itself, or the
consumer of a SORT stage's OUT0 (R237). -/
def Chain.sorted (c : Chain) (k : Nat) : Option (Nat × Stage) :=
  match c.stages[k]? with
  | none => none
  | some t =>
    if t.kind = 3 ∨ t.kind = 4 then
      if c.stages.any (fun u => u.kind == 2 && u.out0 == t.input) then none else some (k, t)
    else if t.kind = 2 then
      match c.stages.findIdx? (fun u => (u.kind == 3 || u.kind == 4) && u.input == t.out0) with
      | some j => (c.stages[j]?).map (fun u => (j, u))
      | none => none
    else none

/-- The ray or query record taken from a queue entry, not yet filed. -/
def State.newRay (s : State) (d : Dispatch) (j : Nat) (t : Stage) (e : QEntry) (b : List Byte) (ticket : Bool) : Ray :=
  let q := t.kind == 4
  let rcd := if q then b else b.take 0x23 ++ leBytes 1 d.rcd.cls ++ b.drop 0x24
  { id := s.nextRay, disp := d.id, stage := j, item := e.item, query := q, cls := d.rcd.cls, rcd := rcd, intake := d.intake,
    key := 0, ticket := ticket, replayed := false, failed := e.ended, loc := .queued, tq := 0, pos := 0, tc := 0, pipe := 0,
    treelet := 0, started := false, stack := [], frames := [], best := none, bestT := le b 0x1C 4, leaf := none, call := none,
    neural := none, list := [], total := 0, guest := none, gen := 0, link := none, home := none, lines := 0, fin := [], nodes := 0,
    cont := { started := false, stack := [], frames := [], best := none, bestT := le b 0x1C 4, list := [], total := 0, lines := 0 } }

/-- The first failed check of a query (R284, R285): status and cause; `none` passes.  The descriptor is the copy read. -/
def queryCheckRecord (b : List Byte) (q : QryCfg) : Bool :=
  let dm := le b 0 1
  let shape := le b 1 1
  let mode := le b 2 1
  let fin16 := fun o => (List.range dm).all (fun a => isFin fp16 (le b (o + 2 * a) 2))
  2 ≤ dm && dm ≤ 8 && dm == q.dims && shape ≤ 1 && mode ≤ 1 && 1 ≤ le b 3 1 && le b 3 1 ≤ q.kMax && fin16 0x10 &&
  (shape == 1 || fin16 0x20) && (shape == 0 || (leF fp32 0 (le b 0x30 4))) && !(mode == 0 && shape == 0) &&
  (q.output == 0 || le b 0x38 8 % 32 == 0)

/-- Whether a BOX query's box is empty. -/
def queryEmptyBox (b : List Byte) : Bool :=
  le b 1 1 == 0 &&
  (List.range (le b 0 1)).any (fun a => ltF fp16 (le b (0x20 + 2 * a) 2) (le b (0x10 + 2 * a) 2))

/-- The first check of the ray sorter that a ray fails, in order: the read of its descriptor, its validity, its descriptor (R143, R189,
R237): status and cause. -/
def rayCheck (b : List Byte) (addr : Nat) (ds : List Byte) (asFail : Nat) : Option (Nat × Nat) :=
  if asFail ≠ 0 then some (asFail, if asFail = stPage then 0x10 else 0x11)
  else if !rayValid b then some (stProg, 0)
  else if !descOk addr ds false then some (stProg, 0x0A)
  else none

/-- The first check that a query fails, in order (R284, R285): status and cause. -/
def queryCheck (b : List Byte) (q : QryCfg) (addr : Nat) (ds : List Byte) (ksFail : Nat) : Option (Nat × Nat) :=
  if !queryCheckRecord b q then some (stProg, 0x20)
  else if le b 8 8 ≠ addr then some (stProg, 0x21)
  else if ksFail ≠ 0 then some (ksFail, if ksFail = stPage then 0x10 else 0x11)
  else if !descOk addr ds true then some (stProg, 0x0A)
  else if le b 0 1 ≠ le ds 2 1 then some (stProg, 0x20)
  else none

/-- The clusters in service that may take a ray of a stage (R31, R247). -/
def State.clustersFor (s : State) (t : Stage) (cls : Nat) : List Nat :=
  (List.range 32).filter (fun tc => bit t.tgMask (tc / 4) && s.inService (tcUnit tc) && s.unitAdmits (tcUnit tc) cls)

/-- A ray or query whose ROOT, or whose queue's treelet, names no treelet: it fails in a traversal cluster (R177, R178), the lowest that may
take it (log entry 87). -/
def State.refFail (s : State) (r : Ray) : State :=
  match (s.rayStage r).bind (fun t => (s.clustersFor t r.cls).head?) with
  | some tc => s.failRay { r with tc := tc } stProg 0x01 (tcUnit tc) true
  | none => s.sorterFail r stProg 0x01

/-- A query taken by the query engine and the ray sorter (R285): failed by its first failed check, ended at once with an empty
list, or filed under its ROOT's treelet. -/
def State.takeQuery (s : State) (r : Ray) (q : QryCfg) (addr : Nat) (ds : List Byte) (ksFail : Nat) : State :=
  match queryCheck r.rcd q addr ds ksFail with
  | some (st, cause) => s.failRay r st cause .query false
  | none =>
    if queryEmptyBox r.rcd then s.endQuery r stOk none
    else if s.ttBad ds r.treelet then s.refFail r
    else s.binRay r

/-- A ray taken by the ray sorter (R237): failed by the sorter, or filed under its ROOT's treelet. -/
def State.takeRay (s : State) (r : Ray) (addr : Nat) (ds : List Byte) (asFail : Nat) : State :=
  match rayCheck r.rcd addr ds asFail with
  | some (st, cause) => s.sorterFail r st cause
  | none => if s.ttBad ds r.treelet then s.refFail r else s.binRay r

/-- What the ray sorter takes next of a stage's input queue: the entry, the stage that traverses it, whether its line is
poisoned or its dispatch lost whole, and whether it must first wait for the key-set descriptor. -/
structure Taking where
  entry : QEntry
  via : Stage
  index : Nat
  stage : Stage
  bad : Bool
  keyWait : Bool
deriving DecidableEq, Repr

/-- What the ray sorter would take at stage `k` of a running dispatch. -/
def State.taking (s : State) (d : Dispatch) (k : Nat) : Option Taking :=
  match s.chainOf d with
  | none => none
  | some c =>
    match c.stages[k]?, c.sorted k with
    | some t0, some (j, t) =>
      (d.front t0.input).map (fun e =>
        { entry := e, via := t0, index := j, stage := t, bad := d.lost.isSome || (s.sfPoisonAt (s.entryAddr d e.slot t0.input) 64).isSome,
          keyWait := t.kind == 4 && d.ksAddr.isSome && d.ksDesc.isNone && d.ksFail == 0 })
    | _, _ => none

/-- Whether a record that passes the checks before it needs the treelet table (R147). -/
def State.needsTable (s : State) (d : Dispatch) (x : Taking) (b : List Byte) : Bool :=
  let q := x.stage.kind == 4
  let (addr, ds) := s.descFor d.id q
  !x.bad && (if q then (queryCheck b (s.qryOf x.stage) addr ds d.ksFail).isNone && !queryEmptyBox b
    else (rayCheck b addr ds d.asFail).isNone) &&
  !d.deadTreelets.any (fun e => e.1 == deadKey q (refTreelet (descRoot ds)))

/-- Whether the ray sorter can take the record now: a ticket, a segment, and the treelet table (R147, R258, R268). -/
def State.canTake (s : State) (d : Dispatch) (x : Taking) : Bool :=
  let q := x.stage.kind == 4
  let ds := (s.descFor d.id q).2
  let i := refTreelet (descRoot ds)
  s.ticketRoom d && (x.bad || !x.keyWait) && s.canBin d.id q i &&
  (!s.needsTable d x (s.entryBytes d x.entry.slot x.via.input) || s.ttReach d.id ds i)

/-- RAY_INTAKE: the ray sorter takes the oldest record of a stage's input queue (R237), dispatches of a lower class and older ones of its
own first (R33).  The dispatch's first query that passes the record checks has the key-set descriptor read before it is taken (R285). -/
def State.rayIntake (s : State) (id k : Nat) : State :=
  match s.disp id with
  | none => s
  | some d =>
    match s.taking d k with
    | none => s
    | some x =>
      let b := s.entryBytes d x.entry.slot x.via.input
      let q := x.stage.kind == 4
      let waits := fun (e : Dispatch) => (List.range e.stages.length).any (fun k =>
        match s.taking e k with | some y => s.canTake e y | none => false)
      if d.phase != .running || !s.domLive 5 then s
      else if q ∧ d.ksAddr = none ∧ x.bad = false ∧ queryCheckRecord b (s.qryOf x.stage) = true then
        if !s.ticketRoom d then s
        else
          let a := le b 8 8
          s.modDisp id (fun d => { d with ksAddr := some a, ksDesc := if a % 64 = 0 then none else some [] })
      else if !s.canTake d x || !s.comesFirst d waits then s
      else
        let (addr, ds) := s.descFor id q
        let ticket := match s.chainOf d with | some c => c.tickets && x.stage.kind == 3 | none => false
        let r := s.newRay d x.index x.stage x.entry b ticket
        let r := { r with treelet := refTreelet (descRoot ds), key := if q then 0 else sortKeyLow b ds }
        let table := s.needsTable d x b
        let at' := s.entryAddr d x.entry.slot x.via.input
        let (bad, s) := s.readPoison at' 64
        let s := s.sfTouch .sorter (some d.rcd.cls) at' 64
        let s := if table then s.ttRead id d.rcd.cls ds r.treelet else s
        let s : State := { s with rays := s.rays ++ [r], nextRay := s.nextRay + 1 }
        let s := ((s.modDisp id (fun d => { d with intake := d.intake + 1 })).freeEntry id x.via.input x.entry.pos).passMarked id x.via.input
        let s := if x.via.kind = 2 then s.bump F.srtRaysIn 1 else s
        let s := if q then s.bump F.qryTaken 1 else s
        match d.lost, bad with
        | some u, _ => s.loseRay r (some u)
        | none, some u => s.failRay r stUnc 0x11 u false
        | none, none => if q then s.takeQuery r (s.qryOf x.stage) addr ds d.ksFail else s.takeRay r addr ds d.asFail

/-- KEYSET_DESC_READ: the read of the key-set descriptor ends (R285). -/
def State.keysetRead (s : State) (id : Nat) (o : ReadOutcome) : State :=
  match s.disp id with
  | none => s
  | some d =>
    match d.ksAddr with
    | none => s
    | some a =>
      if d.ksDesc.isSome || d.ksFail != 0 || !s.readable (.keyset id) a 64 o then s
      else (s.readEnds (.keyset id) d.rcd.cls a 64 o).modDisp id (fun d => match o with
        | .ok => { d with ksDesc := some (s.memGet a 64) }
        | .abort => { d with ksFail := stPage }
        | .unc => { d with ksFail := stUnc })

/-! ### Batches -/

/-- The class masks of the Treelet Store ranges that a slot lies in. -/
def State.slotAdmits (s : State) (slot c : Nat) : Bool :=
  match s.active with
  | some im => im.part.ranges.any (fun r => r.first ≤ slot && slot < r.first + r.count && admits r.classMask c)
  | none => false

/-- Whether a slot's tag and treelet are those of a queue (R246). -/
def State.tagged (s : State) (t : TQueue) (x : TSlot) : Bool :=
  let (a, d) := s.descFor t.disp t.query
  x.treelet == t.treelet && x.asAddr == a && x.gen == descGen d

/-- The slot that holds a queue's treelet in a given state with its dispatch's tag, in a range that admits its class (R246). -/
def State.slotFor (s : State) (t : TQueue) (st : TSState) : Option Nat :=
  (s.tslots.find? (fun e => e.2.state == st && s.tagged t e.2 && s.slotAdmits e.1 t.cls)).map (fun e => e.1)

/-- The untaken rays of a queue, oldest first. -/
def TQueue.waiting (t : TQueue) : List Nat := t.segs.flatMap (fun g => (g.entries.filter (fun e => e.st == 0)).map (fun e => e.ray))

/-- Whether the TG_MASK of a ray's stage names the group of a cluster (R247). -/
def State.named (s : State) (tc id : Nat) : Bool :=
  match s.ray id with
  | some r => (match s.rayStage r with | some x => bit x.tgMask (tc / 4) | none => false)
  | none => false

/-- Whether a cluster may take batches of a queue: its class, its group in TG_MASK, in service (R247).  Where rays of two stages share a
queue, the oldest untaken one decides (log entry 90). -/
def State.eligible (s : State) (tc : Nat) (t : TQueue) : Bool :=
  s.mayWork (tcUnit tc) t.cls && (match t.waiting with | x :: _ => s.named tc x | [] => false)

/-- The order of better() (R247). -/
def tqBetter (a b : TQueue) : Bool :=
  if a.cls ≠ b.cls then a.cls < b.cls
  else if a.disp ≠ b.disp then a.disp < b.disp
  else if a.untaken ≠ b.untaken then a.untaken > b.untaken
  else if a.treelet ≠ b.treelet then a.treelet < b.treelet
  else a.id < b.id

/-- Insertion by key, equal keys keeping their order. -/
def insertKey (key : Nat → Nat) (x : Nat) : List Nat → List Nat
  | [] => [x]
  | y :: r => if key x < key y then x :: y :: r else y :: insertKey key x r

/-- A list in ascending order of a key, equal keys keeping their order (R244). -/
def sortKey (key : Nat → Nat) (l : List Nat) : List Nat := l.foldl (fun acc x => insertKey key x acc) []

/-- Whether a batch waits: an entry of it stands in a segment that is still spilled (R257). -/
def State.batchWaits (s : State) (b : Batch) : Bool :=
  s.tqs.any (fun t => t.id == b.tq && t.segs.any (fun g => g.place != .field && g.entries.any (fun e => b.rays.contains e.ray && e.st == 1)))

/-- BATCH_PICK: a pipeline without a batch takes one of the best resident queue (R244, R247). -/
def State.batchPick (s : State) (tc p : Nat) : State :=
  let cls0 := s.preempted (tcUnit tc)
  let busy := s.batches.any (fun b => b.tc == tc && b.pipe == p &&
    (!cls0 || (match s.tqs.find? (fun t => t.id == b.tq) with | some t => t.cls == 0 | none => false)))
  if busy then s
  else
    let can := s.tqs.filter (fun t => t.desc.isSome && t.untaken > 0 && s.eligible tc t && (s.slotFor t .resident).isSome)
    match leastBy tqBetter can with
    | none => s
    | some t =>
      match s.slotFor t .resident, (t.waiting.take 256).takeWhile (s.named tc) with
      | some slot, x :: xs =>
        let ids := x :: xs
        let key := fun id => match s.ray id with | some r => r.key | none => 0
        let b : Batch := { tc := tc, pipe := p, tq := t.id, slot := slot, rays := sortKey key ids }
        let take := fun (g : Seg) => { g with entries := g.entries.map (fun (e : SegEntry) => if ids.contains e.ray then { e with st := 1 } else e) }
        let s : State := { s with
          batches := s.batches ++ [b],
          tqs := s.tqs.map (fun (q : TQueue) => if q.id == t.id then { q with segs := q.segs.map take } else q),
          rays := s.rays.map (fun (r : Ray) => if ids.contains r.id then { r with loc := .batch, tc := tc, pipe := p } else r),
          tslots := s.tslots.map (fun (e : Nat × TSlot) => if e.1 == slot then (e.1, { e.2 with lastUse := s.useClock + 1 }) else e),
          useClock := s.useClock + 1 }
        (ids.foldl (fun s id => s.giveHome id) s).bump F.srtBatches 1
      | _, _ => s

/-! ### Treelet fetches -/

/-- The fetches in flight. -/
def State.fetches (s : State) : Nat := (s.tslots.filter (fun e => e.2.state == .fetching)).length

/-- The clusters in service. -/
def State.clustersUp (s : State) : List Nat := (List.range 32).filter (fun tc => s.inService (tcUnit tc))

/-- Whether a pipeline holds a batch that a slot serves (R249). -/
def State.slotPinned (s : State) (slot : Nat) : Bool := s.batches.any (fun b => b.slot == slot)

/-- The slot for a fetch of class `c` (R249): a FREE slot, lowest range first, else the least recently used unpinned RESIDENT one. -/
def State.fetchSlot (s : State) (c : Nat) : Option Nat :=
  let slots := match s.active with
    | some im => (im.part.ranges.filter (fun (r : TsRange) => admits r.classMask c)).flatMap (fun (r : TsRange) => (List.range r.count).map (r.first + ·))
    | none => []
  let held := fun i => s.tslots.find? (fun e => e.1 == i)
  match slots.find? (fun i => (held i).isNone) with
  | some i => some i
  | none =>
    let can := slots.filterMap (fun i => match held i with
      | some (e : Nat × TSlot) => if e.2.state == TSState.resident && !s.slotPinned i then some (i, e.2.lastUse) else none
      | none => none)
    (leastBy (fun (a b : Nat × Nat) => a.2 < b.2 || (a.2 == b.2 && a.1 < b.1)) can).map (fun e => e.1)

/-- Transfers of a service request charged to a stream engine, or taken off it (R251, R456). -/
def State.service (s : State) (e n : Nat) (up : Bool) : State :=
  { s with ses := modifyAt (fun t => { t with service := if up then t.service + n else t.service - n }) e s.ses }

/-- Rays that wait for a treelet, in queues that `hit` holds of and in the overflow list, end, and those that a dispatch of theirs files
there later will (R252). -/
def State.treeletGone (s : State) (hit : TQueue → Bool) (treelet status : Nat) : State :=
  let qs := s.tqs.filter (fun t => t.desc.isSome && t.treelet == treelet && hit t)
  let mine := fun (id : Nat) (query : Bool) => qs.any (fun t => t.disp == id && t.query == query)
  let keys := fun (id : Nat) => ([true, false].filter (mine id)).map (fun q => (deadKey q treelet, status))
  let s : State := { s with
    disps := s.disps.map (fun d => { d with deadTreelets := d.deadTreelets ++ keys d.id }),
    plk := { s.plk with pairs := s.plk.pairs.map (fun p => { p with dead := p.dead ++ keys p.key }) } }
  let rs := s.rays.filter (fun r => (r.loc == .queued && qs.any (fun t => t.id == r.tq)) ||
    (r.loc == .overflow && r.treelet == treelet && mine r.disp r.query))
  (rs.foldl (fun s r => s.sorterFail r status (if status = stUnc then 0x11 else if status = stLink then 0x13 else 0x10)) s).tidyQueues

/-- A treelet's fetch has failed: its slot is FREE, and every ray of a running dispatch in a queue of that treelet and tag ends, now and
later (R252). -/
def State.treeletLost (s : State) (slot status : Nat) : State :=
  match s.tslots.find? (fun e => e.1 == slot && e.2.state == .fetching) with
  | none => s
  | some (_, x) =>
    let hit := fun (t : TQueue) => s.tagged t x
    (State.treeletGone { s.service x.se x.charged false with tslots := s.tslots.filter (fun e => e.1 != slot) } hit x.treelet status)

/-- The table entry of a treelet could not be read: the rays of that dispatch that need it end (R147). -/
def State.tableLost (s : State) (id treelet status : Nat) : State :=
  let s : State := { s with
    disps := s.disps.map (fun d => if d.id = id then { d with deadTreelets := d.deadTreelets ++ [(deadKey false treelet, status), (deadKey true treelet, status)] } else d),
    plk := { s.plk with pairs := s.plk.pairs.map (fun p =>
      if p.key = id then { p with dead := p.dead ++ [(deadKey false treelet, status), (deadKey true treelet, status)] } else p) } }
  s.treeletGone (fun t => t.disp == id) treelet status

/-- The queue whose treelet is fetched next: the best that some cluster in service may take, whose treelet is neither resident nor FETCHING,
of a class for which a slot can be had (R248, R249). -/
def State.fetchPick (s : State) : Option TQueue :=
  let up := s.clustersUp
  leastBy tqBetter (s.tqs.filter (fun t => t.desc.isSome && t.untaken > 0 && up.any (fun tc => s.eligible tc t) &&
    (s.slotFor t .resident).isNone && (s.slotFor t .fetching).isNone && (s.fetchSlot t.cls).isSome))

/-- The transfers of up to 128 sectors that `n` bytes at `a` take (R479). -/
def xfersOf (a n : Nat) : Nat := ceilDiv (sectorsOf a n).length 128

/-- TREELET_FETCH_ISSUE (R248–R251): the table entry is read, and the fetch is charged to the engine with the fewest transfers outstanding,
of which it takes what the limit of 6 leaves (log entry 91); the part of a treelet that lies in a remote window is asked of its node
(R736).  A table entry that has become malformed ends the rays that need it (R177). -/
def State.fetchIssue (s : State) : State :=
  if s.fetches ≥ 2 * s.clustersUp.length || !s.domLive 5 then s
  else match s.fetchPick with
    | none => s
    | some t =>
      match s.fetchSlot t.cls, s.serviceSe with
      | some slot, some e =>
        let (a, d) := s.descFor t.disp t.query
        if s.seOutstanding e.val ≥ 6 || !s.ttReach t.disp d t.treelet || (match s.runWants e with | some c => decide (c < t.cls) | none => false) then s
        else if s.ttBad d t.treelet then
          let s := s.ttRead t.disp t.cls d t.treelet
          ((s.rays.filter (fun r => r.loc == .queued && r.tq == t.id)).foldl (fun s r => s.refFail r) s).tidyQueues
        else
          let s := s.ttRead t.disp t.cls d t.treelet
          let tt := s.ttEntry d t.treelet
          let old := s.tslots.find? (fun x => x.1 == slot)
          let gone := fun (q : TQueue) => match old with
            | some x => q.treelet == x.2.treelet && q.untaken > 0 && s.slotFor q .resident == some slot
            | none => false
          let k := min (xfersOf (ttAddr tt) (ttBytes tt)) (6 - s.seOutstanding e.val)
          let n : TSlot := { state := .fetching, asAddr := a, gen := descGen d, treelet := t.treelet, addr := ttAddr tt,
                             bytes := min (ttBytes tt) 65536, lastUse := 0, se := e.val, charged := k, cls := t.cls }
          let s : State := { s with
            tqs := s.tqs.map (fun (q : TQueue) => if gone q then { q with evicted := true } else if q.id == t.id then { q with evicted := false } else q),
            tslots := s.tslots.filter (fun x => x.1 != slot) ++ [(slot, n)] }
          let acc := Access.treelet ⟨slot % 256, Nat.mod_lt _ (by decide)⟩
          let (win, loc) := (sectorsOf n.addr n.bytes).partition (fun a => (s.windowOf a).isSome)
          let s := loc.foldl (fun s a => s.requestBy e.val acc false true false a) (s.ncSlotFetching slot)
          let s := s.service e.val k true
          let s := (s.bump F.srtFetches 1).perf 12 .sorter (some t.cls) 1
          let s := if t.evicted then s.bump F.srtRefetches 1 else s
          match s.windowReads acc t.cls win with
          | (true, s) => s
          | (false, s) => s.treeletLost slot stLink
      | _, _ => s

/-- TREELET_FETCH_DONE: the last byte has arrived and the slot is RESIDENT (R251), or the fetch has failed (R252). -/
def State.fetchDone (s : State) (slot : Fin 256) (o : ReadOutcome) : State :=
  match s.tslots.find? (fun e => e.1 == slot.val && e.2.state == .fetching) with
  | none => s
  | some (_, x) =>
    if s.waits (.treelet slot) || s.plk.rreads.any (fun r => r.acc == .treelet slot) then s
    else
      let s := s.seMoved x.se x.bytes
      match o with
      | .ok =>
        let bs := s.seGet x.addr x.bytes
        let n := { x with state := TSState.resident, lastUse := s.useClock + 1 }
        let s := s.service x.se x.charged false
        { s with
          tslots := s.tslots.filter (fun e => e.1 != slot.val) ++ [(slot.val, n)], useClock := s.useClock + 1,
          tsPoison := s.tsPoison.filter (fun l => l / 1024 != slot.val),
          ts := putBytes (sclear (fun k => slot.val * 65536 ≤ k && k < (slot.val + 1) * 65536) s.ts) (slot.val * 65536) bs }
      | .abort => s.treeletLost slot.val stPage
      | .unc => s.treeletLost slot.val stUnc

/-- A stream engine's active run has its turn, unless a treelet fetch of a lower class stands next for that engine (R456). -/
def State.streamTurn (s : State) (e : Fin 16) : State :=
  let first := match s.fetchPick, s.runWants e with
    | some t, some c => decide (t.cls < c) && s.serviceSe == some e && decide (s.fetches < 2 * s.clustersUp.length) &&
        s.ttReach t.disp (s.descFor t.disp t.query).2 t.treelet
    | _, _ => false
  if first then s else s.streamIssue e

/-! ### Spill (R254–R259) -/

/-- 2^DEPTH_LOG2, with 9 to 15 acting as 8. -/
def State.spillDepth (s : State) : Nat := 2 ^ min 8 (s.get F.srtSpillCfgDepthLog2)

/-- The address of a spilled segment of a queue (R255). -/
def State.spillSlot (s : State) (t : TQueue) (ord : Nat) : Nat :=
  (s.get F.spillBaseLo * 2 ^ 12 + 2 ^ 32 * s.get F.spillBaseHi) + 4096 * (t.desc.getD 0 * s.spillDepth + ord % s.spillDepth)

/-- The segment of a queue that may be spilled: its youngest full one with no taken entry, neither the tail nor one of the 2 oldest
that hold untaken entries (R254). -/
def TQueue.victim (t : TQueue) : Option Seg :=
  let keep := ((t.segs.filter (fun g => g.entries.any (fun e => e.st == 0))).take 2).map (fun g => g.ord)
  (t.segs.dropLast.reverse).find? (fun g =>
    g.place == .field && g.entries.length == 64 && g.entries.all (fun e => e.st == 0) && !keep.contains g.ord)

/-- The order in which victim queues are chosen (R254). -/
def victimBefore (a b : TQueue) : Bool :=
  let u := fun (t : TQueue) => (t.segs.filter (fun g => g.entries.all (fun e => e.st == 0))).length
  if a.cls ≠ b.cls then a.cls > b.cls
  else if a.disp ≠ b.disp then a.disp > b.disp
  else u a > u b

/-- SEGMENT_SPILL: one segment goes to memory in its internal code (R254, R256). -/
def State.segSpill (s : State) : State :=
  if !s.flag F.srtSpillCfgEn || s.segFree ≥ s.get F.srtSpillCfgSpillLow || !s.domLive 5 then s
  else
    let can := s.tqs.filter (fun t => t.desc.isSome && t.victim.isSome &&
      (t.segs.filter (fun g => g.place == .spilled)).length < s.spillDepth)
    match leastBy victimBefore can with
    | none => s
    | some t =>
      match t.victim with
      | none => s
      | some g =>
        let (k, s) := s.draw
        let raw := decide ((Config.freeValue k).toNat % 2 = 1)
        let n := if raw then 4096 else 2048
        let bs := (List.range (n / 32)).flatMap (fun i => leBytes 32 (Config.freeValue (k + 1 + i)).toNat)
        let s : State := { s with freeCtr := s.freeCtr + n / 32 }
        let a := s.spillSlot t g.ord
        let s := (s.memPut a bs).request (.segment (t.desc.getD 0) g.ord) a n true false
        let s : State := { s with tqs := s.tqs.map (fun (q : TQueue) =>
          if q.id == t.id then { q with segs := q.segs.map (fun x => if x.ord == g.ord then { x with place := .spilled, raw := raw } else x) } else q) }
        let s := s.bump F.srtSegSpills 1
        let s := if raw then s.bump F.srtSegRaw 1 else s
        s.drainOverflow

/-- A segment's rays are lost: each ends with a status (R259). -/
def State.segLost (s : State) (q ord status : Nat) : State :=
  match s.tqs.find? (fun t => t.desc == some q) with
  | none => s
  | some t =>
    match t.segs.find? (fun g => g.ord == ord) with
    | none => s
    | some g =>
      let rs := s.rays.filter (fun r => g.entries.any (fun e => e.ray == r.id && e.st != 2))
      let s : State := { s with tqs := s.tqs.map (fun (x : TQueue) =>
        if x.id == t.id then { x with segs := x.segs.map (fun y => if y.ord == ord then { y with place := .field } else y) } else x) }
      (rs.foldl (fun s r => s.sorterFail r status (if status = stUnc then 0x11 else 0x10)) s).tidyQueues

/-- The spilled segment of a queue that is refilled next: in ordinal order, the first that does not lie beyond the 2 segments that follow the
oldest with untaken entries (R257). -/
def TQueue.refill (t : TQueue) : Option Seg :=
  let k := (t.segs.findIdx? (fun g => g.entries.any (fun e => e.st == 0))).getD t.segs.length
  (t.segs.take (k + 3)).find? (fun g => g.place == .spilled)

/-- SEGMENT_REFILL of the queue with descriptor `q`: the coded segment is read through the ports (R257, R259). -/
def State.segRefill (s : State) (q : Nat) (o : ReadOutcome) : State :=
  match s.tqs.find? (fun t => t.desc == some q) with
  | none => s
  | some t =>
    match t.refill with
    | none => s
    | some g =>
      let acc := Access.segment q g.ord
      let a := s.spillSlot t g.ord
      let n := if g.raw then 4096 else 2048
      if s.segFree == 0 || !s.readable acc a n o then s
      else
        let s := s.readEnds acc t.cls a n o
        match o with
        | .ok =>
          let s : State := { s with tqs := s.tqs.map (fun (x : TQueue) =>
            if x.id == t.id then { x with segs := x.segs.map (fun y => if y.ord == g.ord then { y with place := .field } else y) } else x) }
          s.bump F.srtSegRefills 1
        | .abort => s.segLost q g.ord stPage
        | .unc => s.segLost q g.ord stUnc

end Sys2Proof.Machine
end

