-- ==== Sys2Proof/Machine/Traverse.lean ====
section
/-! DEFINITION. Rays in the traversal clusters: node steps, triangle tests, callouts and neural leaves ("Ray Traversal and
Intersection"). -/

namespace Sys2Proof.Machine

/-! ### A ray's own view -/

/-- Fields of a ray record (Table 60). -/
def Ray.tmin (r : Ray) : Nat := le r.rcd 0x0C 4
def Ray.tmax (r : Ray) : Nat := le r.rcd 0x1C 4
def Ray.flags (r : Ray) : Nat := le r.rcd 0x20 2
def Ray.rayId (r : Ray) : Nat := le r.rcd 0x24 4

/-- The world frame of a ray. -/
def Ray.world (r : Ray) : Frame :=
  { o := [le r.rcd 0 4, le r.rcd 4 4, le r.rcd 8 4], d := [le r.rcd 16 4, le r.rcd 20 4, le r.rcd 24 4], flip := false,
    noCull := false, force := none, inst := 0xFFFFFF }

/-- The current frame of a ray. -/
def Ray.frame (r : Ray) : Frame := (r.frames.head?).getD r.world

/-- The effective opacity of an object of its own opacity (R206). -/
def Ray.opaque_ (r : Ray) (own : Bool) : Bool :=
  if bit r.flags 1 then true else if bit r.flags 2 then false else (r.frame.force).getD own

/-- Whether an object is culled by its opacity (R207). -/
def Ray.opCulled (r : Ray) (op : Bool) : Bool := (bit r.flags 5 && op) || (bit r.flags 6 && !op)

/-- The best hit becomes `h`; FIRST_HIT or an ACCEPT_END reply ends the walk (R209). -/
def Ray.takeHit (r : Ray) (h : Hit) (last : Bool) : Ray :=
  let r := { r with best := some h, bestT := h.t }
  if last || bit r.flags 0 then { r with stack := [], leaf := none } else r

/-- A candidate offered to hit selection, accepted or not (R205). -/
def Ray.offer (r : Ray) (h : Hit) (last : Bool) : Ray :=
  if hitBetter r.tmin r.tmax r.bestT r.best h then r.takeHit h last else r

/-- Whether nothing is left of a ray's walk. -/
def Ray.walkDone (r : Ray) : Bool := r.started && r.stack.isEmpty && r.leaf.isNone && r.call.isNone && r.neural.isNone

/-- The hit record of a ray whose walk has ended (R228, R230). -/
def Ray.record (r : Ray) : List Byte :=
  match r.best with
  | some h => hitBytes h stOk r.rayId
  | none => hitBytes { t := r.tmax, u := 0, v := 0, prim := 0, geom := 0, kind := 0, inst := 0 } stMiss r.rayId

/-! ### Stack and spill lines (R196, R538) -/

/-- The spill-line accesses that a change of the stack from `n` to `m` entries makes: entries beyond the top 8 stand 16 to a line. -/
def State.stackAccess (s : State) (r : Ray) (n m : Nat) : List (Nat × Bool × Bool) :=
  let a := n - 8
  let b := m - 8
  if a < b then
    ((List.range 8).filter (fun j => a / 16 ≤ j && j ≤ (b - 1) / 16)).map (fun j => (s.spillAddr r j, true, !bit r.lines j))
  else if b < a then
    ((List.range 8).filter (fun j => b / 16 ≤ j && j ≤ (a - 1) / 16)).map (fun j => (s.spillAddr r j, false, false))
  else []

/-- The lines of a stack of `m` entries as written. -/
def stackLines (lines m : Nat) : Nat := (List.range 8).foldl (fun l j => if 16 * j + 8 < m then withBit l j true else l) lines

/-- The accesses to the 2 state lines of a suspended ray (R213). -/
def State.stateAccess (s : State) (r : Ray) (write : Bool) : List (Nat × Bool × Bool) :=
  [(s.spillAddr r 8, write, write && !bit r.lines 8), (s.spillAddr r 9, write, write && !bit r.lines 9)]

/-- The lines of a ray with its state lines written (R538). -/
def Ray.stateLines (r : Ray) : Nat := withBit (withBit r.lines 8 true) 9 true

/-- An item whose spill-line accesses would read a poisoned line of the Shared Field fails, and its failure names the bank (R655). -/
def State.spillFails (s : State) (r : Ray) (tc : Nat) (l : List (Nat × Bool × Bool)) : Option State :=
  (s.spillPoison tc l).map (fun a =>
    let (u, s) := s.readPoison a 128
    s.failRay { r with tc := tc } stUnc 0x11 (u.getD (tcUnit tc)) true)

/-! ### Contexts -/

/-- The rays in contexts of a pipeline (R190). -/
def State.contexts (s : State) (tc p : Nat) : Nat := (s.rays.filter (fun r => r.loc == .ctx && r.tc == tc && r.pipe == p)).length

/-- The batch that holds a ray. -/
def State.batchOf (s : State) (id : Nat) : Option Batch := s.batches.find? (fun b => b.rays.contains id)

/-- Whether a ray is the next waiting one of a batch that can go on (R244, R257). -/
def State.nextOf (s : State) (b : Batch) (id : Nat) : Bool :=
  !s.batchWaits b &&
  (b.rays.find? (fun x => match s.ray x with | some y => y.loc == .batch && y.pipe == b.pipe | none => false)) == some id

/-- Whether a ray stands in a context of the pipeline, or may enter one now: its batch's next waiting ray, or a resumed one. -/
def State.ctxReady (s : State) (r : Ray) (tc p : Nat) : Bool :=
  r.tc == tc &&
  (match r.loc with
    | .ctx => r.pipe == p
    | .batch =>
      decide (s.contexts tc p < 16) &&
      (r.pipe == 4 || (r.pipe == p && (match s.batchOf r.id with | some b => s.nextOf b r.id | none => false)))
    | _ => false)

/-- The Treelet Store slot and size of the treelet a ray walks. -/
def State.slotOf (s : State) (r : Ray) : Nat × Nat :=
  match s.batchOf r.id with
  | some b => (b.slot, match s.tslots.find? (fun e => e.1 == b.slot) with | some e => e.2.bytes | none => 0)
  | none => (0, 0)

/-- Rays suspended in a cluster (R214). -/
def State.suspendedIn (s : State) (tc : Nat) : Nat :=
  (s.rays.filter (fun r => r.tc == tc && (r.loc == .callout || r.loc == .neural))).length

/-- Whether a ray may take a step in a pipeline now: its cluster and class, no record waiting, no cache miss outstanding. -/
def State.mayStep (s : State) (r : Ray) (tc p : Nat) : Bool :=
  s.ctxReady r tc p && s.mayWork (tcUnit tc) r.cls && !s.stageBlocked r &&
  !(s.cachesOf tc).ncMiss.any (fun m => m.1 == p) && !(s.cachesOf tc).spcMiss.any (fun m => m.1 == p)

/-- The state lines of a resumed ray are read back before its first step (R213). -/
def State.resume (s : State) (r : Ray) (tc : Nat) : Bool × State :=
  if r.pipe = 4 then
    let l := s.stateAccess r false
    match s.spillFails r tc l with
    | some s => (false, s)
    | none => s.spcAccess tc 4 l
  else (true, s)

/-- A step's outcome is committed once its spill-line accesses go through; a finished walk ends the ray.  `s0` is the state before
the step's node-cache reads. -/
def State.commit (s s0 : State) (r r' : Ray) (tc p : Nat) : State :=
  let acc := s.stackAccess r r.stack.length r'.stack.length
  match s.spillFails r tc acc, s.spcAccess tc p acc with
  | some s, _ => s
  | none, (false, _) => (s0.spcAccess tc p acc).2
  | none, (true, s) =>
    let r' := { r' with loc := .ctx, tc := tc, pipe := p, lines := stackLines r'.lines r'.stack.length }
    let s := s.modRay r.id (fun _ => r')
    if r'.walkDone then s.finishRay r' r'.record [] false else s

/-- A cluster fails a ray that meets a malformed structure or a limit (R178). -/
def State.walkFail (s : State) (r : Ray) (tc cause : Nat) : State :=
  s.failRay { r with tc := tc } stProg cause (tcUnit tc) true

/-- A cluster fails a ray whose data holds an uncorrectable error (Table 66, Table 68). -/
def State.walkUnc (s : State) (r : Ray) (tc : Nat) : State := s.failRay { r with tc := tc } stUnc 0x11 (tcUnit tc) true

/-! ### Nodes (R148, R153, R193, R194) -/

/-- The box of child `c` of a BVH node. -/
def nodeBox (b : List Byte) (c : Nat) : List Fv × List Fv :=
  let f := fun (o q : Nat) (add : Nat) => (List.range 3).map (fun a =>
    boundOf fp32 (le b (4 * a) 4) (le b (q + 8 * a + c) 1 + add) (le b (0x0C + a) 1) |> fun (v : Fv) => if o = 0 then v else v)
  (f 0 0x10 0, f 0 0x28 1)

/-- A child reference as a stack entry (Table 49), with the cause with which it fails when entered (R177, R179). -/
def childEntry (ref treelet te : Nat) : SEntry :=
  let typ := bits ref 61 3
  let t := bits ref 41 20
  let off := bits ref 31 10
  { exit := false, typ := typ, treelet := t, offset := off, count := bits ref 28 3, raw := bit ref 27, te := te,
    bad := if typ ≠ 1 ∧ t ≠ treelet then 3 else if typ = 1 ∧ off % 2 = 1 then 3 else 0 }

/-- Whether the SKIP flags exclude a child type (R187). -/
def skipType (flags typ : Nat) : Bool := (typ == 2 && bit flags 7) || (typ == 3 && bit flags 8) || (typ == 4 && bit flags 9)

/-- The instance mask of a ray. -/
def Ray.mask (r : Ray) : Nat := le r.rcd 0x22 1

/-- The child in slot `c` of a node as a stack entry, unless it cannot be entered whatever its instance mask: empty, skipped, or an INSTANCE
for a ray whose own mask is 0 (R171, R187, R194). -/
def nodeSlot (r : Ray) (b : List Byte) (c : Nat) : Option SEntry :=
  let e := childEntry (le b (0x40 + 8 * c) 8) r.treelet 0
  let emptyBox := (List.range 3).any (fun a => le b (0x10 + 8 * a + c) 1 > le b (0x28 + 8 * a + c) 1)
  if e.typ = 0 || skipType r.flags e.typ || emptyBox || (e.typ == 5 && r.mask == 0) then none else some e

/-- The offsets of the instance records whose MASK a ray needs at a node: those that lie in the treelet. -/
def nodeMasks (r : Ray) (b : List Byte) (size : Nat) : List Nat :=
  ((List.range 8).filterMap (nodeSlot r b)).filterMap (fun e =>
    if e.typ = 5 && e.bad = 0 && e.offset * 64 + 64 ≤ size then some e.offset else none)

/-- The children of a node that the ray enters, nearest first (R193, R194), or the cause with which the ray fails.
`mask` gives the MASK of the instance record at an offset of this treelet; a record that does not lie in it passes. -/
def nodeChildren (r : Ray) (b : List Byte) (mask : Nat → Nat) : Except Nat (List SEntry) :=
  if (List.range 3).any (fun a => le b (0x0C + a) 1 == 0 || le b (0x0C + a) 1 == 255) || !allFin [le b 0 4, le b 4 4, le b 8 4] then
    .error 4
  else
    let ref := fun c => le b (0x40 + 8 * c) 8
    if (List.range 8).any (fun c => bits (ref c) 61 3 ≥ 6) then .error 3
    else
      let cand := (List.range 8).filterMap (fun c => (nodeSlot r b c).bind (fun e =>
        if e.typ = 5 && e.bad = 0 && (mask e.offset &&& r.mask) == 0 then none
        else
          let (lo, hi) := nodeBox b c
          (boxTest r.frame r.tmin r.bestT lo hi).map (fun x => { e with te := x.1 })))
      .ok (cand.foldl (fun acc e =>
        let before := acc.takeWhile (fun (x : SEntry) => leF fp32 x.te e.te)
        before ++ e :: acc.drop before.length) [])

/-! ### One step of the walk -/

/-- A walk begins: the box test of R144 and the ROOT. -/
def State.walkStart (s : State) (r : Ray) (tc p : Nat) : State :=
  let d := (s.descOf r).2
  let r0 := { r with started := true, frames := [r.world], bestT := r.tmax }
  let lo := fpBounds [le d 0x18 4, le d 0x1C 4, le d 0x20 4]
  let hi := fpBounds [le d 0x24 4, le d 0x28 4, le d 0x2C 4]
  let r' := match boxTest r0.frame r0.tmin r0.bestT lo hi with
    | some (te, _) =>
      let ref := descRoot d
      { r0 with stack := [{ exit := false, bad := 0, typ := 1, treelet := refTreelet ref, offset := refOffset ref, count := 0,
                            raw := true, te := te }] }
    | none => r0
  s.commit s r r' tc p

/-- The ray goes back to the ray sorter with its stack and best hit, for the treelet of the entry on top (R195, R239), once that treelet's
table entry can be read (R147) and a segment stands ready (R258); its spill lines reach the Shared Field first (R539). -/
def State.rebin (s : State) (r : Ray) (tc : Nat) (e : SEntry) : State :=
  let d := (s.descOf r).2
  let r' := { r with treelet := e.treelet, loc := .queued }
  let dead := (s.deadFor r.disp).any (fun x => x.1 == deadKey r.query e.treelet)
  let file := fun (s : State) =>
    let s := ((s.spcRelease tc r.id true).leaveBatch r.id).modRay r.id (fun _ => r')
    ((s.bump F.srtRebins 1).binRay r').tidyQueues
  if dead then file s
  else if !s.ttReach r.disp d e.treelet then s
  else
    let t := s.ttRead r.disp r.cls d e.treelet
    if t.ttBad d e.treelet then t.walkFail r tc 1
    else if (t.awayNode r').isNone && !t.canBin r.disp r.query e.treelet then s
    else file t

/-- An INNER entry: the node is read, with the MASK of its INSTANCE children through the intersection block's requester (R531), and its
children pushed (R193). -/
def State.walkInner (s : State) (r : Ray) (tc p : Nat) (e : SEntry) (rest : List SEntry) : State :=
  let (slot, size) := s.slotOf r
  let off := e.offset * 64
  if off % 128 ≠ 0 ∨ off + 128 > size then s.walkFail r tc 2
  else if s.tsBad tc slot off 128 then s.walkUnc r tc
  else
    match s.ncRead tc p slot off 128 with
    | (none, s') => s'
    | (some b, s') =>
      let at' := nodeMasks r b size
      let ls := dedup (at'.map (· / 2))
      if at'.any (fun o => s.tsBad tc slot (o * 64) 64) then s'.walkUnc r tc
      else match s'.ncGather tc 4 slot ls with
      | (none, _) => (s.ncGather tc 4 slot ls).2
      | (some recs, s') =>
        let mask := fun o => match ls.findIdx? (· == o / 2) with
          | some i => le recs (128 * i + 64 * (o % 2) + 0x37) 1
          | none => 255
        let s' := s'.perf 3 (tcUnit tc) (some r.cls) 1
        match nodeChildren r b mask with
        | .error c => s'.walkFail r tc c
        | .ok l =>
          let st := l ++ rest
          if st.length > 136 then s'.walkFail r tc 9
          else s'.commit s r { r with stack := st, nodes := r.nodes + 1 } tc p

/-- An INSTANCE entry: the record is read and its child structure entered (R193, R210). -/
def State.walkInstance (s : State) (r : Ray) (tc p : Nat) (e : SEntry) (rest : List SEntry) : State :=
  let (slot, size) := s.slotOf r
  let depth := r.frames.length - 1
  match s.rayStage r with
  | none => s
  | some t =>
    if depth ≥ (s.travOf t).maxDepth then s.walkFail r tc 8
    else if e.offset * 64 + 64 > size then s.walkFail r tc 2
    else if s.tsBad tc slot (e.offset * 64) 64 then s.walkUnc r tc
    else match s.ncRead tc 4 slot (e.offset * 64) 64 with
      | (none, s') => s'
      | (some b, s') =>
        let fl := le b 0x38 2
        let ref := le b 0x30 4
        if bit fl 0 && bit fl 1 then s'.walkFail r tc 7
        else if refTreelet ref ≥ descCount (s.descOf r).2 then s'.walkFail r tc 1
        else
          let ex : SEntry := { exit := true, bad := 0, typ := 0, treelet := 0, offset := 0, count := 0, raw := false, te := 0 }
          let root : SEntry := { exit := false, bad := 0, typ := 1, treelet := refTreelet ref, offset := refOffset ref, count := 0,
                                 raw := true, te := e.te }
          let st := root :: ex :: rest
          if st.length > 136 then s'.walkFail r tc 9
          else s'.commit s r { r with stack := st, frames := r.frame.enter b :: r.frames } tc p

/-! ### Neural batches (R225) -/

/-- Whether the stage of a sample's ray sends a batch of `n` samples to quadrant `q` (R31, R32, R225). -/
def State.sampleOn (s : State) (n q : Nat) (x : NSample) : Bool :=
  match (s.ray x.ray).bind (fun r => (s.rayStage r).map (fun t => (r, t))) with
  | some (r, t) =>
    let k := (s.travOf t).arrayBatch
    let u : EUnit := .quad ⟨q % 8, Nat.mod_lt _ (by decide)⟩
    k != 0 && decide (k ≤ n) && bit t.quadMask q && s.inService u && s.unitAdmits u r.cls
  | none => false

/-- Where a closed batch goes: the lowest quadrant that R225 allows for every sample of it, else a lane core of the group. -/
def State.neuralPlace (s : State) (b : NBatch) : Option Nat × Nat :=
  (if b.samples.isEmpty then none else (List.range 8).find? (fun q => b.samples.all (s.sampleOn b.samples.length q)),
   ([2 * b.tg, 2 * b.tg + 1].find? (fun l => s.inService (.lc ⟨l % 16, Nat.mod_lt _ (by decide)⟩))).getD 99)

/-- A batch closes and is given its place. -/
def State.neuralClose (s : State) (id : Nat) : State :=
  { s with nbatches := s.nbatches.map (fun (b : NBatch) =>
      if b.id == id then let (q, l) := s.neuralPlace b; { b with closed := true, quad := q, lc := l } else b) }

/-- One sample joins the open batch of its group and weight block; a full batch closes (R225). -/
def State.addSample (s : State) (tg weights : Nat) (r : Ray) (t : Nat) : State :=
  let x : NSample := { ray := r.id, t := t }
  match s.nbatches.find? (fun b => b.tg == tg && b.weights == weights && !b.closed) with
  | some b =>
    let s := { s with nbatches := s.nbatches.map (fun (y : NBatch) => if y.id == b.id then { y with samples := y.samples ++ [x] } else y) }
    if b.samples.length + 1 ≥ 2048 then s.neuralClose b.id else s
  | none =>
    let b : NBatch := { id := s.nextNb, tg := tg, weights := weights, disp := r.disp, closed := false, quad := none, lc := 0, samples := [x] }
    { s with nbatches := s.nbatches ++ [b], nextNb := s.nextNb + 1 }

/-- The segment's samples of a neural leaf (R222). -/
def sampleList (b : List Byte) (t0 t1 : Nat) : List Nat :=
  let n := sampleCount b
  let h := sampleStep t0 t1 n
  (List.range n).map (sampleAt t0 t1 h n)

/-- A NEURAL entry: the descriptor is checked, its box tested, and the ray suspended on its samples (R221, R225). -/
def State.walkNeural (s : State) (r : Ray) (tc p : Nat) (e : SEntry) (rest : List SEntry) : State :=
  let (slot, size) := s.slotOf r
  match s.rayStage r with
  | none => s
  | some t =>
    if bit r.flags 5 then s.commit s r { r with stack := rest } tc p
    else if e.offset * 64 + 64 > size then s.walkFail r tc 2
    else if s.tsBad tc slot (e.offset * 64) 64 then s.walkUnc r tc
    else match s.ncRead tc 4 slot (e.offset * 64) 64 with
      | (none, s') => s'
      | (some b, s') =>
        if !neuralOk b (s.travOf t).samples then s'.walkFail r tc 6
        else if le b 0x10 8 % 64 ≠ 0 then s'.walkFail r tc 2
        else
          let lo := fpBounds [le b 0x18 4, le b 0x1C 4, le b 0x20 4]
          let hi := fpBounds [le b 0x24 4, le b 0x28 4, le b 0x2C 4]
          match boxTest r.frame r.tmin r.bestT lo hi with
          | none => s'.commit s r { r with stack := rest } tc p
          | some (t0, t1) =>
            if s.suspendedIn tc ≥ 512 then s
            else
              let pop := s.stackAccess r r.stack.length rest.length
              let keep := s.stateAccess r true
              match s'.spillFails r tc (pop ++ keep), s'.spcAccess tc p pop with
              | some s, _ => s
              | none, (false, _) => (s.spcAccess tc p pop).2
              | none, (true, s') => match s'.spcAccess tc 4 keep with
              | (false, _) => (s.spcAccess tc 4 keep).2
              | (true, s') =>
                let base := match s.tslots.find? (fun x => x.1 == slot) with | some x => x.2.addr | none => 0
                let n : Neural := { desc := base + e.offset * 64, n := sampleCount b, t0 := t0, t1 := t1,
                                    h := sampleStep t0 t1 (sampleCount b), refining := false, lo := 0, hi := 0, gHi := 0,
                                    steps := 0, left := sampleCount b }
                let r' := { r with stack := rest, neural := some n, loc := .neural, tc := tc, pipe := 4,
                                   leaf := some { entry := e, blk := 0, idx := 0, bytes := b, seq := 0 },
                                   lines := stackLines r.stateLines rest.length }
                let s' := s'.modRay r.id (fun _ => r')
                (sampleList b t0 t1).foldl (fun s t => s.addSample (tc / 4) (le b 0x10 8) r' t) s'

/-- A procedural record of the leaf at hand: culled, or a callout to be posted (R206, R207, R213). -/
def State.walkProc (s : State) (r : Ray) (tc p : Nat) (l : Leaf) : State :=
  let (slot, size) := s.slotOf r
  let off := l.entry.offset * 64 + 32 * l.blk
  let next := if l.blk ≥ l.entry.count then none else some { l with blk := l.blk + 1 }
  if off + 32 > size then s.walkFail r tc 2
  else if s.tsBad tc slot off 32 then s.walkUnc r tc
  else match s.ncRead tc 4 slot off 32 with
    | (none, s') => s'
    | (some b, s') =>
      let op := r.opaque_ (bit (le b 3 1) 0)
      if r.opCulled op then s'.commit s r { r with leaf := next } tc p
      else
        let h : Hit := { t := 0, u := 0, v := 0, prim := le b 4 4, geom := le b 0 3, kind := 3, inst := r.frame.inst }
        let c : Callout := { kind := 2, cand := h, user := le b 8 8, tLo := 0, tHi := 0, gLo := 0, gHi := 0, lc := none,
                             reply := none, fault := false }
        s'.commit s r { r with leaf := next, call := some c } tc p

/-- The place of a new request in the order in which the pipelines of a cluster ask for triangle tests (R191). -/
def State.leafSeq (s : State) (tc : Nat) : Nat :=
  s.rays.foldl (fun n r => match r.leaf with | some l => if r.tc == tc then max n (l.seq + 1) else n | none => n) 1

/-- One entry popped off the stack (R193). -/
def State.walkPop (s : State) (r : Ray) (tc p : Nat) (e : SEntry) (rest : List SEntry) : State :=
  if e.exit then s.commit s r { r with stack := rest, frames := r.frames.drop 1 } tc p
  else if ltF fp32 r.bestT e.te then s.commit s r { r with stack := rest } tc p
  else if e.bad ≠ 0 then s.walkFail r tc e.bad
  else if e.treelet ≠ r.treelet then s.rebin r tc e
  else match e.typ with
    | 1 => s.walkInner r tc p e rest
    | 2 => s.commit s r { r with stack := rest, leaf := some { entry := e, blk := 0, idx := 0, bytes := [], seq := s.leafSeq tc } } tc p
    | 3 =>
      match s.rayStage r with
      | some t =>
        if (s.travOf t).isect = 0xFFFF then s.walkFail r tc 0x0B
        else s.commit s r { r with stack := rest, leaf := some { entry := e, blk := 0, idx := 0, bytes := [], seq := 0 } } tc p
      | none => s
    | 4 => s.walkNeural r tc p e rest
    | _ => s.walkInstance r tc p e rest

/-- NODE_STEP: a pipeline takes one step of a ray's walk (R193). -/
def State.nodeStep (s : State) (tc p id : Nat) : State :=
  match s.ray id with
  | none => s
  | some r =>
    let idle := match r.leaf with | some l => l.entry.typ != 3 && r.loc != .batch | none => r.stack.isEmpty && !r.walkDone
    if r.query || !s.mayStep r tc p || r.call.isSome || r.neural.isSome || (r.started && idle) then s
    else match s.resume r tc with
      | (false, s) => s
      | (true, s) =>
        if !r.started then s.walkStart r tc p
        else match r.leaf with
          | some l =>
            if l.entry.typ = 3 then s.walkProc r tc p l
            else s.modRay id (fun _ => { r with loc := .ctx, tc := tc, pipe := p, leaf := some { l with seq := s.leafSeq tc } })
          | none =>
            match r.stack with
            | e :: rest => s.walkPop r tc p e rest
            | [] => if r.walkDone then s.finishRay r r.record [] false else s

/-! ### Triangles (R191, R201) -/

/-- The candidate of a triangle of the block at hand, if the ray hits it and it is not culled. -/
def Ray.triCand (r : Ray) (b : List Byte) (raw : Bool) (i : Nat) (op : Bool) : Option Hit :=
  if r.opCulled op then none
  else
    let v := fun k => blockVertex b raw (blockIndex b raw i k)
    match triTest r.frame (v 0) (v 1) (v 2) with
    | none => none
    | some h =>
      let front := h.front != r.frame.flip
      if !r.frame.noCull && ((bit r.flags 3 && !front) || (bit r.flags 4 && front)) then none
      else some { t := h.t, u := h.u, v := h.v, prim := (le b 0x14 4 + i) % 2 ^ 32, geom := le b 0x18 3,
                  kind := if h.front != r.frame.flip then 1 else 2, inst := r.frame.inst }

/-- The leaf after triangle `i` of its block. -/
def Leaf.after (l : Leaf) (count : Nat) : Option Leaf :=
  if l.idx + 1 < count then some { l with idx := l.idx + 1 }
  else if l.blk < l.entry.count then some { l with blk := l.blk + 1, idx := 0, bytes := [] }
  else none

/-- Whether a ray asks the intersection block of a cluster for a triangle test, and in which place (R191). -/
def State.asksTest (s : State) (tc : Nat) (r : Ray) : Option Nat :=
  match r.leaf with
  | some l =>
    if r.query || l.entry.typ ≠ 2 || r.loc != .ctx || r.tc != tc || r.call.isSome || !s.mayWork (tcUnit tc) r.cls || s.stageBlocked r
    then none else some l.seq
  | none => none

/-- Whether no ray asked before one in place `n`. -/
def State.firstTest (s : State) (tc n : Nat) : Bool := s.rays.all (fun r => match s.asksTest tc r with | some m => decide (n ≤ m) | none => true)

/-- TRIANGLE_TEST: the intersection block tests the next triangle of the ray that asked first, and passes the candidate to hit selection
(R191, R201, R208). -/
def State.triangleTest (s : State) (tc id : Nat) : State :=
  match s.ray id with
  | none => s
  | some r =>
    match r.leaf with
    | none => s
    | some l =>
      if (s.asksTest tc r).isNone || !s.firstTest tc l.seq then s
      else
        let (slot, size) := s.slotOf r
        let n := if l.entry.raw then 512 else 256
        let off := l.entry.offset * 64 + l.blk * n
        if l.bytes.isEmpty && off + n ≤ size && s.tsBad tc slot off n then s.walkUnc r tc
        else
        let (got, s) := if !l.bytes.isEmpty then (some l.bytes, s)
          else if off + n > size then (some [], s) else s.ncRead tc 4 slot off n
        match got with
        | none => s
        | some b =>
          if b.isEmpty then s.walkFail r tc 2
          else if !blockOk b l.entry.raw then s.walkFail r tc 5
          else
            let op := r.opaque_ (bit (le b 0x12 2) l.idx)
            let s := if r.opCulled op then s else s.perf 4 (tcUnit tc) (some r.cls) 1
            let r1 := { r with leaf := Leaf.after { l with bytes := b } (le b 0x10 1) }
            match r.triCand b l.entry.raw l.idx op with
            | none => s.commit s r r1 tc r.pipe
            | some h =>
              if !hitBetter r.tmin r.tmax r.bestT r.best h then s.commit s r r1 tc r.pipe
              else
                let prog := match s.rayStage r with | some t => (s.travOf t).anyhit | none => 0xFFFF
                if op || prog = 0xFFFF then s.commit s r (r1.takeHit h false) tc r.pipe
                else
                  let c : Callout := { kind := 1, cand := h, user := 0, tLo := 0, tHi := 0, gLo := 0, gHi := 0, lc := none,
                                       reply := none, fault := false }
                  s.commit s r { r1 with call := some c } tc r.pipe

/-! ### Callouts (R213–R219) -/

/-- The callout record of a suspended ray (Table 62). -/
def Ray.calloutBytes (r : Ray) (c : Callout) : List Byte :=
  let f := r.frame
  let fl := fun (l : List Nat) => l.flatMap (leBytes 4)
  leBytes 4 r.id ++ leBytes 1 c.kind ++ leBytes 1 (r.frames.length - 1) ++ leBytes 2 r.flags ++ leBytes 4 r.rayId ++
  leBytes 4 (le r.rcd 0x28 4) ++ fl f.o ++ leBytes 4 r.tmin ++ fl f.d ++ leBytes 4 r.bestT ++ (r.rcd.drop 0x30).take 8 ++
  leBytes 8 c.user ++ hitBytes c.cand stOk r.rayId ++ leBytes 4 c.tLo ++ leBytes 4 c.tHi ++ leBytes 4 c.gLo ++ leBytes 4 c.gHi ++
  List.replicate 16 0

/-- The program of a callout kind (Table 27). -/
def TravCfg.prog (t : TravCfg) (kind : Nat) : Nat := match kind with | 1 => t.anyhit | 2 => t.isect | _ => t.refine

/-- A lane core as a unit. -/
def lcUnit (l : Nat) : EUnit := .lc ⟨l % 16, Nat.mod_lt _ (by decide)⟩

/-- The lane core that takes a callout: in service, fewer callouts waiting, LC(2n) on a tie (R213). -/
def State.calloutCore (s : State) (tg : Nat) : Option Nat :=
  let waiting := fun l => (s.callouts.filter (fun c => c.lc == l)).length
  leastBy (fun a b => waiting a < waiting b) ([2 * tg, 2 * tg + 1].filter (fun l => s.inService (lcUnit l)))

/-- CALLOUT_POST: the ray is suspended and its callout record posted to a lane core of the group (R213, R214, R219, R367). -/
def State.calloutPost (s : State) (tc id : Nat) : State :=
  match s.ray id with
  | none => s
  | some r =>
    match r.call, s.rayStage r with
    | some c, some t =>
      let fresh := r.loc == .ctx
      if r.tc != tc || c.lc.isSome || !(fresh || r.loc == .callout) || !s.mayWork (tcUnit tc) r.cls then s
      else if fresh && s.suspendedIn tc ≥ 512 then s
      else match s.calloutCore (tc / 4) with
        | none => s.failRay r stFenced 0x12 (tcUnit tc) true
        | some l =>
          let keep := if fresh then s.stateAccess r true else []
          if (s.callouts.filter (fun x => x.lc == l)).length ≥ 256 then s
          else
            match s.spillFails r tc keep, s.spcAccess tc 4 keep with
            | some s, _ => s
            | none, (false, s) => s
            | none, (true, s) =>
              let rc : CallRec := { lc := l, tc := tc, ray := id, kind := c.kind, prog := (s.travOf t).prog c.kind, disp := r.disp,
                                    bytes := r.calloutBytes c }
              let s := (s.modRay id (fun r => { r with
                loc := .callout, pipe := 4, call := some { c with lc := some l }, lines := if fresh then r.stateLines else r.lines }))
              State.perf { s with callouts := s.callouts ++ [rc] } 5 (tcUnit tc) (some r.cls) 1
    | _, _ => s

/-- CALLOUT_REPLY: the reply is applied to the candidate, and the ray resumes or ends (R216–R218). -/
def State.calloutReply (s : State) (tc id : Nat) : State :=
  match s.ray id with
  | none => s
  | some r =>
    match r.call with
    | none => s
    | some c =>
      match c.reply with
      | none => s
      | some (code, t, u, v) =>
        if r.loc != .callout || r.tc != tc then s
        else if c.fault then s.failRay r (if t = 0 then stProg else t) code (lcUnit (c.lc.getD 0)) true
        else if code ≥ 3 || (c.kind != 1 && [t, u, v].any (isNan fp32)) then s.failRay r stProg 0x0C (tcUnit tc) true
        else
          let r0 := { r with call := none, loc := .batch, pipe := 4 }
          let h : Hit := if c.kind = 1 then c.cand else { c.cand with t := t, u := u, v := v }
          let r' :=
            if code = 0 then r0
            else if c.kind = 1 then r0.takeHit h (code == 2)
            else if c.kind = 3 && !(leF fp32 c.tLo t && leF fp32 t c.tHi) then r0
            else r0.offer h (code == 2)
          let s := s.modRay id (fun _ => r')
          if r'.walkDone then s.finishRay r' r'.record [] false else s

/-! ### Neural evaluations -/

/-- NEURAL_BATCH_TIMEOUT: an open batch closes BATCH_TIMEOUT clocks after its first sample (R225). -/
def State.neuralTimeout (s : State) (tg b : Nat) : State :=
  match s.nbatches.find? (fun x => x.id == b && x.tg == tg && !x.closed) with
  | some _ => s.neuralClose b
  | none => s

/-- The bracket of a leaf (R224): the first pair of samples with g > 0 before and not g > 0 after. -/
def bracketOf : List (Nat × Nat) → Option (Nat × Nat × Nat × Nat)
  | (t0, g0) :: (t1, g1) :: r => if above0 g0 && !above0 g1 then some (t0, t1, g0, g1) else bracketOf ((t1, g1) :: r)
  | _ => none

/-- The candidate that ends a bisection (R226, R227). -/
def neuralHit (r : Ray) (b : List Byte) (lo hi g : Nat) : Hit :=
  { t := hi, u := fAdd fp32 0 hi (fNeg fp32 lo), v := g, prim := le b 0x0C 4, geom := le b 9 3, kind := 4, inst := r.frame.inst }

/-- A ray resumes after its leaf (R192, R213); a finished walk ends. -/
def State.neuralResume (s : State) (r : Ray) : State :=
  let r' := { r with neural := none, leaf := none, loc := .batch, pipe := 4 }
  let s := s.modRay r.id (fun _ => r')
  if r'.walkDone then s.finishRay r' r'.record [] false else s

/-- The next bisection step, or the candidate when none is left (R226). -/
def State.neuralRefine (s : State) (r : Ray) (b : List Byte) (lo hi g steps : Nat) : State :=
  let mid := midOf lo hi
  if steps = 0 || eqF fp32 mid lo || eqF fp32 mid hi then s.neuralResume ({ r with leaf := none }.offer (neuralHit r b lo hi g) false)
  else
    let n : Neural := { desc := 0, n := 1, t0 := 0, t1 := 0, h := 0, refining := true, lo := lo, hi := hi, gHi := g,
                        steps := steps - 1, left := 1 }
    let s := s.modRay r.id (fun r => { r with neural := some n })
    s.addSample (r.tc / 4) (le b 0x10 8) r mid

/-- Every sample a ray waited for has been evaluated: bracket, refinement, REFINE callout or no candidate (R224, R226). -/
def State.neuralSettle (s : State) (r : Ray) (n : Neural) : State :=
  match r.leaf with
  | none => s
  | some l =>
    let b := l.bytes
    let w := s.memGet (le b 0x10 8) (weightBytes b)
    let g := neuralField r.frame b w
    if n.refining then
      let mid := midOf n.lo n.hi
      let gm := g mid
      if above0 gm then s.neuralRefine r b mid n.hi n.gHi n.steps else s.neuralRefine r b n.lo mid gm n.steps
    else
      let ts := (List.range n.n).map (sampleAt n.t0 n.t1 n.h n.n)
      match bracketOf (ts.map (fun t => (t, g t))) with
      | none => s.neuralResume r
      | some (lo, hi, gl, gh) =>
        let refine := match s.rayStage r with | some t => (s.travOf t).refine | none => 0xFFFF
        if refine = 0xFFFF then s.neuralRefine r b lo hi gh (le b 1 1)
        else
          let h : Hit := { t := 0, u := 0, v := 0, prim := le b 0x0C 4, geom := le b 9 3, kind := 4, inst := r.frame.inst }
          let c : Callout := { kind := 3, cand := h, user := n.desc, tLo := lo, tHi := hi, gLo := gl, gHi := gh, lc := none,
                               reply := none, fault := false }
          s.modRay r.id (fun r => { r with neural := none, leaf := none, call := some c, loc := .callout })

/-- The bytes of the weight block that the samples of a batch need. -/
def State.neuralBytes (s : State) (x : NBatch) : Nat :=
  x.samples.foldl (fun n y => match (s.ray y.ray).bind (fun r => r.leaf) with | some l => max n (weightBytes l.bytes) | none => n) 0

/-- The lowest class of the rays of a batch. -/
def State.neuralCls (s : State) (x : NBatch) : Nat :=
  x.samples.foldl (fun m y => match s.ray y.ray with | some r => min m r.cls | none => m) 3

/-- Whether the unit that evaluates a batch can take it: a quadrant between layers, which holds no partial sums of a MATMUL batch (R351); a
lane core whose group matrix unit is free (R400).  A batch whose place is no longer in service, or whose classes it cannot run now, waits
or fails as R648 sets. -/
def State.neuralTurn (s : State) (x : NBatch) : Bool :=
  let cls := s.neuralCls x
  match x.quad with
  | some q =>
    s.mayWork (.quad ⟨q % 8, Nat.mod_lt _ (by decide)⟩) cls &&
    s.mbatches.all (fun m => m.arr != q / 4 || m.slices.isEmpty ||
      (match (s.disp m.disp).bind (fun d => s.stageOf d m.stage) with | some t => !bit t.quadMask q | none => true))
  | none => x.lc == 99 || (s.mayWork (.lc ⟨x.lc % 16, Nat.mod_lt _ (by decide)⟩) cls &&
      (match s.lcs[x.lc]? with | some l => l.mma.isNone | none => true))

/-- NEURAL_BATCH_DONE: the samples of a closed batch have been evaluated, or its weight block could not be read (R147, R224). -/
def State.neuralDone (s : State) (tg : Fin 8) (b : Nat) (o : ReadOutcome) : State :=
  match s.nbatches.find? (fun x => x.id == b && x.tg == tg.val && x.closed) with
  | none => s
  | some x =>
    let n := s.neuralBytes x
    if !s.readable (.neural tg b) x.weights n o || !s.neuralTurn x then s
    else
      let cls := s.neuralCls x
      let s := { s with nbatches := s.nbatches.filter (fun y => y.id != b) }
      let s := s.readEnds (.neural tg b) cls x.weights n o
      let ids := dedup (x.samples.map (fun y => y.ray))
      ids.foldl (fun s id =>
        match s.ray id with
        | none => s
        | some r =>
          match r.neural with
          | none => s
          | some n =>
            if r.loc != .neural then s
            else if x.quad.isNone && x.lc == 99 then s.failRay r stFenced 0x12 (tcUnit r.tc) true
            else match o with
              | .abort => s.failRay r stPage 0x10 (tcUnit r.tc) true
              | .unc => s.failRay r stUnc 0x11 (tcUnit r.tc) true
              | .ok =>
                let k := (x.samples.filter (fun y => y.ray == id)).length
                let dims := match r.leaf with | some l => neuralDims l.bytes | none => []
                let macs := k * dims.foldl (fun m d => m + d.1 * d.2) 0
                let s := s.perf 6 (tcUnit r.tc) (some r.cls) k
                let s := match x.quad with
                  | some q =>
                    (s.perfMac (.quad ⟨q % 8, Nat.mod_lt _ (by decide)⟩) (some r.cls) macs).tally2 (F.mxMacLo (q / 4)) (F.mxMacHi (q / 4)) macs
                  | none => s.perfMac (lcUnit x.lc) (some r.cls) macs
                if n.left ≤ k then s.neuralSettle r n
                else s.modRay id (fun r => { r with neural := some { n with left := n.left - k } })) s

end Sys2Proof.Machine
end

