-- ==== Sys2Proof/Machine/LaneOps.lean ====
section
/-! DEFINITION. What lane-core instructions share: a group's memory spaces, program faults and the end of lanes, divergence, issue
("Lane Core Execution Model"). -/

namespace Sys2Proof.Machine

/-! ### Groups and programs -/

/-- The group with an id. -/
def State.group (s : State) (id : Nat) : Option Group := s.groups.find? (fun g => g.id == id)

/-- The state with one group changed. -/
def State.modGroup (s : State) (id : Nat) (f : Group → Group) : State :=
  { s with groups := s.groups.map (fun g => if g.id == id then f g else g) }

/-- The resident group in a slot of a lane core; a preempted group gives its slot up until it is restored. -/
def State.groupAt (s : State) (lc slot : Nat) : Option Group :=
  s.groups.find? (fun g => g.lc == lc && g.slot == some slot && !g.saved)

/-- A program of the active image. -/
def State.progOf (s : State) (p : Nat) : Prog :=
  ((s.active.bind (fun im => im.progs[p]?))).getD { codeAddr := 0, codeLen := 0, regs := 16, split := 0, maxGroups := 1, entries := [] }

/-- A lane core. -/
def State.lcore (s : State) (i : Nat) : LaneCore := (s.lcs[i]?).getD LaneCore.init

/-- Local store bytes of a split and the frame of a program (R376). -/
def localBytes (split : Nat) : Nat := match split with | 0 => 524288 | 1 => 393216 | 2 => 262144 | _ => 131072
def Prog.frame (p : Prog) : Nat := 256 * (localBytes p.split / (256 * max 1 p.maxGroups))

/-! ### Local store and overflow slots (R379, R380) -/

/-- The LC_OVERFLOW regions of the active image, in region order. -/
def State.ovfRegions (s : State) : List Region := s.regionsOf 5

/-- V: the bytes of an overflow slot. -/
def State.ovfBytes (s : State) : Nat := 2048 * ((s.ovfRegions.foldl (fun n r => n + 65536 * r.size) 0) / 2097152)

/-- The bytes of local address space that a group has: its frame without the top 256 B, then its overflow slot after 2 KiB. -/
def State.localLimit (s : State) (g : Group) : Nat := (g.frameLen - 256) + (s.ovfBytes - 2048)

/-- The overflow-slot byte at a local address beyond the frame. -/
def State.localOvf (s : State) (g : Group) (x : Nat) : Nat :=
  spanAddr s.ovfRegions ((64 * g.lc + g.slot.getD 0) * s.ovfBytes + 2048 + (x - (g.frameLen - 256)))

/-! ### The divergence stack in memory (R379, R385, R386)

The core keeps the top 16 entries.  Of the entries that have spilled, numbered from the bottom of the stack, 0 to 31 stand in the top
256 B of the frame and 32 to 239 in the first 2 KiB of the overflow slot, 8 B each: mask, then code offset (log entry 85). -/

/-- The first byte of spilled entry `j`: in the local store, or in the Shared Field. -/
def State.divPlace (s : State) (g : Group) (j : Nat) : Nat :=
  if j < 32 then g.frame + g.frameLen - 256 + 8 * j else spanAddr s.ovfRegions ((64 * g.lc + g.slot.getD 0) * s.ovfBytes + 8 * (j - 32))

/-- Spilled entry `j`. -/
def State.divRead (s : State) (g : Group) (j : Nat) : Nat × Nat :=
  let bs := if j < 32 then bytesAt (s.lcore g.lc).store (s.divPlace g j) 8 else s.sfGet (s.divPlace g j) 8
  (leVal (bs.take 4), leVal (bs.drop 4))

/-- Spilled entry `j` written. -/
def State.divWrite (s : State) (g : Group) (j : Nat) (e : Nat × Nat) : State :=
  let bs := leBytes 4 e.1 ++ leBytes 4 e.2
  if j < 32 then { s with lcs := modifyAt (fun l => { l with store := putBytes l.store (s.divPlace g j) bs }) g.lc s.lcs }
  else s.sfStore (s.divPlace g j) bs

/-- The whole divergence stack of a group, top first. -/
def State.divStack (s : State) (g : Group) : List (Nat × Nat) :=
  g.divs ++ (List.range g.spilled).map (fun i => s.divRead g (g.spilled - 1 - i))

/-- One entry pushed; the lowest of the 16 that the core keeps spills. -/
def State.divPush (s : State) (gid : Nat) (e : Nat × Nat) : State :=
  match s.group gid with
  | none => s
  | some g =>
    if g.divs.length < 16 then s.modGroup gid (fun g => { g with divs := e :: g.divs })
    else
      let s := match g.divs.getLast? with | some x => s.divWrite g g.spilled x | none => s
      s.modGroup gid (fun g => { g with divs := e :: g.divs.dropLast, spilled := g.spilled + 1 })

/-- Entries pushed, the last of the list first. -/
def State.divPushAll (s : State) (gid : Nat) (l : List (Nat × Nat)) : State := l.foldr (fun e s => s.divPush gid e) s

/-- The top entry popped; the entry that spilled last comes back to the core. -/
def State.divPop (s : State) (gid : Nat) : State :=
  match s.group gid with
  | none => s
  | some g =>
    if g.spilled = 0 then s.modGroup gid (fun g => { g with divs := g.divs.drop 1 })
    else
      let x := s.divRead g (g.spilled - 1)
      s.modGroup gid (fun g => { g with divs := g.divs.drop 1 ++ [x], spilled := g.spilled - 1 })

/-- Every mask of a group's stack cut to `keep`: lanes leave every mask as they exit (R385). -/
def State.divKeep (s : State) (gid : Nat) (keep : Nat → Nat) : State :=
  match s.group gid with
  | none => s
  | some g =>
    let s := (List.range g.spilled).foldl (fun s j => let e := s.divRead g j; s.divWrite g j (keep e.1, e.2)) s
    s.modGroup gid (fun g => { g with divs := g.divs.map (fun e => (keep e.1, e.2)) })

/-- `n` bytes of LOCAL at address `x`. -/
def State.localGet (s : State) (g : Group) (x n : Nat) : List Byte :=
  if x + n ≤ g.frameLen - 256 then bytesAt (s.lcore g.lc).store (g.frame + x) n
  else (List.range n).map (fun i =>
    if x + i < g.frameLen - 256 then byteAt (s.lcore g.lc).store (g.frame + x + i) else byteAt s.sf (s.localOvf g (x + i)))

/-- LOCAL written from address `x` on. -/
def State.localPut (s : State) (g : Group) (x : Nat) (bs : List Byte) : State :=
  let k := (g.frameLen - 256) - x
  let a := bs.take k
  let s : State := if a.isEmpty then s else { s with lcs := modifyAt (fun l => { l with store := putBytes l.store (g.frame + x) a }) g.lc s.lcs }
  ((bs.drop k).zip (List.range (bs.length - k))).foldl (fun s e => s.sfStore (s.localOvf g (x + k + e.2)) [e.1]) s

/-! ### Spaces (R388, Table 101) -/

/-- The Shared Field address of the output tile place that TOUT reserved, until the tile is emitted. -/
def State.toutAddr (s : State) (g : Group) : Option Nat :=
  match if g.tileDone then none else g.out, s.disp g.disp, s.stageFor g.disp g.stage with
  | some slot, some d, some t => (s.queueRec d t.out0).map (fun r => s.queueAddr r slot)
  | _, _, _ => none

/-- Whether a program may touch `n` bytes of the Shared Field at `a`: a region of R70, or the group's own output tile place. -/
def State.fieldOk (s : State) (g : Group) (a n : Nat) : Bool :=
  s.sfInRegion [4, 5, 7] a n || (match s.toutAddr g with | some x => x ≤ a && a + n ≤ x + 65536 | none => false)

/-- The cause that an access of `n` bytes raises, 0 for none; aligned to `al`. -/
def State.accessFault (s : State) (g : Group) (space a n al : Nat) : Nat :=
  if a % al ≠ 0 then 0x44
  else match space with
    | 1 => if s.fieldOk g a n then 0 else 0x46
    | 2 => if a + n ≤ s.localLimit g then 0 else 0x45
    | _ => 0

/-- IN_SIZE of a lane: the bytes of its input window (R368). -/
def Group.inSize (g : Group) (l : Nat) : Nat :=
  if g.launch = 3 then 65536 else match g.lanes[l]? with | some x => x.bytes.length | none => 0

/-- `n` bytes read by lane `l` in a space. -/
def State.spaceGet (s : State) (g : Group) (l space a n : Nat) : List Byte :=
  match space with
  | 0 => s.memGet a n
  | 1 => s.sfGet a n
  | 2 => s.localGet g a n
  | _ =>
    if g.launch = 3 then (List.range n).map (fun i => if a + i < 65536 then byteAt s.sf (g.tile + a + i) else 0)
    else
      let b := match g.lanes[l]? with | some x => x.bytes | none => []
      (List.range n).map (fun i => (b[a + i]?).getD 0)

/-! ### The cache part (R391, R504) -/

/-- The lines that the cache part of a lane core holds at its split. -/
def LaneCore.lines (l : LaneCore) : Nat := (524288 - localBytes l.split) / 128

/-- Whether the cache part holds the line of an address. -/
def LaneCore.hits (l : LaneCore) (a : Nat) : Bool := l.cache.any (fun c => c.1 == a / 128)

/-- `n` bytes of GLOBAL as a load of a lane core reads them: from the line that its cache part holds, or from memory. -/
def State.loadGet (s : State) (lc a n : Nat) : List Byte :=
  match (s.lcore lc).cache.find? (fun c => c.1 == a / 128) with
  | some c => (List.range n).map (fun i => (c.2[a % 128 + i]?).getD 0)
  | none => s.memGet a n

/-- A line that a load has missed arrives: it is allocated, the line held longest making room; a core without a cache part only reads
the sectors that the load touches, `l`. -/
def State.fillLine (s : State) (lc cls line : Nat) (l : List Nat) : State :=
  if (s.lcore lc).lines = 0 then l.foldl (fun s x => s.carry (48 + lc) cls (64 * x) 64 false false) s
  else
    let s := s.carry (48 + lc) cls (128 * line) 128 false false
    let bs := s.memGet (128 * line) 128
    { s with lcs := modifyAt (fun c => { c with cache := c.cache.drop (if c.cache.length ≥ c.lines then 1 else 0) ++ [(line, bs)] }) lc s.lcs }

/-- The lines of the addresses that a load has missed arrive. -/
def State.fillLines (s : State) (lc cls : Nat) (addrs : List Nat) : State :=
  (dedup (addrs.map (· / 128))).foldl (fun s line => s.fillLine lc cls line (dedup ((addrs.filter (fun a => a / 128 == line)).map (· / 64)))) s

/-- Bytes written in a space. -/
def State.spacePut (s : State) (g : Group) (space a : Nat) (bs : List Byte) : State :=
  match space with
  | 0 => s.memPut a bs
  | 1 => s.sfStore a bs
  | 2 => s.localPut g a bs
  | _ => s

/-- The Shared Field lines that a group's lanes touch, counted once each (Table 152a). -/
def State.groupTouch (s : State) (g : Group) (space : Nat) (l : List (Nat × Nat)) : State :=
  if space = 1 then s.perf 9 (lcUnit g.lc) (some g.cls) (dedup (l.flatMap (fun e => linesOf e.1 e.2))).length else s

/-! ### Locks held (R402, R407) -/

/-- A lane's holder identity. -/
def State.identity (s : State) (g : Group) (l : Nat) : Nat :=
  2 ^ 31 + (if s.integ.plkPorts = 0 then 0 else s.get F.plkNode) * 2 ^ 15 + g.lc * 2 ^ 11 + g.slot.getD 0 * 2 ^ 5 + l

/-- A lock word. -/
def State.lockWord (s : State) (space a : Nat) : Nat := if space = 0 then s.memNat a 4 else leVal (s.sfGet a 4)

/-- A lock word written. -/
def State.putLock (s : State) (space a v : Nat) : State := if space = 0 then s.memPut a (leBytes 4 v) else s.sfStore a (leBytes 4 v)

/-- The lock words that lanes of a mask hold are written with 0 and counted (R407). -/
def State.releaseLocks (s : State) (g : Group) (mask : Nat) : State :=
  let (gone, keep) := g.locks.partition (fun k => bit mask k.lane)
  let s := gone.foldl (fun s k => (s.putLock k.space k.addr 0).bump (F.lcLockReleased g.lc) 1) s
  s.modGroup g.id (fun g => { g with locks := keep })

/-! ### Ending items (R369–R373) -/

/-- A lane is done with its item: its input entry leaves its queue (R373). -/
def State.laneDone (s : State) (gid l : Nat) : State :=
  match s.group gid with
  | none => s
  | some g =>
    let s := s.modGroup gid (fun g => { g with lanes := modifyAt (fun x => { x with ended := true, entry := none }) l g.lanes })
    match g.lanes[l]?, s.stageFor g.disp g.stage with
    | some x, some t =>
      match x.entry with
      | some pos => s.freeEntry g.disp t.input pos
      | none => s
    | _, _ => s

/-- A callout's reply reaches its ray: code with T, U and V, or a failure with its cause (R216–R218, R449). -/
def State.replyTo (s : State) (ray : Nat) (fault : Bool) (code t u v : Nat) : State :=
  s.modRay ray (fun r => { r with call := r.call.map (fun c => { c with reply := some (code, t, u, v), fault := fault }) })

/-- A lane's item fails with a status in unit `u`, if it has not ended; a callout's ray fails with a cause of Table 68 (R218, R414, R449). -/
def State.laneFailsIn (s : State) (u : EUnit) (g : Group) (l status rayCause : Nat) : State :=
  match g.lanes[l]? with
  | none => s
  | some x =>
    if x.ended then s
    else if g.launch ≥ 4 then (s.replyTo x.ray true rayCause 0 0 0).laneDone g.id l
    else (s.failItem g.disp x.item status (some u)).laneDone g.id l

/-- A lane's item fails in its lane core. -/
def State.laneFails (s : State) (g : Group) (l status rayCause : Nat) : State := s.laneFailsIn (lcUnit g.lc) g l status rayCause

/-- The vectors of a group's input tile that are not marked FAILED. -/
def State.tileLive (s : State) (g : Group) : List Nat :=
  let bad := leVal (s.sfGet (g.tile + 0x20) 32)
  (List.range g.tileCount).filter (fun v => !bit bad v)

/-- A tile launch is done with its input tile. -/
def State.tileDone (s : State) (gid : Nat) : State :=
  match s.group gid with
  | none => s
  | some g =>
    let s := s.modGroup gid (fun g => { g with tileDone := true })
    match s.stageFor g.disp g.stage with
    | some t => s.freeEntry g.disp t.input g.tilePos
    | none => s

/-- Every item of a group's input tile that is not marked FAILED fails in unit `u` (R371, R413). -/
def State.tileFailsIn (s : State) (u : EUnit) (g : Group) (status : Nat) : State :=
  if g.tileDone then s
  else ((s.tileLive g).foldl (fun s v => s.failItem g.disp (g.tileFirst + v) status (some u)) s).tileDone g.id

/-- Every item of a group's input tile fails in its lane core. -/
def State.tileFails (s : State) (g : Group) (status : Nat) : State := s.tileFailsIn (lcUnit g.lc) g status

/-! ### Asynchronous copies (R393–R396) -/

/-- The GLOBAL side of a copy, if it has one: its address and whether the copy writes there. -/
def Copy.global (c : Copy) : Option (Nat × Bool) :=
  if c.srcSpace = 0 then some (c.src, false) else if c.dstSpace = 0 then some (c.dst, true) else none

/-- The bytes of a copy move in ascending order, those of GLOBAL through the memory ports. -/
def State.copyMove (s : State) (g : Group) (c : Copy) : State :=
  let s := match c.global with | some (a, w) => s.carry (48 + g.lc) g.cls a c.len w false | none => s
  let bs := if c.srcSpace = 2 then s.localGet g c.src c.len else s.spaceGet g 0 c.srcSpace c.src c.len
  let s := if c.srcSpace = 1 then s.groupTouch g 1 [(c.src, c.len)] else if c.dstSpace = 1 then s.groupTouch g 1 [(c.dst, c.len)] else s
  s.spacePut g c.dstSpace c.dst bs

/-! ### The end of lanes and groups -/

/-- A group whose last lane has exited: a tile without an emit fails or, in a stage without an output queue, ends (R370, R371); copies
still in flight are performed; its slot, registers and frame are free again. -/
def State.groupEnd (s : State) (g : Group) : State :=
  let s :=
    if g.launch = 3 ∧ !g.tileDone then
      match s.stageFor g.disp g.stage with
      | some t =>
        if t.out0 = 255 then
          ((s.tileLive g).foldl (fun s v => s.endItem g.disp (g.tileFirst + v) (lcUnit g.lc)) s).tileDone g.id
        else s.tileFails g stProg
      | none => s
    else s
  let s := g.copies.foldl (fun s c => s.copyMove g c) s
  let gone := fun (w : FWait) => match w.acc with
    | .lane l k _ => l.val == g.lc && g.slot == some k.val
    | .copy l k _ => l.val == g.lc && g.slot == some k.val
    | .code l k => l.val == g.lc && g.slot == some k.val
    | _ => false
  State.flushRays { s with groups := s.groups.filter (fun x => x.id != g.id), fwaits := s.fwaits.filter (fun w => !gone w) }

/-- What a group waits on once only the lanes that `keep` holds of wait: nothing where no lane is left that waits. -/
def GWait.keep (x : GWait) (keep : Nat → Bool) (active : Nat) : GWait :=
  match x with
  | .load l => let a := l.addrs.filter (fun e => keep e.1); if a.isEmpty then .none else .load { l with addrs := a }
  | .locks sp t w => let w := w.filter (fun e => keep e.1); if w.isEmpty then .none else .locks sp t w
  | x => if active = 0 then .none else x

/-- Lanes leave a group's masks and what it waits on, and give up their locks (R385, R407, R413). -/
def State.dropLanes (s : State) (gid mask : Nat) : State :=
  match s.group gid with
  | none => s
  | some g =>
    let keep := fun (m : Nat) => m &&& (0xFFFFFFFF ^^^ mask)
    ((s.releaseLocks g mask).modGroup gid (fun g =>
      { g with live := keep g.live, active := keep g.active,
               wait := if mask = 0 then g.wait else g.wait.keep (fun l => !bit mask l) (keep g.active) })).divKeep gid keep

/-- The item status of a program fault (Table 105). -/
def causeStatus (cause : Nat) : Nat := if cause = 0x4C then stPage else if cause = 0x4D then stUnc else stProg

/-- Program faults of an instruction at code offset `pc`, by lane and cause: counted, the lowest lane's captured, the items failed,
the lanes ended (R413–R415). -/
def State.laneFaults (s : State) (gid pc : Nat) (l : List (Nat × Nat)) : State :=
  match s.group gid, leastBy (fun (a b : Nat × Nat) => a.1 < b.1) l with
  | some g, some (lane, cause) =>
    let n := g.lc
    let s := (s.bump (F.lcProgFaults n) l.length).capture 9 (some (lcUnit n)) 0
    let item := if g.launch = 3 then g.tileFirst else match g.lanes[lane]? with | some x => x.item | none => 0
    let s := if s.flag (F.lcFailInfoValid n) then s
      else (s.setAll [(F.lcFailInfoValid n, 1), (F.lcFailInfoSlot n, g.slot.getD 0), (F.lcFailInfoLane n, lane),
        (F.lcFailInfoCause n, cause), (F.lcFailInfoProg n, g.prog), (F.lcFailPc n, pc), (F.lcFailItem n, item)]).raise intFault
    if g.launch = 3 then (s.tileFails g (causeStatus cause)).dropLanes gid 0xFFFFFFFF
    else (l.foldl (fun s e => s.laneFails g e.1 (causeStatus e.2) 0x0D) s).dropLanes gid (maskOf (l.map (fun e => e.1)))
  | _, _ => s

/-- A group whose active lanes are gone takes up the next entry of its divergence stack, one without live lanes ends, and one whose
code offset has reached CODE_LEN raises PC_RANGE (R385, R419). -/
def State.groupSettle (s : State) (gid : Nat) : Nat → State
  | 0 => s
  | n + 1 =>
    match s.group gid with
    | none => s
    | some g =>
      if g.live = 0 then s.groupEnd g
      else if g.active = 0 then
        match g.divs with
        | e :: _ => ((s.divPop gid).modGroup gid (fun g => { g with active := e.1, pc := e.2 })).groupSettle gid n
        | [] => s
      else if g.pc ≥ (s.progOf g.prog).codeLen then
        (s.laneFaults gid g.pc ((lanesOf g.active).map (fun l => (l, 0x4B)))).groupSettle gid n
      else s

/-- After an instruction at `pc`: its faults, then what follows from the lanes that are left. -/
def State.finish (s : State) (gid pc : Nat) (faults : List (Nat × Nat)) : State := (s.laneFaults gid pc faults).groupSettle gid 600

/-- Lanes that read an uncorrectable line: their items fail with FAIL_UNC in the unit that held it, and they end as if they had exited; in a
tile launch the whole group does (R655, R758).  It is no program fault of Table 105 (log entry 86). -/
def State.laneLost (s : State) (gid : Nat) (l : List (Nat × EUnit)) : State :=
  match s.group gid, l with
  | some g, (_, u) :: _ =>
    if g.launch = 3 then (s.tileFailsIn u g stUnc).dropLanes gid 0xFFFFFFFF
    else (l.foldl (fun s e => s.laneFailsIn e.2 g e.1 stUnc 0x0D) s).dropLanes gid (maskOf (l.map (fun e => e.1)))
  | _, _ => s

/-- Of the lanes that read `n` bytes each in the Shared Field, those that meet no poisoned line, and the others with their banks (R655). -/
def State.unpoisoned (s : State) (field : Bool) (n : Nat) (l : List (Nat × Nat)) : (List (Nat × Nat) × List (Nat × EUnit)) × State :=
  if !field then ((l, []), s)
  else l.foldl (fun (r : (List (Nat × Nat) × List (Nat × EUnit)) × State) e =>
    match r.2.readPoison e.2 n with
    | (some u, s) => ((r.1.1, r.1.2 ++ [(e.1, u)]), s)
    | (none, s) => ((r.1.1 ++ [e], r.1.2), s)) (([], []), s)

/-- Every active lane of a group raises a cause. -/
def State.faultAll (s : State) (g : Group) (cause : Nat) : State := s.finish g.id g.pc ((lanesOf g.active).map (fun l => (l, cause)))

/-! ### Issue (R381–R383, R419–R428) -/

/-- The 128 B line that holds a group's next word, and that word where the code buffer holds the line (R422). -/
def State.codeLine (s : State) (g : Group) : Nat := ((s.progOf g.prog).codeAddr + g.pc) / 128
def State.codeWord (s : State) (g : Group) : Option Nat :=
  ((s.lcore g.lc).code.find? (fun e => e.1 == s.codeLine g)).map
    (fun e => leVal ((e.2.drop (((s.progOf g.prog).codeAddr + g.pc) % 128)).take 8))

/-- Whether a word names a register that an MMA of the group has still to write (R382, R400). -/
def State.mmaHolds (s : State) (g : Group) (w : Nat) : Bool :=
  match (s.lcore g.lc).mma with
  | some m => m.group == g.id && (wordRuns w).any (fun r => r.1 != 255 && r.1 < m.d + 8 && m.d < r.1 + r.2)
  | none => false

/-- The address of lane `l` in LD and ST. -/
def Group.memAddr (g : Group) (w l : Nat) : Nat :=
  if wMod w % 4 = 0 then wrap 64 ((g.pair l (wA w) : Int) + wOffset w) else wrap 32 ((g.reg l (wA w) : Int) + wOffset w)

/-- The selected lanes of an access of `n` bytes, with their addresses: those that pass, and the faults of the others. -/
def State.accesses (s : State) (g : Group) (lanes : List Nat) (space n : Nat) (addr : Nat → Nat) :
    List (Nat × Nat) × List (Nat × Nat) :=
  lanes.foldl (fun r l =>
    let c := s.accessFault g space (addr l) n n
    if c = 0 then (r.1 ++ [(l, addr l)], r.2) else (r.1, r.2 ++ [(l, c)])) ([], [])

/-- The address of lane `l` in ATOM, LOCK and UNLOCK. -/
def Group.atomAddr (g : Group) (w l : Nat) : Nat := if wSub w % 4 = 0 then g.pair l (wA w) else g.reg l (wA w)

/-- ISSUED − DONE of a counter. -/
def Counter.open_ (c : Counter) : Nat := (c.issued + 65536 - c.done) % 65536

/-- A counter of a group. -/
def Group.counter (g : Group) (c : Nat) : Counter := (g.counters[c]?).getD { issued := 0, done := 0 }

/-- Places of a queue that no entry holds and no group has reserved by TOUT. -/
def State.freePlaces (s : State) (d : Dispatch) (k q : Nat) : Nat :=
  match s.queueRec d q with
  | some r =>
    r.capacity - (d.hq q).entries.length - (s.groups.filter (fun g => g.disp == d.id && g.stage == k && g.out.isSome && !g.tileDone)).length
  | none => 0

/-- The record that lane `l` emits by EMIT, or its cause (R452, R454). -/
def State.emitRecord (s : State) (g : Group) (w l : Nat) : List Byte × Nat :=
  let n := 2 ^ (5 + wSub w % 4)
  match g.lanes[l]? with
  | none => ([], 0x49)
  | some x =>
    if x.ended then ([], 0x49)
    else if wMod w = 0 then (leBytes n (g.run l (wD w) (n / 4)), 0)
    else
      let a := g.reg l (wA w)
      let c := s.accessFault g 2 a n n
      (if c = 0 then s.localGet g a n else [], c)

/-- The flags by which a record is routed (R58): those of the lane's input entry, or those in a 64 B record of a lane without one, with
the PIXEL_KEY above them. -/
def LaneIn.outFlags (x : LaneIn) (bs : List Byte) : Nat :=
  if x.entry.isSome then x.flags
  else if bs.length = 64 then leVal ((bs.drop 0x20).take 2) + 2 ^ 16 * leVal ((bs.drop 0x28).take 4) else 0

/-- What EMIT would append: whether it is an emit at all, the records by lane, their routes, and the causes of the other lanes. -/
structure Emits where
  bad : Bool
  recs : List (Nat × List Byte)
  flags : List Nat
  dest : List Nat
  faults : List (Nat × Nat)

/-- The records of one EMIT (R452, R454). -/
def State.emits (s : State) (g : Group) (d : Dispatch) (t : Stage) (w : Nat) : Emits :=
  let all := (g.selected w).map (fun l => (l, s.emitRecord g w l))
  let recs := all.filterMap (fun e => if e.2.2 = 0 then some (e.1, e.2.1) else none)
  let flags := recs.map (fun (e : Nat × List Byte) => match g.lanes[e.1]? with | some x => x.outFlags e.2 | none => 0)
  { bad := g.launch ≥ 3 || t.out0 == 255 || s.entrySize d t.out0 != 2 ^ (5 + wSub w % 4), recs := recs, flags := flags,
    dest := (recs.zip flags).map (fun e => t.route e.1.2 e.2),
    faults := all.filterMap (fun e => if e.2.2 ≠ 0 then some (e.1, e.2.2) else none) }

/-- Whether the output queues of a stage lack room for the records of one EMIT (R452). -/
def State.emitFull (s : State) (g : Group) (d : Dispatch) (t : Stage) (x : Emits) : Bool :=
  [t.out0, t.out1].any (fun q => q != 255 && s.freePlaces d g.stage q < (x.dest.filter (· == q)).length)

/-- The next place of a queue that no entry holds and no group of its stage has reserved (R453). -/
def State.reservePlace (s : State) (d : Dispatch) (k q : Nat) : Option Nat :=
  match s.queueRec d q with
  | none => none
  | some r =>
    let h := d.hq q
    let taken := h.entries.map (fun e => e.slot) ++ s.groups.filterMap (fun g => if g.disp == d.id && g.stage == k && !g.tileDone then g.out else none)
    ((List.range r.capacity).map (fun i => (h.appended + i) % r.capacity)).find? (fun i => !taken.contains i)

/-- Whether TOUT is one that R454 makes a fault of. -/
def State.toutBad (s : State) (g : Group) (d : Dispatch) (t : Stage) : Bool :=
  g.launch != 3 || t.out0 == 255 || s.entrySize d t.out0 != 65536

/-- The place that TOUT returns: the one reserved or emitted before, or the next (R453). -/
def State.toutPlace (s : State) (g : Group) (d : Dispatch) (t : Stage) : Option Nat :=
  if g.out.isSome then g.out else s.reservePlace d g.stage t.out0

/-- Whether an access of a group waits on an open fault record (R416). -/
def State.laneWaits (s : State) (lc slot : Nat) : Bool :=
  s.fwaits.any (fun w => match w.acc with | .lane l k _ => l.val == lc && k.val == slot | _ => false)

/-- The sectors of 32 B that a group's load has outstanding in GLOBAL or FIELD (R389, R392). -/
def GWait.sectors (x : GWait) : Nat :=
  match x with
  | .load l => if l.space < 2 then (dedup (l.addrs.map (fun e => e.2 / 32))).length else 0
  | _ => 0

/-- The GLOBAL and FIELD sectors that a lane core has outstanding (R392). -/
def State.laneSectors (s : State) (lc : Nat) : Nat :=
  (s.groups.filter (fun g => g.lc == lc && g.slot.isSome && !g.saved)).foldl (fun n g => n + g.wait.sectors) 0

/-- Whether the unit that a word needs can accept it (R382): the 64 sectors of R392, the translation of a store, atomic or lock (R388, R416),
64 copies of a counter (R394), the group matrix unit (R400), and room in the output queues (R452, R453). -/
def State.unitReady (s : State) (g : Group) (w : Nat) : Bool :=
  if !wordDefined w || !((wordRuns w).all (runOk (s.progOf g.prog).regs)) then true
  else
    let writes := fun (space n : Nat) (addr : Nat → Nat) =>
      !s.laneWaits g.lc (g.slot.getD 0) &&
      (space != 0 || (s.accesses g (g.selected w) 0 n addr).1.all (fun e => s.maps (48 + g.lc) e.2 n true))
    match wOpc w with
    | 0x50 =>
      let sp := wMod w % 4
      let n := 2 ^ wSize w
      sp ≥ 2 || s.laneSectors g.lc + (dedup ((s.accesses g (g.selected w) sp n (g.memAddr w)).1.map (fun e => e.2 / 32))).length ≤ 64
    | 0x51 => writes (wMod w % 4) (2 ^ wSize w) (g.memAddr w)
    | 0x58 => writes (wSub w % 4) (if wMod w ≥ 11 then 8 else 4) (g.atomAddr w)
    | 0x59 => writes (wSub w % 4) 4 (g.atomAddr w)
    | 0x5A => writes (wSub w % 4) 4 (g.atomAddr w)
    | 0x70 => decide ((g.counter (bits (wSub w) 11 3)).open_ < 64)
    | 0x74 => (s.lcore g.lc).mma.isNone
    | 0x78 =>
      (match s.disp g.disp, s.stageFor g.disp g.stage with
      | some d, some t => wMod w == 2 || (let x := s.emits g d t w; x.bad || !s.emitFull g d t x)
      | _, _ => false)
    | 0x7A =>
      (match s.disp g.disp, s.stageFor g.disp g.stage with
      | some d, some t => s.toutBad g d t || (s.toutPlace g d t).isSome
      | _, _ => false)
    | _ => true

/-- The next word of a group that is ready (R382): it waits on nothing, its core may work for its class, and its registers and unit are
free. -/
def State.canIssue (s : State) (g : Group) : Option Nat :=
  if g.wait != .none || !s.mayWork (lcUnit g.lc) g.cls then none
  else match s.codeWord g with
    | none => none
    | some w => if s.mmaHolds g w || !s.unitReady g w then none else some w

/-- The group in a slot and its next word, when it is the oldest ready group of its core (R381). -/
def State.ready (s : State) (lc slot : Nat) : Option (Group × Nat) :=
  match s.groupAt lc slot with
  | none => none
  | some g =>
    match s.canIssue g with
    | none => none
    | some w =>
      if s.groups.any (fun h => h.lc == lc && h.slot.isSome && !h.saved && decide (h.age < g.age) && (s.canIssue h).isSome) then none
      else some (g, w)

/-- An instruction counted as issued (LC_ISSUED, GROUP_INSTR). -/
def State.issued (s : State) (g : Group) : State :=
  (s.tally2 (F.lcIssuedLo g.lc) (F.lcIssuedHi g.lc) 1).perf 8 (lcUnit g.lc) (some g.cls) 1

/-- The checks of R428 that come before an instruction's own: BAD_OPCODE, then BAD_REG, in every active lane. -/
def State.checked (s : State) (g : Group) (w : Nat) (act : State → State) : State :=
  if !wordDefined w then s.faultAll g 0x42
  else if !((wordRuns w).all (runOk (s.progOf g.prog).regs)) then s.faultAll g 0x43
  else act s

/-- A group issues its next word, when its opcode is one of `ops`. -/
def State.issue (s : State) (lc slot : Nat) (ops : List Nat) (act : State → Group → Nat → State) : State :=
  match s.ready lc slot with
  | none => s
  | some (g, w) => if ops.contains (wOpc w) then (s.issued g).checked g w (fun s => act s g w) else s

/-- As `issue`, for an opcode that two commands share, told apart by MOD. -/
def State.issueMod (s : State) (lc slot op : Nat) (p : Nat → Bool) (act : State → Group → Nat → State) : State :=
  match s.ready lc slot with
  | none => s
  | some (g, w) => if wOpc w = op ∧ p (wMod w) then (s.issued g).checked g w (fun s => act s g w) else s

/-- The group after an instruction that is no control transfer (R419). -/
def Group.next (g : Group) : Group := { g with pc := g.pc + 8 }

/-- An instruction that acts lane by lane on registers and predicates: `f` answers the group with one lane's results, from the group as
it was before. -/
def State.lanewise (s : State) (g : Group) (w : Nat) (f : Nat → Group → Group) : State :=
  (s.modGroup g.id (fun _ => (g.selected w).foldl (fun a l => f l a) g.next)).finish g.id g.pc []

/-- An instruction that writes D in each selected lane. -/
def State.writesD (s : State) (g : Group) (w : Nat) (f : Nat → Nat) : State := s.lanewise g w (fun l a => a.setReg l (wD w) (f l))

/-- An instruction that writes predicate D[2:0] in each selected lane. -/
def State.writesP (s : State) (g : Group) (w : Nat) (f : Nat → Bool) : State := s.lanewise g w (fun l a => a.setPred (wD w) l (f l))

end Sys2Proof.Machine
end

