-- ==== Sys2Proof/Machine/LaneInt.lean ====
section
/-! DEFINITION. Integer and lane instructions ("Lane Core Instructions", R429–R432). -/

namespace Sys2Proof.Machine

/-- The outcome of every lane-core command. -/
abbrev Done := Host.Outcome State Fault Refusal

/-- IADD and IADDI: D = A + B (R429). -/
def execIadd (lc : Fin 16) (slot : Fin 64) (s : State) : Done :=
  .next (s.issue lc slot [0x00, 0x01] (fun s g w => s.writesD g w (fun l => g.reg l (wA w) + g.srcB w l)))

/-- ISUB and ISUBI: D = A − B (R429). -/
def execIsub (lc : Fin 16) (slot : Fin 64) (s : State) : Done :=
  .next (s.issue lc slot [0x02, 0x03] (fun s g w => s.writesD g w (fun l => g.reg l (wA w) + 2 ^ 32 - g.srcB w l)))

/-- IMUL and IMULI: D = bits [31:0] of A × B (R429). -/
def execImul (lc : Fin 16) (slot : Fin 64) (s : State) : Done :=
  .next (s.issue lc slot [0x04, 0x05] (fun s g w => s.writesD g w (fun l => g.reg l (wA w) * g.srcB w l)))

/-- Bits [63:32] of a product, signed or not. -/
def mulHigh (sg : Bool) (a b : Nat) : Nat := if sg then wrap 32 ((signed 32 a * signed 32 b) / 2 ^ 32) else a * b / 2 ^ 32

/-- IMULHI and IMULHII: D = bits [63:32] of A × B (R429). -/
def execImulhi (lc : Fin 16) (slot : Fin 64) (s : State) : Done :=
  .next (s.issue lc slot [0x06, 0x07] (fun s g w => s.writesD g w (fun l => mulHigh (bit (wMod w) 0) (g.reg l (wA w)) (g.srcB w l))))

/-- IMAD: D = bits [31:0] of A × B + C (R429). -/
def execImad (lc : Fin 16) (slot : Fin 64) (s : State) : Done :=
  .next (s.issue lc slot [0x08] (fun s g w => s.writesD g w (fun l => g.reg l (wA w) * g.reg l (wB w) + g.reg l (wC w))))

/-- AND and ANDI (R429). -/
def execAnd (lc : Fin 16) (slot : Fin 64) (s : State) : Done :=
  .next (s.issue lc slot [0x0A, 0x0B] (fun s g w => s.writesD g w (fun l => g.reg l (wA w) &&& g.srcB w l)))

/-- OR and ORI (R429). -/
def execOr (lc : Fin 16) (slot : Fin 64) (s : State) : Done :=
  .next (s.issue lc slot [0x0C, 0x0D] (fun s g w => s.writesD g w (fun l => g.reg l (wA w) ||| g.srcB w l)))

/-- XOR and XORI (R429). -/
def execXor (lc : Fin 16) (slot : Fin 64) (s : State) : Done :=
  .next (s.issue lc slot [0x0E, 0x0F] (fun s g w => s.writesD g w (fun l => g.reg l (wA w) ^^^ g.srcB w l)))

/-- SHL and SHLI: the amount is B[7:0]; 32 or more gives 0 (R429). -/
def execShl (lc : Fin 16) (slot : Fin 64) (s : State) : Done :=
  .next (s.issue lc slot [0x10, 0x11] (fun s g w => s.writesD g w (fun l =>
    let n := g.srcB w l % 256
    if n ≥ 32 then 0 else g.reg l (wA w) * 2 ^ n)))

/-- A shift right, logical or arithmetic (R429). -/
def shiftRight (arith : Bool) (a n : Nat) : Nat :=
  if arith then wrap 32 (signed 32 a / 2 ^ min n 31) else if n ≥ 32 then 0 else a / 2 ^ n

/-- SHR and SHRI (R429). -/
def execShr (lc : Fin 16) (slot : Fin 64) (s : State) : Done :=
  .next (s.issue lc slot [0x12, 0x13] (fun s g w => s.writesD g w (fun l =>
    shiftRight (bit (wMod w) 0) (g.reg l (wA w)) (g.srcB w l % 256))))

/-- IMIN and IMINI: the lesser of A and B, MOD[0] signed (R429). -/
def execImin (lc : Fin 16) (slot : Fin 64) (s : State) : Done :=
  .next (s.issue lc slot [0x14, 0x15] (fun s g w => s.writesD g w (fun l =>
    let a := g.reg l (wA w)
    let b := g.srcB w l
    if condInt 2 (bit (wMod w) 0) b a then b else a)))

/-- IMAX and IMAXI: the greater of A and B, MOD[0] signed (R429). -/
def execImax (lc : Fin 16) (slot : Fin 64) (s : State) : Done :=
  .next (s.issue lc slot [0x16, 0x17] (fun s g w => s.writesD g w (fun l =>
    let a := g.reg l (wA w)
    let b := g.srcB w l
    if condInt 2 (bit (wMod w) 0) a b then b else a)))

/-- ISETP and ISETPI: predicate D[2:0] = A cond B (R430). -/
def execIsetp (lc : Fin 16) (slot : Fin 64) (s : State) : Done :=
  .next (s.issue lc slot [0x18, 0x19] (fun s g w => s.writesP g w (fun l =>
    condInt (wMod w % 8) (bit (wMod w) 3) (g.reg l (wA w)) (g.srcB w l))))

/-- SEL: D = p ? A : B (R429). -/
def execSel (lc : Fin 16) (slot : Fin 64) (s : State) : Done :=
  .next (s.issue lc slot [0x1A] (fun s g w => s.writesD g w (fun l =>
    if g.selects w l then g.reg l (wA w) else g.reg l (wB w))))

/-- MOV: D = A (R429). -/
def execMov (lc : Fin 16) (slot : Fin 64) (s : State) : Done :=
  .next (s.issue lc slot [0x1C] (fun s g w => s.writesD g w (fun l => g.reg l (wA w))))

/-- MOVI: D = IMM (R429). -/
def execMovi (lc : Fin 16) (slot : Fin 64) (s : State) : Done :=
  .next (s.issue lc slot [0x1D] (fun s g w => s.writesD g w (fun _ => wImm w)))

/-- POPC: the number of 1 bits of A (R429). -/
def execPopc (lc : Fin 16) (slot : Fin 64) (s : State) : Done :=
  .next (s.issue lc slot [0x1E] (fun s g w => s.writesD g w (fun l => popCount 32 (g.reg l (wA w)))))

/-- CLZ: the leading zero bits of A, 32 for 0 (R429). -/
def execClz (lc : Fin 16) (slot : Fin 64) (s : State) : Done :=
  .next (s.issue lc slot [0x1F] (fun s g w => s.writesD g w (fun l => 32 - bitLen (g.reg l (wA w)))))

/-- IADD64 and IADD64I: D pair = A pair + B sign-extended (R429). -/
def execIadd64 (lc : Fin 16) (slot : Fin 64) (s : State) : Done :=
  .next (s.issue lc slot [0x20, 0x21] (fun s g w => s.lanewise g w (fun l a =>
    a.setRun l (wD w) 2 (wrap 64 ((g.pair l (wA w) : Int) + signed 32 (g.srcB w l))))))

/-- A special value (Tables 100 and 111). -/
def State.special (s : State) (g : Group) (l n : Nat) : Nat :=
  match n with
  | 0 => l
  | 1 => g.slot.getD 0
  | 2 => g.lc
  | 3 => g.launch
  | 4 => g.cls
  | 5 => if g.launch = 3 then g.tileFirst else match g.lanes[l]? with | some x => x.item | none => 0
  | 6 => g.inSize l
  | 7 => g.live
  | _ => if s.integ.plkPorts = 0 then 0 else s.get F.plkNode

/-- S2R: D = a special value (R431). -/
def execS2r (lc : Fin 16) (slot : Fin 64) (s : State) : Done :=
  .next (s.issue lc slot [0x48] (fun s g w => s.writesD g w (fun l => s.special g l (wSub w % 16))))

/-- VOTE: ANY or ALL to a predicate, BALLOT to a register, of every active lane's predicate A[2:0] (R431). -/
def execVote (lc : Fin 16) (slot : Fin 64) (s : State) : Done :=
  .next (s.issue lc slot [0x49] (fun s g w =>
    if wMod w = 2 then s.writesD g w (fun _ => g.ballot w) else s.writesP g w (fun _ => g.vote w)))

/-- The source lane of a SHFL, outside 0 to 31 included. -/
def shflSource (m l b : Nat) : Int :=
  match m with
  | 0 => (b % 32 : Nat)
  | 1 => (l : Int) - b
  | 2 => (l : Int) + b
  | _ => (l ^^^ (b % 32) : Nat)

/-- SHFL and SHFLI: D = A of the source lane, or the lane's own A (R431, R432). -/
def execShfl (lc : Fin 16) (slot : Fin 64) (s : State) : Done :=
  .next (s.issue lc slot [0x4A, 0x4B] (fun s g w => s.writesD g w (fun l =>
    let x := shflSource (wMod w) l (g.srcB w l)
    if 0 ≤ x ∧ x < 32 ∧ (g.selected w).contains x.toNat = true then g.reg x.toNat (wA w) else g.reg l (wA w))))

/-- PLOP: predicate D[2:0] = pa op pb (R431). -/
def execPlop (lc : Fin 16) (slot : Fin 64) (s : State) : Done :=
  .next (s.issue lc slot [0x4C] (fun s g w => s.writesP g w (fun l =>
    predLogic (wMod w) (g.pred (wA w % 8) l != bit (wA w) 3) (g.pred (wB w % 8) l != bit (wB w) 3))))

end Sys2Proof.Machine
end

