-- ==== Sys2Proof/Machine/HitPort.lean ====
section
/-! DEFINITION. The RETURN stage and the hit return port: release, the order hold, transfers and credits ("Ray Sorting, Treelet
Streaming and Hit Return", R261–R271). -/

namespace Sys2Proof.Machine

/-- The return buffer of a channel. -/
def State.hrBuffer (s : State) (ch : Nat) : List HitSlot := (s.hrBuf[ch]?).getD []

/-- A record released whole to a channel's buffer (R263). -/
def State.pushHit (s : State) (ch : Nat) (r : HitSlot) : State := { s with hrBuf := modifyAt (· ++ [r]) ch s.hrBuf }

/-- The channel whose buffer has the most free entries, the lowest on ties; none when every buffer is full (R264). -/
def State.freestChannel (s : State) : Option Nat :=
  leastBy (fun a b => (s.hrBuffer a).length < (s.hrBuffer b).length) ((List.range 4).filter (fun c => (s.hrBuffer c).length < 128))

/-- The record's item ends with it, unless it has ended before (R30). -/
def State.hitEnds (s : State) (id item : Nat) (ended : Bool) : State := if ended then s else s.endItem id item .hrp

/-- Whether RETURN stage `k` of a dispatch has a record that it can release: to the order hold, or to a channel with room. -/
def State.canReturn (s : State) (d : Dispatch) (k : Nat) : Bool :=
  match s.chainOf d, s.stageOf d k with
  | some c, some t => t.kind == 8 && (d.front t.input).isSome && (c.orderedQueues.contains t.input || s.freestChannel.isSome)
  | _, _ => false

/-- HIT_RELEASE: RETURN stage `k` of a dispatch takes the oldest record of its input queue: into the order hold when the TRAVERSE stage of an
ordered chain appended it, else to the channel with the most free entries (R264, R265, R267).  Dispatches of a lower class, and older ones
of its own, come first (R33); a record in a poisoned line fails its item (R655). -/
def State.hitRelease (s : State) (id k : Nat) : State :=
  match s.disp id with
  | none => s
  | some d =>
    match s.chainOf d, s.stageOf d k with
    | some c, some t =>
      match d.front t.input with
      | none => s
      | some e =>
        if !s.inService .hrp || !s.canReturn d k || !s.comesFirst d (fun x => (List.range x.stages.length).any (fun j => s.canReturn x j)) then s
        else
          let key := e.flags / 65536
          let bytes := s.entryBytes d e.slot t.input
          let at' := s.entryAddr d e.slot t.input
          let (bad, s) := s.readPoison at' 32
          let s := s.sfTouch .hrp (some d.rcd.cls) at' 32
          if bad.isSome then ((s.failItem id e.item stUnc bad).freeEntry id t.input e.pos).flushRays
          else if c.orderedQueues.contains t.input then
            let r := if e.ray = 0 then none else s.ray (e.ray - 1)
            let h : HoldRec := { disp := id, item := e.item, ray := e.ray, ended := e.ended,
                                 intake := match r with | some r => if r.ticket then some r.intake else none | none => none,
                                 replayed := match r with | some r => r.replayed | none => false, queue := t.input, pos := e.pos,
                                 hit := { bytes := bytes, key := key, cls := d.rcd.cls, ordered := true } }
            let s := s.holdEntry id t.input e.pos true
            { s with hold := s.hold ++ [h] }
          else match s.freestChannel with
            | none => s
            | some ch =>
              let s := s.pushHit ch { hit := { bytes := bytes, key := key, cls := d.rcd.cls, ordered := false },
                                                  disp := id, item := e.item, ended := e.ended }
              (s.freeEntry id t.input e.pos).flushRays
    | _, _ => s

/-- Whether a held record may leave: no ray of its dispatch and key with an earlier intake holds a ticket, it holds no ticket
itself, or its ray was replayed and the recovery window is open (R267, R270). -/
def State.releasable (s : State) (h : HoldRec) : Bool :=
  match h.intake with
  | none => true
  | some n =>
    (h.replayed && s.window.isSome) ||
    !s.rays.any (fun r => r.disp == h.disp && r.ticket && r.guest.isNone && r.route / 65536 == h.hit.key && r.intake < n)

/-- The record of a channel that leaves next: the earliest intake, but a record without ticket that no releasable record entered the
hold before (R267). -/
def nextHeld (l : List HoldRec) : Option HoldRec :=
  match l with
  | [] => none
  | h :: _ =>
    if h.intake.isNone then some h
    else leastBy (fun a b => a.intake.getD 0 < b.intake.getD 0) (l.filter (fun x => x.intake.isSome))

/-- ORDER_HOLD_RELEASE: a releasable record of a dispatch leaves the hold for the buffer of channel K[1:0] (R267, R269). -/
def State.orderHoldRelease (s : State) (id ch : Nat) : State :=
  match s.disp id with
  | none => s
  | some _ =>
    match nextHeld (s.hold.filter (fun h => h.disp == id && h.hit.key % 4 == ch && s.releasable h)) with
    | some h =>
      if !s.inService .hrp || (s.hrBuffer ch).length ≥ 128 then s
      else
        let s := State.pushHit { s with hold := s.hold.filter (fun x => x != h) } ch
          { hit := h.hit, disp := id, item := h.item, ended := h.ended }
        (s.freeEntry id h.queue h.pos).flushRays
    | none => s

/-- The credit count of a channel (HRP_CREDITS). -/
def hrCredit (ch : Nat) : RField := ⟨0x18100, 8 * ch, 8⟩

/-- HIT_TRANSFER: a channel with credit transfers the oldest record of its buffer, which is then the final record of its item (R30, R261,
R262). -/
def State.hitTransfer (s : State) (ch : Nat) : State :=
  match s.hrBuffer ch with
  | [] => s
  | r :: rest =>
    if s.get (hrCredit ch) = 0 || !s.inService .hrp then s
    else
      let s := (s.set (hrCredit ch) (s.get (hrCredit ch) - 1)).bump F.hrpRecords 1
      let s := State.emit { s with hrBuf := modifyAt (fun _ => rest) ch s.hrBuf } (.hit ch r.hit)
      (s.perf 0x0E .hrp (some r.hit.cls) 1).hitEnds r.disp r.item r.ended

/-- HR_CREDIT_RETURN: one credit more; at 255 it is lost (R262, R761). -/
def State.hrCreditReturn (s : State) (ch : Nat) : State := s.set (hrCredit ch) (min 255 (s.get (hrCredit ch) + 1))

end Sys2Proof.Machine
end

