-- ==== Sys2Proof/Machine/LaneMem.lean ====
section
/-! DEFINITION. Loads, stores, atomics, locks, fences, barriers, asynchronous copies and group matrix operations of the lane cores
("Lane Core Execution Model", "Lane Core Instructions"). -/

namespace Sys2Proof.Machine

/-! ### Loads and stores (R439–R442) -/

/-- The value that a load writes, extended to whole registers (R440). -/
def loadValue (sg : Bool) (bs : List Byte) : Nat :=
  let n := bs.length
  let v := leVal bs
  if sg && n < 4 then wrap 32 (signed (8 * n) v) else v

/-- The group with a load's value written in lane `l`. -/
def Group.loaded (g : Group) (l dest : Nat) (sg : Bool) (bs : List Byte) : Group :=
  g.setRun l dest (max 1 (bs.length / 4)) (loadValue sg bs)

/-- The sectors that a group's store, atomic or lock touches in GLOBAL pass through the memory ports as writes (R24, R391). -/
def State.globalTouch (s : State) (g : Group) (space n : Nat) (l : List (Nat × Nat)) : State :=
  if space = 0 then (dedup (l.flatMap (fun e => linesOf e.2 n))).foldl (fun s x => s.carry (48 + g.lc) g.cls (64 * x) 64 true false) s else s

/-- LD: a LOCAL load writes its registers; any other waits for its data (R382, R439, Table 120). -/
def execLd (lc : Fin 16) (slot : Fin 64) (s : State) : Done :=
  .next (s.issue lc slot [0x50] (fun s g w =>
    let space := wMod w % 4
    let n := 2 ^ wSize w
    let (ok, bad) := s.accesses g (g.selected w) space n (g.memAddr w)
    let s := s.groupTouch g space (ok.map (fun e => (e.2, n)))
    let g' :=
      if space = 2 then ok.foldl (fun a e => a.loaded e.1 (wD w) (wSign w) (s.localGet g e.2 n)) g.next
      else if ok.isEmpty then g.next
      else { g.next with wait := .load { space := space, size := n, sign := wSign w, dest := wD w, addrs := ok } }
    (s.modGroup g.id (fun _ => g')).finish g.id g.pc bad))

/-- ST: the selected lanes write in ascending order (R439–R441). -/
def execSt (lc : Fin 16) (slot : Fin 64) (s : State) : Done :=
  .next (s.issue lc slot [0x51] (fun s g w =>
    let space := wMod w % 4
    let n := 2 ^ wSize w
    let (ok, bad) := s.accesses g (g.selected w) space n (g.memAddr w)
    let s := s.groupTouch g space (ok.map (fun e => (e.2, n)))
    let s := s.globalTouch g space n ok
    let s := ok.foldl (fun s e => s.spacePut g space e.2 (leBytes n (g.run e.1 (wD w) (max 1 (n / 4))))) s
    (s.modGroup g.id (fun g => g.next)).finish g.id g.pc bad))

/-- LOAD_DATA_RETURN: the data of a group's load arrives and its registers are written.  A GLOBAL load takes what its core's cache part holds
without translation, and the rest through the memory ports once its pages are mapped (R388, R391, R440, R504).  The items of lanes
of `unc` whose data memory answered with POISON or ERROR, and of lanes that read a poisoned line of the Shared Field, fail (R655). -/
def execLoadDataReturn (lc : Fin 16) (slot : Fin 64) (unc : Word) (s : State) : Done :=
  .next (match s.groupAt lc slot with
    | none => s
    | some g =>
      match g.wait with
      | .load x =>
        let miss := if x.space = 0 then x.addrs.filter (fun e => !(s.lcore lc).hits e.2) else []
        if s.laneWaits lc slot || !miss.all (fun e => s.maps (48 + lc.val) e.2 x.size false) then s
        else
          let field := decide (x.space = 1) || (decide (x.space = 3) && decide (g.launch = 3))
          let ((got, bank), s) := s.unpoisoned field x.size
            (x.addrs.map (fun e => if x.space = 3 ∧ g.launch = 3 then (e.1, g.tile + e.2) else e))
          let bad := miss.filter (fun e => bit unc.toNat e.1)
          let s := bad.foldl (fun s e => s.uncRead (.lane lc slot unc) e.2) s
          let s := s.fillLines lc g.cls ((miss.filter (fun e => !bit unc.toNat e.1)).map (fun e => e.2))
          let keep := x.addrs.filter (fun e => got.any (fun y => y.1 == e.1) && !bad.contains e)
          let value := fun (e : Nat × Nat) => if x.space = 0 then s.loadGet lc e.2 x.size else s.spaceGet g e.1 x.space e.2 x.size
          let g' := keep.foldl (fun a e => a.loaded e.1 x.dest x.sign (value e)) { g with wait := .none }
          ((s.modGroup g.id (fun _ => g')).laneLost g.id (bank ++ bad.map (fun e => (e.1, lcUnit lc)))).finish g.id (g.pc - 8) []
      | _ => s)

/-! ### Atomics (R443, R444, Table 115) -/

/-- The new value of an atomic operation over an old value. -/
def atomValue (m old b c : Nat) : Nat :=
  match m with
  | 0 => old + b
  | 1 => if condInt 2 true b old then b else old
  | 2 => if condInt 2 true old b then b else old
  | 3 => min old b
  | 4 => max old b
  | 5 => old &&& b
  | 6 => old ||| b
  | 7 => old ^^^ b
  | 8 => b
  | 9 => if old = c then b else old
  | 10 => fAdd fp32 0 old b
  | 11 => old + b
  | 12 => b
  | _ => if old = c then b else old

/-- ATOM: each selected lane's operation in ascending lane order, one indivisible access each (R444). -/
def execAtom (lc : Fin 16) (slot : Fin 64) (s : State) : Done :=
  .next (s.issue lc slot [0x58] (fun s g w =>
    let space := wSub w % 4
    let n := if wMod w ≥ 11 then 8 else 4
    let sel := g.selected w
    if space = 2 then (s.modGroup g.id (fun g => g.next)).finish g.id g.pc (sel.map (fun l => (l, 0x48)))
    else
      let (ok, bad) := s.accesses g sel space n (g.atomAddr w)
      let s := (s.groupTouch g space (ok.map (fun e => (e.2, n)))).globalTouch g space n ok
      let ((ok, lost), s) := s.unpoisoned (space == 1) n ok
      let (s, g') := ok.foldl (fun (r : State × Group) e =>
        let old := leVal (r.1.spaceGet g e.1 space e.2 n)
        let new := atomValue (wMod w) old (g.run e.1 (wB w) (n / 4)) (g.run e.1 (wC w) (n / 4))
        (r.1.spacePut g space e.2 (leBytes n new), r.2.setRun e.1 (wD w) (n / 4) old)) (s, g.next)
      ((s.modGroup g.id (fun _ => g')).laneLost g.id lost).finish g.id g.pc bad))

/-! ### Locks (R402–R407, R445) -/

/-- Whether a lock word is held by a lane of group `g`'s own slot. -/
def State.sameGroup (s : State) (g : Group) (v : Nat) : Bool := bit v 31 && v / 32 == s.identity g 0 / 32

/-- A lane takes a lock word: granted, or LOCK_STATE when it holds 4 already (R403, R406). -/
def State.grantLock (s : State) (gid l space a : Nat) : State × Bool :=
  match s.group gid with
  | none => (s, false)
  | some g =>
    if (g.locks.filter (fun k => k.lane == l)).length ≥ 4 then (s, false)
    else ((s.putLock space a (s.identity g l)).modGroup gid (fun g =>
      { g with locks := g.locks ++ [{ lane := l, space := space, addr := a }] }), true)

/-- One issue of LOCK over the lanes that pass the address checks: granted lanes, LOCK_STATE faults, and the lanes left. -/
def State.lockIssue (s : State) (g : Group) (space : Nat) (l : List (Nat × Nat)) :
    State × List Nat × List (Nat × Nat) × List (Nat × Nat) :=
  l.foldl (fun (r : State × List Nat × List (Nat × Nat) × List (Nat × Nat)) e =>
    let first := match l.find? (fun x => x.2 == e.2) with | some x => x.1 == e.1 | none => false
    if first && r.1.lockWord space e.2 == 0 then
      match r.1.grantLock g.id e.1 space e.2 with
      | (s, true) => (s, r.2.1 ++ [e.1], r.2.2.1, r.2.2.2)
      | (s, false) => (s, r.2.1, r.2.2.1 ++ [(e.1, 0x48)], r.2.2.2)
    else (r.1, r.2.1, r.2.2.1, r.2.2.2 ++ [e])) (s, [], [], [])

/-- LOCK.TRY: grants what is free and sets the success predicates (R403). -/
def execLockTry (lc : Fin 16) (slot : Fin 64) (s : State) : Done :=
  .next (s.issueMod lc slot 0x59 (fun m => m != 1) (fun s g w =>
    let space := wSub w % 4
    let sel := g.selected w
    if space = 2 then (s.modGroup g.id (fun g => g.next)).finish g.id g.pc (sel.map (fun l => (l, 0x48)))
    else
      let (ok, bad) := s.accesses g sel space 4 (g.atomAddr w)
      let ((ok, lost), s) := (s.globalTouch g space 4 ok).unpoisoned (space == 1) 4 ok
      let (s, got, more, left) := s.lockIssue g space ok
      let s := s.modGroup g.id (fun a => (got.map (fun l => (l, true)) ++ left.map (fun e => (e.1, false))).foldl
        (fun a e => a.setPred (wD w) e.1 e.2) a.next)
      (s.laneLost g.id lost).finish g.id g.pc (bad ++ more)))

/-- LOCK.WAIT: lanes that are not granted raise SELF_WAIT when their own group holds the word, and else wait (R403, R404). -/
def execLockWait (lc : Fin 16) (slot : Fin 64) (s : State) : Done :=
  .next (s.issueMod lc slot 0x59 (fun m => m == 1) (fun s g w =>
    let space := wSub w % 4
    let sel := g.selected w
    if space = 2 then (s.modGroup g.id (fun g => g.next)).finish g.id g.pc (sel.map (fun l => (l, 0x48)))
    else
      let (ok, bad) := s.accesses g sel space 4 (g.atomAddr w)
      let ((ok, lost), s) := (s.globalTouch g space 4 ok).unpoisoned (space == 1) 4 ok
      let (s, _, more, left) := s.lockIssue g space ok
      let (self, wait) := left.partition (fun e => s.sameGroup g (s.lockWord space e.2))
      let s := s.modGroup g.id (fun a => { a.next with wait := if wait.isEmpty then .none else .locks space s.lockClock wait })
      (State.laneLost { s with lockClock := s.lockClock + 1 } g.id lost).finish g.id g.pc (bad ++ more ++ self.map (fun e => (e.1, 0x40)))))

/-- LOCK_RETRY: a lock word that is 0 goes to the first waiting lane: the group that began to wait first, its lowest lane; other lanes
of that group that wait on the word raise SELF_WAIT (R404, R405). -/
def execLockRetry (space : Fin 2) (addr : DWord) (s : State) : Done :=
  let a := addr.toNat
  .next (if s.lockWord space.val a ≠ 0 then s
    else
      let waiting := s.groups.filterMap (fun g =>
        if g.saved || !s.mayWork (lcUnit g.lc) g.cls then none
        else match g.wait with
          | .locks sp t l =>
            if sp == space.val && l.any (fun e => e.2 == a) && (sp == 1 || s.maps (48 + g.lc) a 4 true) then some (g, t, l) else none
          | _ => none)
      match leastBy (fun (x y : Group × Nat × List (Nat × Nat)) => x.2.1 < y.2.1) waiting with
      | none => s
      | some (g, t, l) =>
        match leastBy (fun (x y : Nat × Nat) => x.1 < y.1) (l.filter (fun e => e.2 == a)) with
        | none => s
        | some (lane, _) =>
          let (s, ok) := s.grantLock g.id lane space.val a
          let rest := l.filter (fun e => e.1 != lane)
          let (self, rest) := if ok then rest.partition (fun e => e.2 == a) else ([], rest)
          let s := s.modGroup g.id (fun g => { g with wait := if rest.isEmpty then .none else .locks space.val t rest })
          s.finish g.id (g.pc - 8) ((if ok then [] else [(lane, 0x48)]) ++ self.map (fun e => (e.1, 0x40))))

/-- UNLOCK: writes 0 to a word whose identity the lane holds, else LOCK_STATE (R406). -/
def execUnlock (lc : Fin 16) (slot : Fin 64) (s : State) : Done :=
  .next (s.issue lc slot [0x5A] (fun s g w =>
    let space := wSub w % 4
    let sel := g.selected w
    if space = 2 then (s.modGroup g.id (fun g => g.next)).finish g.id g.pc (sel.map (fun l => (l, 0x48)))
    else
      let (ok, bad) := s.accesses g sel space 4 (g.atomAddr w)
      let ((ok, lost), s) := (s.globalTouch g space 4 ok).unpoisoned (space == 1) 4 ok
      let (s, more) := ok.foldl (fun (r : State × List (Nat × Nat)) e =>
        if r.1.lockWord space e.2 = s.identity g e.1 then
          ((r.1.putLock space e.2 0).modGroup g.id (fun g =>
            { g with locks := g.locks.filter (fun k => !(k.lane == e.1 && k.space == space && k.addr == e.2)) }), r.2)
        else (r.1, r.2 ++ [(e.1, 0x48)])) (s, [])
      ((s.modGroup g.id (fun g => g.next)).laneLost g.id lost).finish g.id g.pc (bad ++ more)))

/-- FENCE: every access before it is performed already, so its order holds at once (R411, Table 104). -/
def execFence (lc : Fin 16) (slot : Fin 64) (s : State) : Done :=
  .next (s.issue lc slot [0x52] (fun s g w => s.lanewise g w (fun _ a => a)))

/-! ### Barriers (R408, R409) -/

/-- BAR: DIVERGENT_BARRIER when the active mask differs from the live mask, else the group waits for its accesses. -/
def execBar (lc : Fin 16) (slot : Fin 64) (s : State) : Done :=
  .next (s.issue lc slot [0x67] (fun s g _ =>
    if g.active ≠ g.live then s.faultAll g 0x41 else s.modGroup g.id (fun g => { g with wait := .barrier })))

/-- BAR_RELEASE: every access that the group issued before its BAR is performed, and the barrier ends. -/
def execBarRelease (lc : Fin 16) (slot : Fin 64) (s : State) : Done :=
  .next (match s.groupAt lc slot with
    | none => s
    | some g =>
      if g.wait = .barrier ∧ s.mayWork (lcUnit lc) g.cls = true then
        (s.modGroup g.id (fun g => { g.next with wait := .none })).finish g.id g.pc []
      else s)

/-! ### Asynchronous copies (R393–R396, R450) -/

/-- CP: one block of LEN bytes from the lowest active lane's addresses starts moving (R393, R450).  A 65th open copy of a counter waits
(R394). -/
def execCp (lc : Fin 16) (slot : Fin 64) (s : State) : Done :=
  .next (s.issue lc slot [0x70] (fun s g w =>
        let c := bits (wSub w) 11 3
        let l := (lowestBit 32 g.active).getD 0
        let len := 32 * (wSub w % 2048 + 1)
        let sp := wMod w % 4
        let dp := wMod w / 4
        let src := if sp = 0 then g.pair l (wA w) else g.reg l (wA w)
        let dst := if dp = 0 then g.pair l (wB w) else g.reg l (wB w)
        let f1 := s.accessFault g sp src len 32
        let f2 := s.accessFault g dp dst len 32
        let bad := if f1 = 0x44 ∨ f2 = 0x44 then 0x44 else if f1 ≠ 0 then f1 else f2
        if bad ≠ 0 then s.faultAll g bad
        else
          let k : Copy := { ctr := c, pc := g.pc, srcSpace := sp, src := src, dstSpace := dp, dst := dst, len := len }
          (s.modGroup g.id (fun g => { g.next with
            copies := g.copies ++ [k], counters := modifyAt (fun x => { x with issued := (x.issued + 1) % 65536 }) c g.counters })).finish
            g.id g.pc []))

/-- A copy leaves a group. -/
def State.copyGone (s : State) (gid : Nat) (k : Copy) : State := s.modGroup gid (fun g => { g with copies := g.copies.erase k })

/-- COPY_DONE: the oldest copy of a counter writes its last byte, once the pages of its GLOBAL side are mapped; DONE rises and a wait that it
satisfies ends (R393–R395).  A copy that reads a poisoned line of the Shared Field, or that memory answers with POISON or ERROR
(`unc`), never completes, and every lane of the group fails its item and ends (log entry 86). -/
def execCopyDone (lc : Fin 16) (slot : Fin 64) (ctr : Fin 8) (unc : Bool) (s : State) : Done :=
  .next (match s.groupAt lc slot with
    | none => s
    | some g =>
      match g.copies.find? (fun k => k.ctr == ctr.val) with
      | none => s
      | some k =>
        if s.fwaits.any (fun w => match w.acc with | .copy l m c => l == lc && m == slot && c == ctr | _ => false) ||
            !(match k.global with | some (a, w) => s.maps (48 + lc.val) a k.len w | none => true) then s
        else
          let (bank, s) := if k.srcSpace = 1 then s.readPoison k.src k.len else (none, s)
          let s := if unc && k.srcSpace == 0 then s.uncRead (.copy lc slot ctr) k.src else s
          match if unc && k.srcSpace == 0 then some (lcUnit lc) else bank with
          | some u => ((s.copyGone g.id k).laneLost g.id ((lanesOf g.live).map (fun l => (l, u)))).finish g.id k.pc []
          | none =>
            ((s.copyMove g k).copyGone g.id k).modGroup g.id (fun g =>
              let g := { g with counters := modifyAt (fun x => { x with done := (x.done + 1) % 65536 }) ctr.val g.counters }
              match g.wait with
              | .counter c n => if (g.counter c).open_ ≤ n then { g with wait := .none } else g
              | _ => g))

/-- CPWAIT: waits until at most SUB[6:0] copies of a counter are open (R394). -/
def execCpwait (lc : Fin 16) (slot : Fin 64) (s : State) : Done :=
  .next (s.issue lc slot [0x71] (fun s g w =>
    let c := bits (wSub w) 11 3
    let n := wSub w % 128
    (s.modGroup g.id (fun g => { g.next with wait := if (g.counter c).open_ ≤ n then .none else .counter c n })).finish g.id g.pc []))

/-! ### Group matrix operations (R397–R400, R451) -/

/-- Operand formats of a pair, as array format codes (Table 119). -/
def mmaFmt (m : Nat) : Nat × Nat :=
  match m with | 0 => (10, 10) | 1 => (11, 11) | 2 => (2, 2) | 3 => (2, 3) | 4 => (3, 2) | 5 => (3, 3) | _ => (0, 0)

/-- Element (row, col) of a fragment from register `r` on in format `f`; the part of a lane that is not live reads 0 (R397, R451). -/
def Group.element (g : Group) (f r row col : Nat) : Fv :=
  let l := 2 * row + col / 8
  if !bit g.live l then .fin false 0 0
  else
    let n := fmtBits f
    let per := 32 / n
    elemVal f (bits (g.reg l (r + col % 8 / per)) (n * (col % 8 % per)) n)

/-- Element (row, col) of C + A × B (R399). -/
def Group.mmaAt (g : Group) (w row col : Nat) : Nat :=
  let (fa, fb) := mmaFmt (wMod w)
  let e := (dotE ((List.range 16).map (fun k => some (g.element fa (wA w) row k)))
    ((List.range 16).map (fun k => g.element fb (wB w) k col))).val
  let l := 2 * row + col / 8
  let c := if bit g.live l then g.reg l (wC w + col % 8) else 0
  if wMod w = 6 then (accInt c e).1 else accFp c e

/-- MMA: the group matrix unit takes the operands; a unit that is occupied makes the group wait (R398, R400, R451). -/
def execMma (lc : Fin 16) (slot : Fin 64) (s : State) : Done :=
  .next (s.issue lc slot [0x74] (fun s g w =>
      if g.active ≠ g.live then s.faultAll g 0x41
      else
        let vals := (List.range 256).map (fun i =>
          let row := i / 16
          let col := i % 16
          (256 * (2 * row + col / 8) + wD w + col % 8, g.mmaAt w row col))
        let op : MmaOp := { slot := slot.val, group := g.id, d := wD w, vals := vals, clks := if wMod w ≤ 1 then 4 else 2 }
        let s : State := { s with lcs := modifyAt (fun x => { x with mma := some op }) lc.val s.lcs }
        ((s.perfMac (lcUnit lc) (some g.cls) 4096).modGroup g.id (fun g => g.next)).finish g.id g.pc []))

/-- MMA_COMPLETE: the unit is free again, and D holds the result in the lanes that are live (R400, R451). -/
def execMmaComplete (lc : Fin 16) (s : State) : Done :=
  .next (match (s.lcore lc).mma with
    | none => s
    | some m =>
      let s : State := { s with lcs := modifyAt (fun x => { x with mma := none }) lc.val s.lcs }
      (s.bump (F.lcMmaBusy lc.val) m.clks).modGroup m.group (fun g =>
        m.vals.foldl (fun g e => if bit g.live (e.1 / 256) then g.setReg (e.1 / 256) (e.1 % 256) e.2 else g) g))

end Sys2Proof.Machine
end

