-- ==== Sys2Proof/Machine/LaneCtl.lean ====
section
/-! DEFINITION. Control instructions of the lane cores: branches, divergence, reconvergence and exit ("Lane Core Execution Model",
R385–R387; "Lane Core Instructions", R421, R446–R449). -/

namespace Sys2Proof.Machine

/-! ### Divergence (R385–R387, R446, R447) -/

/-- Entries that a divergence stack can hold: 48 without an overflow slot, 256 with one (R386). -/
def State.divLimit (s : State) : Nat := if s.ovfBytes = 0 then 48 else 256

/-- Whether a code offset is a target that control may go to (R446). -/
def State.targetOk (s : State) (g : Group) (t : Nat) : Bool := t % 8 == 0 && t < (s.progOf g.prog).codeLen

/-- A control transfer: `jumps` are the branching lanes with their targets, rising by target.  The lowest target runs first, the other
targets and then the lanes that fall through wait on the divergence stack, and lanes of a bad target raise PC_RANGE. -/
def State.transfer (s : State) (g : Group) (jumps : List (Nat × List Nat)) : State :=
  let (ok, bad) := jumps.partition (fun e => s.targetOk g e.1)
  let faults := bad.flatMap (fun e => e.2.map (fun l => (l, 0x4B)))
  let gone := jumps.flatMap (fun e => e.2)
  let fall := (lanesOf g.active).filter (fun l => !gone.contains l)
  let paths := ok.map (fun e => (maskOf e.2, e.1)) ++ (if fall.isEmpty then [] else [(maskOf fall, g.pc + 8)])
  match paths with
  | [] => s.finish g.id g.pc faults
  | p :: rest =>
    if g.divs.length + g.spilled + rest.length > s.divLimit then
      s.finish g.id g.pc (faults ++ (lanesOf g.active).filterMap (fun l =>
        if faults.any (fun e => e.1 == l) then none else some (l, 0x47)))
    else
      let lost := maskOf (faults.map (fun e => e.1))
      ((s.modGroup g.id (fun g => { g with active := p.1 ||| lost, pc := p.2 })).divPushAll g.id rest).finish g.id g.pc faults

/-- The branching lanes of a word with one target. -/
def oneTarget (t : Nat) (lanes : List Nat) : List (Nat × List Nat) := if lanes.isEmpty then [] else [(t, lanes)]

/-- BRA: lanes whose guard is true go to TARGET, the others fall through (R446). -/
def execBra (lc : Fin 16) (slot : Fin 64) (s : State) : Done :=
  .next (s.issue lc slot [0x60] (fun s g w => s.transfer g (oneTarget (wTarget w) (g.selected w))))

/-- CALL: as BRA; each branching lane also writes the offset of the next word to D (R446). -/
def execCall (lc : Fin 16) (slot : Fin 64) (s : State) : Done :=
  .next (s.issue lc slot [0x62] (fun s g w =>
    let l := if s.targetOk g (wTarget w) then g.selected w else []
    let s := s.modGroup g.id (fun g => l.foldl (fun g l => g.setReg l (wD w) (g.pc + 8)) g)
    s.transfer g (oneTarget (wTarget w) (g.selected w))))

/-- BRX: each lane whose guard is true goes to the code offset in its A, the lowest target first (R447). -/
def execBrx (lc : Fin 16) (slot : Fin 64) (s : State) : Done :=
  .next (s.issue lc slot [0x61] (fun s g w =>
    let sel := g.selected w
    let ts := (dedup (sel.map (fun l => g.reg l (wA w)))).mergeSort (fun a b => decide (a ≤ b))
    s.transfer g (ts.map (fun t => (t, sel.filter (fun l => g.reg l (wA w) == t))))))

/-- RMARK: (active mask, TARGET) is pushed (R385). -/
def execRmark (lc : Fin 16) (slot : Fin 64) (s : State) : Done :=
  .next (s.issue lc slot [0x64] (fun s g w =>
    if !s.targetOk g (wTarget w) then s.faultAll g 0x4B
    else if g.divs.length + g.spilled ≥ s.divLimit then s.faultAll g 0x47
    else ((s.modGroup g.id (fun g => g.next)).divPush g.id (g.active, wTarget w)).finish g.id g.pc []))

/-- RJOIN: the top entry is popped; at its own point its lanes continue, and else they run from its offset (R385, R448). -/
def execRjoin (lc : Fin 16) (slot : Fin 64) (s : State) : Done :=
  .next (s.issue lc slot [0x65] (fun s g _ =>
    match g.divs with
    | [] => s.faultAll g 0x47
    | e :: _ =>
      ((s.divPop g.id).modGroup g.id (fun g => { g with active := e.1, pc := if e.2 = g.pc then g.pc + 8 else e.2 })).finish
        g.id g.pc []))

/-! ### Exit (R369–R371, R407, R449) -/

/-- A lane that exits: a thread of a record launch that has not ended its item ends it, failed or, with no output queue, with a result;
a callout lane without a reply ends its ray with FAIL_PROG, cause NO_EMIT (R369, R370, R449). -/
def State.laneExit (s : State) (g : Group) (l : Nat) : State :=
  match g.lanes[l]? with
  | none => s
  | some x =>
    if x.ended then s
    else if g.launch = 3 then s
    else if g.launch ≥ 4 then s.laneFails g l stProg 0x4A
    else match s.stageFor g.disp g.stage with
      | some t => if t.out0 = 255 then (s.endItem g.disp x.item (lcUnit g.lc)).laneDone g.id l else s.laneFails g l stProg 0
      | none => s.laneFails g l stProg 0

/-- Lanes of a group exit: their items end, their locks are released, and they leave every mask (R385, R407). -/
def State.exitLanes (s : State) (g : Group) (l : List Nat) : State := (l.foldl (fun s l => s.laneExit g l) s).dropLanes g.id (maskOf l)

/-- EXIT: lanes whose guard is true exit (R446). -/
def execExit (lc : Fin 16) (slot : Fin 64) (s : State) : Done :=
  .next (s.issue lc slot [0x66] (fun s g w =>
    ((s.modGroup g.id (fun g => g.next)).exitLanes g (g.selected w)).finish g.id g.pc []))

/-- NOP: no effect (R446). -/
def execNop (lc : Fin 16) (slot : Fin 64) (s : State) : Done :=
  .next (s.issue lc slot [0x68] (fun s g w => s.lanewise g w (fun _ a => a)))

/-- UNDEFINED_WORD: an undefined word raises ILLEGAL, cause BAD_OPCODE, in every active lane (R421). -/
def execUndefinedWord (lc : Fin 16) (slot : Fin 64) (s : State) : Done :=
  .next (match s.ready lc slot with
    | none => s
    | some (g, w) => if wordDefined w then s else (s.issued g).faultAll g 0x42)

end Sys2Proof.Machine
end

