-- ==== Sys2Proof/Machine/LaneEmit.lean ====
section
/-! DEFINITION. Emits, output tiles, failed items and callout replies of the lane cores ("Lane Core Execution Model", R369–R373;
"Lane Core Instructions", R449, R452–R454). -/

namespace Sys2Proof.Machine

/-- EMIT: the selected lanes append one record each, in ascending lane order; a group whose queues lack room for all is not ready
(R369, R372, R373, R452, R454). -/
def execEmit (lc : Fin 16) (slot : Fin 64) (s : State) : Done :=
  .next (s.issueMod lc slot 0x78 (fun m => m != 2) (fun s g w =>
    match s.disp g.disp, s.stageFor g.disp g.stage with
    | some d, some t =>
      let x := s.emits g d t w
      if x.bad then (s.modGroup g.id (fun g => g.next)).finish g.id g.pc ((g.selected w).map (fun l => (l, 0x49)))
      else
        let s := (x.recs.zip x.flags).foldl (fun s e =>
          match g.lanes[e.1.1]? with
          | some y => (s.produce (lcUnit g.lc) g.disp t y.item e.2 0 (s.itemEnded g.disp y.item) e.1.2).laneDone g.id e.1.1
          | none => s) s
        (s.modGroup g.id (fun g => g.next)).finish g.id g.pc x.faults
    | _, _ => s))

/-- TOUT: reserves the next entry of the output tile queue and returns its FIELD offset in every active lane; it waits for room, and a
second TOUT returns the same offset (R453, R454). -/
def execTout (lc : Fin 16) (slot : Fin 64) (s : State) : Done :=
  .next (s.issue lc slot [0x7A] (fun s g w =>
    match s.disp g.disp, s.stageFor g.disp g.stage with
    | some d, some t =>
      if s.toutBad g d t then s.faultAll g 0x49
      else
        let place := s.toutPlace g d t
        let a := s.entryAddr d (place.getD 0) t.out0
        (s.modGroup g.id (fun g => (lanesOf g.active).foldl (fun g l => g.setReg l (wD w) a) { g.next with out := place })).finish
          g.id g.pc []
    | _, _ => s))

/-- EMIT.T: the tile at the reserved place is published whole, with the FIRST_ITEM and COUNT of the input tile; each newly set FAILED bit
ends its item with FAIL_PROG (R371, R372, R453, R454). -/
def execEmitT (lc : Fin 16) (slot : Fin 64) (s : State) : Done :=
  .next (s.issueMod lc slot 0x78 (fun m => m == 2) (fun s g _ =>
    match s.disp g.disp, s.stageFor g.disp g.stage, g.out with
    | some d, some t, some place =>
      if g.launch ≠ 3 ∨ g.tileDone = true then s.faultAll g 0x49
      else
        let a := s.entryAddr d place t.out0
        let old := leVal (s.sfGet (g.tile + 0x20) 32)
        let new := leVal (s.sfGet (a + 0x20) 32)
        let s := s.sfStore a (leBytes 4 g.tileFirst ++ leBytes 2 g.tileCount)
        let s := ((List.range g.tileCount).filter (fun v => bit new v && !bit old v)).foldl
          (fun s v => s.failItem g.disp (g.tileFirst + v) stProg (some (lcUnit g.lc))) s
        let e : QEntry := { pos := (d.hq t.out0).appended, slot := place, item := g.tileFirst, count := g.tileCount, flags := 0,
                            ended := false, held := false, ray := 0, used := 0, src := 0 }
        let s := s.modDisp g.disp (fun d => { d with queues := modifyAt (fun h =>
          { entries := h.entries ++ [e], appended := h.appended + 1 }) t.out0 d.queues })
        let s := (s.modGroup g.id (fun g => g.next)).tileDone g.id
        s.finish g.id g.pc []
    | _, _, _ => s.faultAll g 0x49))

/-- FAILITEM: ends the lane's item with FAIL_PROG (R369, R454). -/
def execFailitem (lc : Fin 16) (slot : Fin 64) (s : State) : Done :=
  .next (s.issue lc slot [0x79] (fun s g w =>
    let (again, fresh) := (g.selected w).partition (fun l =>
      decide (g.launch = 3) || (match g.lanes[l]? with | some x => x.ended | none => true))
    let s := fresh.foldl (fun s l => s.laneFails g l stProg 0x0D) s
    (s.modGroup g.id (fun g => g.next)).finish g.id g.pc (again.map (fun l => (l, 0x49)))))

/-- CRET: the callout's reply, code SUB[7:0] with T, U and V; then the lane exits (R216, R449, R454). -/
def execCret (lc : Fin 16) (slot : Fin 64) (s : State) : Done :=
  .next (s.issue lc slot [0x7B] (fun s g w =>
    let (again, fresh) := (g.selected w).partition (fun l =>
      decide (g.launch < 4) || (match g.lanes[l]? with | some x => x.ended | none => true))
    let s := fresh.foldl (fun s l =>
      match g.lanes[l]? with
      | some x => (s.replyTo x.ray false (wSub w % 256) (g.reg l (wA w)) (g.reg l (wB w)) (g.reg l (wC w))).laneDone g.id l
      | none => s) s
    ((s.modGroup g.id (fun g => g.next)).dropLanes g.id (maskOf fresh)).finish g.id g.pc (again.map (fun l => (l, 0x49)))))

end Sys2Proof.Machine
end

