-- ==== Sys2Proof/Machine/Groups.lean ====
section
/-! DEFINITION. Thread groups: gathering, admission to a lane core, and the code buffer ("Lane Core Execution Model", R364–R378;
"Lane Core Instructions", R422). -/

namespace Sys2Proof.Machine

/-! ### Threads that wait (R364, R365, R368)

A group that forms is named by a number `form`.  4·id names a group that has closed; 4·(32·dispatch + stage) + 1 names the threads that
wait at a GENERATE or PROGRAM stage; 4·(256·dispatch + 64·kind + program) + 2 names callouts that wait at a lane core. -/

/-- Threads that could form one group: the launch, the dispatch, stage, class and program, the lanes, the input tile, and whether the
group closes without waiting longer. -/
structure Gather where
  launch : Nat
  disp : Nat
  stage : Nat
  cls : Nat
  prog : Nat
  lanes : List LaneIn
  tile : Option QEntry
  full : Bool
  calls : List CallRec
deriving DecidableEq, Repr

/-- A lane that has no thread. -/
def LaneIn.idle : LaneIn := { item := 0, flags := 0, bytes := [], entry := none, tc := 0, ray := 0, ended := true }

/-- Threads that wait at a stage of a running dispatch. -/
def State.gatherStage (s : State) (id k : Nat) : Option Gather :=
  match s.disp id with
  | none => none
  | some d =>
    match s.chainOf d with
    | none => none
    | some c =>
      match c.stages[k]? with
      | none => none
      | some t =>
        let g : Gather := { launch := 0, disp := id, stage := k, cls := d.rcd.cls, prog := t.prog, lanes := [], tile := none,
                            full := false, calls := [] }
        if d.phase != .running || d.fixedStatus != 0 then none
        else if t.kind = 1 then
          let taken := ((d.stages[k]?).map (fun x => x.taken)).getD 0
          let n := min 32 (d.rcd.itemCount - taken)
          if n = 0 then none
          else some { g with
            launch := 1, full := true,
            lanes := (List.range n).map (fun i =>
              { item := taken + i, flags := 0, bytes := d.param, entry := none, tc := 0, ray := 0, ended := false }) }
        else if t.kind = 6 then
          let l := (d.hq t.input).entries.filter (fun e => !e.held && !e.marked)
          if s.entrySize d t.input = 65536 then l.head?.map (fun e => { g with launch := 3, full := true, tile := some e })
          else if l.isEmpty then none
          else some { g with
            launch := 2, full := l.length ≥ 32 || (l.length ≤ 32 && !s.moreInput d c t.input),
            lanes := (l.take 32).map (fun e =>
              { item := e.item, flags := e.flags, bytes := s.entryBytes d e.slot t.input, entry := some e.pos, tc := 0, ray := 0,
                ended := false }) }
        else none

/-- Callouts of one program, kind and dispatch that wait at a lane core; the group closes without waiting when no other ray of the
dispatch is left. -/
def State.gatherCalls (s : State) (lc id kind prog : Nat) : Option Gather :=
  let all := s.callouts.filter (fun c => c.lc == lc && c.disp == id && c.kind == kind && c.prog == prog)
  let l := all.take 32
  match l.head?, s.disp id with
  | some h, some d =>
    let stage := match s.ray h.ray with | some r => r.stage | none => 0
    let others := s.rays.any (fun r => r.disp == id && r.loc != .settled && r.loc != .ended && !l.any (fun c => c.ray == r.id))
    let comes := match s.chainOf d with | some c => s.comes d c 16 stage | none => false
    some { launch := 3 + kind, disp := id, stage := stage, cls := d.rcd.cls, prog := prog, tile := none, calls := l,
           full := l.length ≥ 32 || (all.length ≤ 32 && !others && !comes),
           lanes := l.map (fun c =>
             { item := (match s.ray c.ray with | some r => r.item | none => 0), flags := 0, bytes := c.bytes, entry := none, tc := c.tc,
               ray := c.ray, ended := false }) }
  | _, _ => none

/-- The threads that a form names. -/
def State.threadsOf (s : State) (lc form : Nat) : Option Gather :=
  let n := form / 4
  match form % 4 with
  | 1 => s.gatherStage (n / 32) (n % 32)
  | 2 => s.gatherCalls lc (n / 256) (n / 64 % 4) (n % 64)
  | _ => none

/-- The entry point of a launch (Table 99). -/
def Prog.entry (p : Prog) (launch : Nat) : Nat :=
  let i := if launch ≥ 4 ∧ p.entries.length > launch - 3 then launch - 3 else 0
  (p.entries[i]?).getD 0

/-- A lane whose input entry holds a poisoned line: its item fails with FAIL_UNC and the bank's name, and the entry is freed (R655). -/
def State.poisonLane (s : State) (g : Gather) (x : LaneIn) : Bool × State :=
  match s.disp g.disp, s.stageFor g.disp g.stage, x.entry with
  | some d, some t, some pos =>
    match (d.hq t.input).entries.find? (fun e => e.pos == pos) with
    | some e =>
      match s.readPoison (s.entryAddr d e.slot t.input) (s.entrySize d t.input) with
      | (some u, s) => (true, (s.failItem g.disp x.item stUnc (some u)).freeEntry g.disp t.input pos)
      | (none, s) => (false, s)
    | none => (false, s)
  | _, _, _ => (false, s)

/-- A group closes over its threads: their entries are held, GENERATE items are taken, callout records leave the callout buffer (R365,
R373, R425).  Answers the group's id. -/
def State.closeGroup (s : State) (lc : Nat) (x : Gather) : Nat × State :=
  let (lanes, s) := x.lanes.foldl (fun (r : List LaneIn × State) l =>
    match r.2.poisonLane x l with
    | (true, s) => (r.1, s)
    | (false, s) => (r.1 ++ [l], s)) ([], s)
  let d := s.disp x.disp
  let t := s.stageFor x.disp x.stage
  let s := match x.launch, t with
    | 1, some _ => s.modDisp x.disp (fun d => { d with stages := modifyAt (fun y =>
        { y with taken := y.taken + x.lanes.length, finished := decide (y.taken + x.lanes.length ≥ d.rcd.itemCount) }) x.stage d.stages })
    | 2, some t => (lanes.foldl (fun (s : State) (l : LaneIn) => match l.entry with | some p => s.holdEntry x.disp t.input p true | none => s) s).passMarked
        x.disp t.input
    | 3, some t => (match x.tile with | some e => s.holdEntry x.disp t.input e.pos true | none => s).passMarked x.disp t.input
    | _, _ => s
  let id := s.nextGroup
  let (a, f, n, p) := match x.tile, d, t with
    | some e, some d, some t => (s.entryAddr d e.slot t.input, e.item, e.count, e.pos)
    | _, _, _ => (0, 0, 0, 0)
  let g : Group :=
    { id := id, lc := lc, slot := none, disp := x.disp, stage := x.stage, cls := x.cls, prog := x.prog, launch := x.launch,
      open_ := false, age := 0, live := if x.launch = 3 then 2 ^ 32 - 1 else 2 ^ lanes.length - 1,
      active := if x.launch = 3 then 2 ^ 32 - 1 else 2 ^ lanes.length - 1, pc := (s.progOf x.prog).entry x.launch, divs := [], spilled := 0, regs := [],
      preds := List.replicate 7 0, lanes := lanes ++ List.replicate (32 - lanes.length) LaneIn.idle, tile := a, tileFirst := f,
      tileCount := n, tilePos := p, tileDone := false, out := none, frame := 0, frameLen := 0,
      counters := List.replicate 8 { issued := 0, done := 0 }, copies := [], wait := .none, locks := [], saved := false, saveRow := 0 }
  let s := { s with callouts := s.callouts.filter (fun c => !x.calls.contains c) }
  if lanes.isEmpty && x.launch != 3 then (id, s) else (id, { s with groups := s.groups ++ [g], nextGroup := id + 1 })

/-! ### Stages that no lane core is left to run (R648) -/

/-- Whether every lane core of a stage's mask is fenced. -/
def State.noCore (s : State) (t : Stage) : Bool :=
  t.tgMask % 256 != 0 && (List.range 16).all (fun l => !bit t.tgMask (l / 2) || s.fenced (lcUnit l))

/-- The last lane core of a stage's mask to be fenced. -/
def State.lastCore (s : State) (t : Stage) : EUnit :=
  s.lastFenced (fun u => match u with | .lc i => bit t.tgMask (i.val / 2) | _ => false) (lcUnit (2 * ((lowestBit 8 t.tgMask).getD 0)))

/-- A group not yet admitted gives up its items, which fail in unit `u`. -/
def State.failGroup (s : State) (g : Group) (u : EUnit) : State :=
  let s := if g.launch = 3 then
      if g.tileDone then s
      else ((s.tileLive g).foldl (fun s v => s.failItem g.disp (g.tileFirst + v) stFenced (some u)) s).tileDone g.id
    else (List.range g.lanes.length).foldl (fun s l =>
      match g.lanes[l]? with
      | some x => if x.ended then s else (s.failItem g.disp x.item stFenced (some u)).laneDone g.id l
      | none => s) s
  { s with groups := s.groups.filter (fun x => x.id != g.id) }

/-- Every item that waits at a GENERATE or PROGRAM stage fails with FAIL_FENCED when no lane core of its mask is in service. -/
def State.failLaneStage (s : State) (id k : Nat) : State :=
  match s.disp id, s.stageFor id k with
  | some d, some t =>
    if !((t.kind == 1 || t.kind == 6) && s.noCore t && d.phase == .running && d.fixedStatus == 0) then s
    else
      let u := s.lastCore t
      let s := (s.groups.filter (fun g => g.disp == id && g.stage == k && g.launch < 4 && g.slot.isNone)).foldl (fun s g => s.failGroup g u) s
      if t.kind = 1 then
        let taken := ((d.stages[k]?).map (fun x => x.taken)).getD 0
        let s := s.modDisp id (fun d => { d with stages := modifyAt (fun y => { y with taken := d.rcd.itemCount, finished := true }) k d.stages })
        s.failItems id taken (d.rcd.itemCount - taken) stFenced (some u)
      else
        ((d.hq t.input).entries.filter (fun e => !e.held)).foldl (fun s e =>
          (s.failItems id e.item e.count stFenced (some u)).freeEntry id t.input e.pos) s
  | _, _ => s

/-- GROUP_CLOSE_TIMEOUT: GATHER clocks have passed since the first thread of a forming group was assigned, and it closes over the
threads it has (R365). -/
def State.groupTimeout (s : State) (lc form : Nat) : State :=
  match s.threadsOf lc form with
  | some x =>
    match s.stageFor x.disp x.stage with
    | some t =>
      if x.launch < 4 && s.noCore t then s.failLaneStage x.disp x.stage
      else if x.full then s else (s.closeGroup lc x).2
    | none => s
  | none => s

/-! ### Admission (R366, R374–R378) -/

/-- The groups resident on a lane core. -/
def State.resident (s : State) (lc : Nat) : List Group := s.groups.filter (fun g => g.lc == lc && g.slot.isSome && !g.saved)

/-- What a lane core has free: the split in force, its slots in use, its free register blocks and its frames. -/
structure Room where
  split : Nat
  slots : Nat
  blocks : Nat
  frames : List (Nat × Nat)

/-- The lowest free run of a local store that holds `n` bytes (R376). -/
def Room.run (r : Room) (n : Nat) : Option Nat :=
  leastBy (fun a b => decide (a < b)) ((0 :: r.frames.map (fun f => f.1 + f.2)).filter (fun a =>
    a + n ≤ localBytes r.split && r.frames.all (fun f => a + n ≤ f.1 || f.1 + f.2 ≤ a)))

/-- One group more of a program, and its frame. -/
def Room.add (r : Room) (p : Prog) : Option (Room × Nat) :=
  if r.slots < 64 ∧ p.regs ≤ r.blocks then
    (r.run p.frame).map (fun a => ({ r with slots := r.slots + 1, blocks := r.blocks - p.regs, frames := r.frames ++ [(a, p.frame)] }, a))
  else none

/-- What a lane core has free now; an empty core takes the split of program `p` (R375). -/
def State.room (s : State) (lc : Nat) (p : Prog) : Room :=
  let gs := s.resident lc
  { split := if gs.isEmpty then p.split else (s.lcore lc).split, slots := gs.length,
    blocks := 2048 - gs.foldl (fun n g => n + (s.progOf g.prog).regs) 0, frames := gs.map (fun g => (g.frame, g.frameLen)) }

/-- The callout programs that the reserve of R377 counts at a lane core of the given split, rising. -/
def State.reserved (s : State) (lc split : Nat) : List Nat :=
  match s.active with
  | none => []
  | some im =>
    let travs := (im.chains.flatMap (fun c => c.stages)).filter (fun t => t.kind == 3 && bit t.tgMask (lc / 2))
    let ps := dedup ((travs.filterMap (fun t => im.travs[t.settings]?)).flatMap (fun v => [v.anyhit, v.isect, v.refine]))
    (ps.filter (fun p => p != 255 && (match im.progs[p]? with | some h => h.split == split | none => false))).mergeSort
      (fun a b => decide (a ≤ b))

/-- The frame that a group of program `p` would get at a lane core that can admit it now (R374, R377). -/
def State.admission (s : State) (lc p : Nat) (stage : Bool) : Option Nat :=
  let h := s.progOf p
  let r := s.room lc h
  if r.split ≠ h.split ∨ ((s.resident lc).filter (fun g => g.prog == p)).length ≥ h.maxGroups then none
  else match r.add h with
    | none => none
    | some (r, a) =>
      let fits := (s.reserved lc r.split).foldl (fun (x : Option Room) q => x.bind (fun r => (r.add (s.progOf q)).map (fun e => e.1))) (some r)
      if stage && fits.isNone then none else some a

/-- The lane core that a stage group goes to: of the stage's groups, admitting the class, able to admit it, fewest groups (R366). -/
def State.stageCore (s : State) (mask cls prog : Nat) : Option Nat :=
  leastBy (fun a b => decide ((s.resident a).length < (s.resident b).length))
    ((List.range 16).filter (fun l => bit mask (l / 2) && s.mayWork (lcUnit l) cls && (s.admission l prog true).isSome))

/-- A group that waits for admission: its form, class, whether it is a callout group, and its order of formation. -/
structure Waiting where
  form : Nat
  cls : Nat
  call : Bool
  ord : Nat

/-- Whether lane core `lc` can admit a waiting group now. -/
def State.admits (s : State) (lc : Nat) (call : Bool) (disp stage cls prog : Nat) : Bool :=
  if call then s.mayWork (lcUnit lc) cls && (s.admission lc prog false).isSome
  else match s.stageFor disp stage with
    | some t => s.stageCore t.tgMask cls prog == some lc
    | none => false

/-- The groups that lane core `lc` can admit: closed ones, then those that close at once (R365, R378). -/
def State.waitingAt (s : State) (lc : Nat) : List Waiting :=
  let closed := (s.groups.filter (fun g => g.slot.isNone && (g.launch < 4 || g.lc == lc) &&
    s.admits lc (decide (g.launch ≥ 4)) g.disp g.stage g.cls g.prog)).map (fun g =>
      { form := 4 * g.id, cls := g.cls, call := decide (g.launch ≥ 4), ord := g.id })
  let forms := dedup ((s.callouts.filter (fun c => c.lc == lc)).map (fun c => 4 * (256 * c.disp + 64 * c.kind + c.prog) + 2)) ++
    s.disps.flatMap (fun d => (List.range d.stages.length).map (fun k => 4 * (32 * d.id + k) + 1))
  closed ++ forms.filterMap (fun f =>
    match s.threadsOf lc f with
    | some x =>
      if x.full && s.admits lc (decide (x.launch ≥ 4)) x.disp x.stage x.cls x.prog then
        some { form := f, cls := x.cls, call := decide (x.launch ≥ 4), ord := s.nextGroup }
      else none
    | none => none)

/-- The order of admission (R378). -/
def Waiting.before (a b : Waiting) : Bool :=
  if a.cls ≠ b.cls then decide (a.cls < b.cls)
  else if a.call ≠ b.call then a.call
  else decide (a.ord < b.ord)

/-- A closed group takes its slot, blocks and frame on a lane core; a split that changes invalidates the cache part (R374–R376).  It takes
the slot of a preempted group only where no other is free, since that group's overflow slot goes with it (log entry 85). -/
def State.admitGroup (s : State) (lc id : Nat) : State :=
  match s.group id with
  | none => s
  | some g =>
    match s.admission lc g.prog (decide (g.launch < 4)) with
    | none => s
    | some a =>
      let h := s.progOf g.prog
      let used := (s.resident lc).filterMap (fun g => g.slot)
      let kept := (s.groups.filter (fun g => g.lc == lc && g.saved)).filterMap (fun g => g.slot)
      let free := (List.range 64).filter (fun i => !used.contains i)
      let slot := (((free.filter (fun i => !kept.contains i)) ++ free).head?).getD 0
      let n := (s.lcore lc).admitted
      let s := { s with lcs := modifyAt (fun l =>
        { l with cache := if l.split = h.split then l.cache else [], split := h.split, admitted := n + 1 }) lc s.lcs }
      s.modGroup id (fun g => { g with lc := lc, slot := some slot, frame := a, frameLen := h.frame, age := n })

/-- GROUP_ADMIT: the lane core admits the group that comes first of those it can admit (R364–R366, R374–R378). -/
def State.groupAdmitted (s : State) (lc form : Nat) : State :=
  match leastBy (fun (a b : Waiting) => a.before b) (s.waitingAt lc) with
  | none => s
  | some w =>
    if w.form ≠ form then s
    else if form % 4 = 0 then s.admitGroup lc (form / 4)
    else match s.threadsOf lc form with
      | none => s
      | some x => let (id, s) := s.closeGroup lc x; s.admitGroup lc id

/-! ### The code buffer (R422) -/

/-- CODE_LINE_ARRIVE: a line of code, whose page is mapped, arrives in the code buffer, the oldest of 128 lines making room; an aborted fetch ends the active
lanes of every group that waits for the line with PAGE, and an uncorrectable one with UNC. -/
def State.codeArrives (s : State) (lc : Fin 16) (addr : Nat) (r : ReadOutcome) : State :=
  let line := addr / 128
  let wait := (s.resident lc.val).filter (fun g => s.codeLine g == line && (s.codeWord g).isNone)
  if wait.isEmpty || !s.inService (lcUnit lc.val) || (r != .abort && !s.maps (48 + lc.val) (128 * line) 128 false) ||
      s.fwaits.any (fun w => match w.acc with | .code l k => l == lc && wait.any (fun g => g.slot == some k.val) | _ => false) then s
  else match r with
    | .ok =>
      let s := s.carry (48 + lc.val) (wait.foldl (fun n g => min n g.cls) 3) (128 * line) 128 false false
      let bs := s.memGet (128 * line) 128
      { s with lcs := modifyAt (fun l =>
          { l with code := l.code.drop (if l.code.length ≥ 128 then 1 else 0) ++ [(line, bs)] }) lc.val s.lcs }
    | .abort => wait.foldl (fun s g => s.faultAll g 0x4C) s
    | .unc =>
      let k := ((wait.head?.bind (fun g => g.slot)).getD 0) % 64
      wait.foldl (fun s g => s.faultAll g 0x4D) (s.uncRead (.code lc ⟨k, Nat.mod_lt _ (by decide)⟩) (128 * line))

end Sys2Proof.Machine
end

