-- ==== Sys2Proof/Machine/Query.lean ====
section
/-! DEFINITION. Queries in the traversal clusters, gather blocks and candidate scoring ("Spatial Queries and Attention
Retrieval"). -/

namespace Sys2Proof.Machine

/-! ### A query's own view (Table 77) -/

/-- Fields of a query record. -/
def Ray.dims (r : Ray) : Nat := le r.rcd 0 1
def Ray.ball (r : Ray) : Bool := le r.rcd 1 1 == 1
def Ray.nearest (r : Ray) : Bool := le r.rcd 2 1 == 0
def Ray.kOf (r : Ray) : Nat := le r.rcd 3 1
def Ray.pAt (r : Ray) (a : Nat) : Dy := valF fp16 (le r.rcd (0x10 + 2 * a) 2)
def Ray.qAt (r : Ray) (a : Nat) : Dy := valF fp16 (le r.rcd (0x20 + 2 * a) 2)
def Ray.radius2 (r : Ray) : Nat := le r.rcd 0x30 4

/-- n of R288: the entries that a query's list may hold. -/
def QryCfg.listMax (q : QryCfg) (r : Ray) : Nat := if q.output = 1 then q.candMax else r.kOf

/-- bound() of R290. -/
def Ray.bound (r : Ray) (n : Nat) : Nat :=
  if r.nearest && r.list.length == n then (match r.list.getLast? with | some e => e.2 | none => r.radius2) else r.radius2

/-- The sum of squares, exact. -/
def sumSquares (l : List Dy) : Dy := l.foldl (fun s d => s.add (d.mul d)) ⟨0, 0⟩

/-- mind2_down of a box (R290). -/
def Ray.minD2 (r : Ray) (lo hi : List Dy) : Nat :=
  let axis := fun a =>
    let l := ((lo[a]?).getD ⟨0, 0⟩).sub (r.pAt a)
    let h := (r.pAt a).sub ((hi[a]?).getD ⟨0, 0⟩)
    if l.n > 0 then l else if h.n > 0 then h else ⟨0, 0⟩
  roundDy fp32 3 false (sumSquares ((List.range r.dims).map axis))

/-- d(p) of R287. -/
def Ray.dist2 (r : Ray) (p : List Nat) : Nat :=
  roundDy fp32 0 false (sumSquares ((List.range r.dims).map (fun a => (valF fp16 (nth p a)).sub (r.pAt a))))

/-- Whether a BOX query overlaps a box, exact. -/
def Ray.overlaps (r : Ray) (lo hi : List Dy) : Bool :=
  (List.range r.dims).all (fun a =>
    Dy.le ((lo[a]?).getD ⟨0, 0⟩) (r.qAt a) && Dy.le (r.pAt a) ((hi[a]?).getD ⟨0, 0⟩))

/-- Whether a key lies inside, with its distance `d` for a BALL (R286). -/
def Ray.inside (r : Ray) (p : List Nat) (d : Nat) : Bool :=
  if r.ball then leF fp32 d r.radius2
  else (List.range r.dims).all (fun a => Dy.le (r.pAt a) (valF fp16 (nth p a)) && Dy.le (valF fp16 (nth p a)) (r.qAt a))

/-- A key put into a list that keeps `n` entries: by distance, then index, for NEAREST; by index for RANGE (R288). -/
def insertKeyed (near : Bool) (n : Nat) (e : Nat × Nat) (l : List (Nat × Nat)) : List (Nat × Nat) :=
  let before := fun (a b : Nat × Nat) => if near && !eqF fp32 a.2 b.2 then ltF fp32 a.2 b.2 else decide (a.1 < b.1)
  let first := l.takeWhile (fun x => !before e x)
  (first ++ e :: l.drop first.length).take n

/-! ### Key nodes and key blocks (R276–R280) -/

/-- A key-node child as a stack entry, with the cause with which it fails when entered (R277). -/
def keyEntry (ref treelet te : Nat) : SEntry :=
  let typ := bits ref 61 3
  let t := bits ref 41 20
  let off := bits ref 31 10
  { exit := false, typ := typ, treelet := t, offset := off, count := bits ref 28 3, raw := bit ref 27, te := te,
    bad := if typ = 2 ∧ (bit ref 27 = true ∨ t ≠ treelet) then 3 else if typ = 1 ∧ off % 4 ≠ 0 then 3 else 0 }

/-- The children of a key node that a query visits, nearest first, or the cause with which it fails (R290). -/
def keyChildren (r : Ray) (b : List Byte) (bound : Nat) : Except Nat (List SEntry) :=
  let axes := List.range r.dims
  if axes.any (fun a => le b (0x10 + a) 1 == 0 || le b (0x10 + a) 1 == 255 || !isFin fp16 (le b (2 * a) 2)) then .error 4
  else
    let ref := fun c => le b (0xA0 + 8 * c) 8
    if (List.range 8).any (fun c => bits (ref c) 61 3 ≥ 3) then .error 3
    else
      let box := fun (o c add : Nat) =>
        axes.map (fun a => (boundOf fp16 (le b (2 * a) 2) (le b (o + 8 * a + c) 1 + add) (le b (0x10 + a) 1)).dy)
      let cand := (List.range 8).filterMap (fun c =>
        let e := keyEntry (ref c) r.treelet 0
        let emptyBox := axes.any (fun a => le b (0x20 + 8 * a + c) 1 > le b (0x60 + 8 * a + c) 1)
        if e.typ = 0 || emptyBox then none
        else
          let lo := box 0x20 c 0
          let hi := box 0x60 c 1
          if r.ball then
            let d := r.minD2 lo hi
            if leF fp32 d bound then some { e with te := d } else none
          else if r.overlaps lo hi then some e else none)
      .ok (cand.foldl (fun acc e =>
        let before := acc.takeWhile (fun (x : SEntry) => leF fp32 x.te e.te)
        before ++ e :: acc.drop before.length) [])

/-- The keys of a key block tested in order: the query with its list and count, or none at a key index out of range. -/
def keyTests (r : Ray) (n keys : Nat) (b : List Byte) : Nat → Nat → Option Ray
  | _, 0 => some r
  | j, k + 1 =>
    let idx := le b (0x10 + 20 * j) 4
    let p := (List.range 8).map (fun a => le b (0x14 + 20 * j + 2 * a) 2)
    if !((List.range r.dims).all (fun a => isFin fp16 (nth p a))) then keyTests r n keys b (j + 1) k
    else if idx ≥ keys then none
    else
      let d := if r.ball then r.dist2 p else 0
      if !r.inside p d then keyTests r n keys b (j + 1) k
      else
        let r := { r with total := min (r.total + 1) 0xFFFFFFFF, list := insertKeyed r.nearest n (idx, d) r.list }
        keyTests r n keys b (j + 1) k

/-- The spill-line accesses of a changed list: 16 entries to a line, in lines 10 to 13 (R292). -/
def State.listAccess (s : State) (r r' : Ray) : List (Nat × Bool × Bool) :=
  if r'.list = r.list ∧ r'.total = r.total then []
  else ((List.range 4).filter (fun j => 16 * j < max 1 r'.list.length)).map (fun j =>
    (s.spillAddr r (10 + j), true, !bit r.lines (10 + j)))

/-- A step's outcome committed once its spill-line accesses go through; a query with nothing left ends (R290, R295). -/
def State.queryCommit (s s0 : State) (r r' : Ray) (tc p : Nat) : State :=
  let acc := s.stackAccess r r.stack.length r'.stack.length ++ s.listAccess r r'
  match s.spillFails r tc acc, s.spcAccess tc p acc with
  | some s, _ => s
  | none, (false, _) => (s0.spcAccess tc p acc).2
  | none, (true, s) =>
    let lines := stackLines r'.lines r'.stack.length
    let lines := (List.range 4).foldl (fun l j => if 16 * j < r'.list.length then withBit l (10 + j) true else l) lines
    let r' := { r' with loc := .ctx, tc := tc, pipe := p, lines := lines }
    let s := s.modRay r.id (fun _ => r')
    if r'.stack.isEmpty && r'.leaf.isNone then s.endQuery r' stOk none else s

/-- A key block of the leaf at hand (R278, R279). -/
def State.queryBlock (s : State) (r0 r : Ray) (n tc p : Nat) (l : Leaf) : State :=
  let (slot, size) := s.slotOf r
  let off := l.entry.offset * 64 + 256 * l.blk
  if off + 256 > size then s.walkFail r tc 2
  else if s.tsBad tc slot off 256 then s.walkUnc r tc
  else match s.ncRead tc 4 slot off 256 with
    | (none, s') => s'
    | (some b, s') =>
      let count := le b 0 1
      if count = 0 ∨ count > 12 then s'.walkFail r tc 5
      else
        let s' := (s'.bump F.qryKeyTests count).perf 4 (tcUnit tc) (some r.cls) count
        match keyTests r n (fieldOf (s.descOf r).2 24 4) b 0 count with
        | none => s'.walkFail r tc 0x22
        | some r' =>
          s'.queryCommit s r0 { r' with leaf := if l.blk < l.entry.count then some { l with blk := l.blk + 1 } else none } tc p

/-- QUERY_NODE_STEP: entries beyond the bound are dropped, and the query is walked through the next key node or key block
(R290). -/
def State.queryNodeStep (s : State) (tc p id : Nat) : State :=
  match s.ray id with
  | none => s
  | some r0 =>
    match s.rayStage r0 with
    | none => s
    | some t =>
      if !r0.query || !s.mayStep r0 tc p then s
      else match s.resume r0 tc with
      | (false, s) => s
      | (true, s) =>
        let n := (s.qryOf t).listMax r0
        let ref := descRoot (s.descOf r0).2
        let root : SEntry := { exit := false, bad := 0, typ := 1, treelet := refTreelet ref, offset := refOffset ref, count := 0,
                               raw := true, te := 0 }
        let r := if r0.started then r0 else { r0 with started := true, stack := [root] }
        match r.leaf with
        | some l => s.queryBlock r0 r n tc p l
        | none =>
          match r.stack.dropWhile (fun e => r.ball && ltF fp32 (r.bound n) e.te) with
          | [] => s.queryCommit s r0 { r with stack := [] } tc p
          | e :: rest =>
            let r := { r with stack := rest }
            if e.bad ≠ 0 then s.walkFail r tc e.bad
            else if e.treelet ≠ r.treelet then s.rebin { r with stack := e :: rest } tc e
            else if e.typ = 2 then s.queryBlock r0 r n tc p { entry := e, blk := 0, idx := 0, bytes := [], seq := 0 }
            else
              let (slot, size) := s.slotOf r
              let off := e.offset * 64
              if off % 256 ≠ 0 ∨ off + 256 > size then s.walkFail r tc 2
              else if s.tsBad tc slot off 256 then s.walkUnc r tc
              else match s.ncRead tc p slot off 256 with
                | (none, s') => s'
                | (some b, s') =>
                  let s' := (s'.bump F.qryNodeSteps 1).perf 3 (tcUnit tc) (some r.cls) 1
                  match keyChildren r b (r.bound n) with
                  | .error c => s'.walkFail r tc c
                  | .ok l =>
                    let st := l ++ rest
                    if st.length > 136 then s'.walkFail r tc 9
                    else s'.queryCommit s r0 { r with stack := st, nodes := r.nodes + 1 } tc p

/-- GATHER_BLOCK_TIMEOUT: the open blocks of a dispatch close (R299). -/
def State.gatherTimeout (s : State) (id : Nat) : State :=
  (s.gblocks.filter (fun b => b.disp == id && !b.closed)).foldl (fun s b => s.closeBlock b.id) s

/-! ### Candidate scoring (R301–R306) -/

/-- The array format of a VEC_FORMAT and its element bytes (Table 74). -/
def vecFmt (f : Nat) : Nat := match f with | 0 => 10 | 1 => 11 | 2 => 2 | 3 => 3 | _ => 0
def vecBytes (f : Nat) : Nat := if f ≤ 1 then 2 else 1

/-- The score of a candidate for a query: one K-slice of 128 dimensions after the other, as the array forms them (R301, R303). -/
def scoreOf (fmt dim : Nat) (q k : List Fv) : Nat :=
  let c : MxClass := if fmt ≤ 1 then .c16 else .c8
  let pad := fun (l : List Fv) => l ++ List.replicate (128 - l.length) (Fv.fin false 0 0)
  let slice := fun i => sliceSum c ((pad ((q.drop (128 * i)).take 128)).map some) (pad ((k.drop (128 * i)).take 128))
  if fmt = 4 then
    let acc := (List.range (ceilDiv dim 128)).foldl (fun a i => (accInt a (slice i)).1) 0
    fOfInt 0 (signed 32 acc)
  else (List.range (ceilDiv dim 128)).foldl (fun a i => accFp a (slice i)) 0

/-- The distinct candidate indices of a block, rising (R300). -/
def GBlock.union (b : GBlock) : List Nat := (dedup (b.queries.flatMap (fun q => q.cands))).mergeSort (fun a b => decide (a ≤ b))

/-- One query of a scored block ends with its result record: its SCORED list, or a failure with its status and the unit that failed it
(R304, R306). -/
def State.endScored (s : State) (d : Dispatch) (t : Stage) (b : GBlock) (q : GQuery) : State :=
  let ok := q.status == stOk
  let u := (EUnit.ofCode q.kind q.index).getD .query
  let bytes := q.list.flatMap (fun e => leBytes 4 e.2 ++ leBytes 4 e.1)
  let rcd := leBytes 4 q.qid ++ leBytes 4 q.item ++ leBytes 4 (if ok then q.total else 0) ++ leBytes 1 q.list.length ++
    leBytes 1 q.status ++ leBytes 1 1 ++ leBytes 1 (boolNat (ok && q.truncated)) ++ leBytes 4 b.union.length ++ List.replicate 12 0
  let s := if q.cause = 0 then s else s.qryCapture q.status q.cause (some u) q.qid 0
  let s := if q.cause ≠ 0 ∧ q.status = stProg then s.capture 9 (some u) 0 else s
  let s := s.writeResult d q.item rcd bytes
  let s := if ok || s.itemEnded d.id q.item then s else s.failItem d.id q.item q.status (some u)
  s.produce u d.id t q.item 0 0 (!ok) rcd

/-- The queries of a scored block from its `done`-th on, ended in turn while the stage's output has room. -/
def State.scoreEnds (s : State) (id blk : Nat) (t : Stage) : List GQuery → State
  | [] => s
  | q :: rest =>
    match s.disp id, s.gblocks.find? (fun b => b.id == blk) with
    | some d, some b =>
      if t.out0 != 255 && !s.hasRoom d t.out0 then s
      else
        let s := s.endScored d t b q
        State.scoreEnds { s with gblocks := s.gblocks.map (fun (x : GBlock) => if x.id == blk then { x with done := x.done + 1 } else x) } id blk t rest
    | _, _ => s

/-- What a block's scoring needs of its dispatch's key set: VEC_FORMAT, SCORE_DIM, VEC_DIM and the place of key vector `k` (R275, R302). -/
structure ScoreSet where
  fmt : Nat
  dim : Nat
  vecDim : Nat
  base : Nat
  stride : Nat

/-- The scoring data of a QUERY stage of a dispatch. -/
def State.scoreSet (s : State) (d : Dispatch) (src : Stage) : ScoreSet :=
  let ks := d.ksDesc.getD []
  { fmt := fieldOf ks 3 1, dim := (s.qryOf src).scoreDim, vecDim := fieldOf ks 28 2, base := fieldOf ks 32 8, stride := fieldOf ks 40 4 }

/-- The bytes of a vector that are fetched. -/
def ScoreSet.bytes (c : ScoreSet) : Nat := c.dim * vecBytes c.fmt

/-- The failed read of vector `i` among `lost`: a query vector (`kind` 1) or a candidate; its lowest bit tells an uncorrectable one. -/
def lostRead (lost : List Nat) (i kind : Nat) : Option Nat := lost.find? (fun x => x / 4 == i && x / 2 % 2 == kind)

/-- The vectors of a block that are fetched: of every query that has not failed, and of every candidate (R302). -/
def GBlock.reads (b : GBlock) (c : ScoreSet) : List (Nat × Nat × Access × Nat) :=
  ((List.range b.queries.length).filterMap (fun j => (b.queries[j]?).bind (fun q =>
    if q.status = stOk then some (j, 1, Access.vector b.disp b.id q.item, q.qvec) else none))) ++
  ((List.range b.union.length).filterMap (fun i => (b.union[i]?).map (fun k =>
    (i, 0, Access.candidate b.disp b.id i, c.base + k * c.stride))))

/-- Query `j` of a block as the scoring leaves it (R303–R306): a failure of its own or of the whole block (`fixed`), or its SCORED list. -/
def State.judge (s : State) (b : GBlock) (c : ScoreSet) (lost : List Nat) (u : EUnit) (fixed : Option (Nat × Nat × EUnit)) (q : GQuery)
    (j : Nat) : GQuery :=
  let fail := fun (st cause : Nat) (u : EUnit) => { q with status := st, kind := u.kind, index := u.index, cause := cause, list := [] }
  let bad := match lostRead lost j 1 with
    | some x => some x
    | none => (q.cands.filterMap (fun k => (b.union.findIdx? (· == k)).bind (fun i => lostRead lost i 0))).head?
  if q.status ≠ stOk then q
  else match fixed with
    | some f => fail f.1 f.2.1 f.2.2
    | none =>
      if c.vecDim < c.dim then fail stProg 0x23 .query
      else match bad with
        | some x => if x % 2 = 1 then fail stUnc 0x11 u else fail stPage 0x10 u
        | none =>
          let read := fun a => slotElems (vecFmt c.fmt) c.dim (s.memGet a c.bytes)
          let qv := read q.qvec
          { q with list := topK q.k (q.cands.map (fun k => (scoreOf c.fmt c.dim qv (read (c.base + k * c.stride)), k))) }

/-- The query vectors of a block as stationary weights, for dimensions 128·i to 128·i + 127: one column per query, one row per dimension,
padded with zeros (R301). -/
def scoreTile (b : GBlock) (w : Nat) (vecs : List (List Byte)) (i : Nat) : HalfW :=
  let cell := fun (v : List Byte) (r : Nat) => let x := (v.drop ((128 * i + r) * w)).take w; x ++ List.replicate (w - x.length) 0
  { query := true, next := none, batch := b.id, layer := 0, kslice := i, nblk := 0, attr := [],
    data := (List.range 128).flatMap (fun r => vecs.flatMap (fun v => cell v r) ++ List.replicate ((128 - vecs.length) * w) 0) }

/-- A quadrant after it has scored a block: the query vectors stand in its halves and it has taken its SWAP steps (R301, R315).  The first
dimensions go into the half that is idle, or into the active one of a quadrant that has applied no tile yet. -/
def State.scoreQuadrant (s : State) (q : Fin 8) (b : GBlock) (c : ScoreSet) : State :=
  let x := (s.quads[q.val]?).getD Quad.init
  let act := bit (s.get (F.mxHalf (q.val / 4))) (q.val % 4)
  let h := if x.applied then !act else act
  let w := vecBytes c.fmt
  let vecs := b.queries.map (fun v => if v.status = stOk then s.memGet v.qvec c.bytes else [])
  let put := fun (x : Quad) (h : Bool) (w : HalfW) => if h then { x with half1 := some w } else { x with half0 := some w }
  let x := { put x h (scoreTile b w vecs 0) with applied := true }
  let two := decide (c.dim > 128)
  let x := if two then put x (!h) (scoreTile b w vecs 1) else x
  State.setBit { s with quads := modifyAt (fun _ => x) q.val s.quads } (F.mxHalf (q.val / 4)) (q.val % 4) (if two then !h else h)

/-- A gather tile is scored (R301–R306): its vectors are fetched by the stream engine of R251, its scores formed in a quadrant, and every query
of it judged.  Whether the tile holds a poisoned line is asked first (R655). -/
def State.scoreBlock (s : State) (d : Dispatch) (src : Stage) (b : GBlock) (q : Fin 8) (lost : List Nat) (fixed : Option (Nat × Nat × EUnit)) :
    State :=
  let c := s.scoreSet d src
  let go := fixed.isNone && !decide (c.vecDim < c.dim)
  let b' := { b with scored := true, queries := (b.queries.zip (List.range b.queries.length)).map (fun e =>
    s.judge b c lost (.quad q) fixed e.1 e.2) }
  let s := { s with gblocks := s.gblocks.map (fun (x : GBlock) => if x.id == b.id then b' else x) }
  if !go then s
  else
    let s := (b.reads c).foldl (fun (s : State) (x : Nat × Nat × Access × Nat) => s.readEnds x.2.2.1 d.rcd.cls x.2.2.2 c.bytes
      (match lostRead lost x.1 x.2.1 with | some y => if y % 2 = 1 then .unc else .abort | none => .ok)) s
    let macs := b.union.length * 16384 * ceilDiv c.dim 128
    let s := (s.perfMac (.quad q) (some d.rcd.cls) macs).tally2 (F.mxMacLo (q.val / 4)) (F.mxMacHi (q.val / 4)) macs
    if b.union.isEmpty then s else s.scoreQuadrant q b c

/-- Whether every fetch of a block can end as the command tells it: none waits on a fault record, and each not aborted can be made. -/
def State.scoreReady (s : State) (b : GBlock) (c : ScoreSet) (lost : List Nat) : Bool :=
  !s.fwaits.any (fun w => match w.acc with
    | .vector d' b' _ => d' == b.disp && b' == b.id
    | .candidate d' b' _ => d' == b.disp && b' == b.id
    | _ => false) &&
  (decide (c.vecDim < c.dim) || (b.reads c).all (fun x => match lostRead lost x.1 x.2.1 with
    | some y => y % 2 == 0 || s.reaches x.2.2.1 x.2.2.2 c.bytes false
    | none => s.reaches x.2.2.1 x.2.2.2 c.bytes false))

/-- SCORE_BLOCK_DONE: the quadrant that a gather tile went to has scored it, and its queries end as the stage's output has room
(R304, R306).  With no quadrant of QUAD_MASK in service they end with FAIL_FENCED.  A block whose queries have all ended leaves its queue,
and their queue entries are freed (R243, R293). -/
def State.scoreBlockDone (s : State) (id blk : Nat) (quad : Fin 8) (lost : List Nat) : State :=
  match s.disp id, s.gblocks.find? (fun b => b.id == blk && b.disp == id && b.closed) with
  | some d, some b =>
    match s.chainOf d, s.stageFor id b.stage with
    | some c, some src =>
      match c.stages.findIdx? (fun t => t.kind == 5 && t.input == src.out0) with
      | none => s
      | some k =>
        match c.stages[k]?, (d.hq src.out0).entries.find? (fun e => e.flags == blk) with
        | some t, some e =>
          let none' := (List.finRange 8).all (fun q => !(bit t.quadMask q.val && s.inService (.quad q)))
          let mine := match b.quad with | some q => q == quad.val | none => s.scoreQuad d src == some quad.val
          let all := lost ++ b.lost
          if !b.scored && !none' && (!mine || !s.mayWork (.quad quad) d.rcd.cls || !s.scoreReady b (s.scoreSet d src) all) then s
          else
            let s :=
              if b.scored then s
              else
                let (bad, s) := s.readPoison (s.entryAddr d e.slot src.out0) 0xD040
                let fixed := if none' then some (stFenced, 0x12, s.lastFenced (fun u => match u with | .quad q => bit t.quadMask q.val | _ => false) (.quad quad))
                  else match bad with | some v => some (stUnc, 0x11, v) | none => none
                s.scoreBlock d src b quad all fixed
            let left := match s.gblocks.find? (fun x => x.id == blk) with | some x => x.queries.drop x.done | none => []
            let s := s.scoreEnds id blk t left
            match s.gblocks.find? (fun x => x.id == blk) with
            | some x =>
              if x.done ≥ x.queries.length then
                let s := x.queries.foldl (fun s q => s.dropRay q.ray) s
                (State.freeEntry { s with gblocks := s.gblocks.filter (fun x => x.id != blk) } id src.out0 e.pos).flushRays.tidyQueues
              else s
            | none => s
        | _, _ => s
    | _, _ => s
  | _, _ => s

/-- Quadrant `q` has been fenced: a block that it was to score goes to another quadrant of QUAD_MASK, to be scored from the start; one for
which none is left in service ends at once (R306). -/
def State.scoreFenced (s : State) : State :=
  (s.gblocks.filter (fun b => b.closed)).foldl (fun s b =>
    match s.disp b.disp, s.stageFor b.disp b.stage with
    | some d, some src =>
      match (s.chainOf d).bind (fun c => c.stages.find? (fun t => t.kind == 5 && t.input == src.out0)) with
      | some t =>
        if (List.finRange 8).all (fun q => !(bit t.quadMask q.val && s.inService (.quad q))) then
          s.scoreBlockDone b.disp b.id ((((List.finRange 8).filter (fun q => bit t.quadMask q.val)).getLast?).getD 0) []
        else if (match b.quad with | some q => s.inService (.quad ⟨q % 8, Nat.mod_lt _ (by decide)⟩) | none => true) then s
        else
          let quad := s.scoreQuad d src
          { s with gblocks := s.gblocks.map (fun (x : GBlock) => if x.id == b.id then { x with quad := quad } else x) }
      | none => s
    | _, _ => s) s

end Sys2Proof.Machine
end

