-- ==== Sys2Proof/Machine/Matrix.lean ====
section
/-! DEFINITION. MATMUL stages on the array quadrants: batches, weight halves, SWAP and tile steps, the post-unit and output tiles
("Matrix Arrays and Numerics"). -/

namespace Sys2Proof.Machine

/-- Quadrant `q` of an array as a unit. -/
def quadUnit (arr q : Nat) : EUnit := .quad ⟨(4 * arr + q) % 8, Nat.mod_lt _ (by decide)⟩

/-- The batch with an id. -/
def State.mbatch (s : State) (id : Nat) : Option MBatch := s.mbatches.find? (fun b => b.id == id)

/-- The state with one batch changed. -/
def State.modBatch (s : State) (id : Nat) (f : MBatch → MBatch) : State :=
  { s with mbatches := s.mbatches.map (fun b => if b.id == id then f b else b) }

/-- The stage of a batch. -/
def State.batchStage (s : State) (b : MBatch) : Option Stage := (s.disp b.disp).bind (fun d => s.stageOf d b.stage)

/-- The class of a batch. -/
def State.batchCls (s : State) (b : MBatch) : Nat := (s.clsOfDisp b.disp).getD 0

/-- The quadrants 0–3 of an array that form the group of a stage and class (R345, R31). -/
def State.mxGroup (s : State) (t : Stage) (arr cls : Nat) : List Nat :=
  (List.range 4).filter (fun q => bit t.quadMask (4 * arr + q) && s.inService (quadUnit arr q) && s.unitAdmits (quadUnit arr q) cls)

/-- Whether any quadrant of a stage's QUAD_MASK is in service (R357). -/
def State.anyQuad (s : State) (t : Stage) : Bool := (List.finRange 8).any (fun q => bit t.quadMask q.val && s.inService (.quad q))

/-- The quadrant that left a stage without service (R648). -/
def State.lastQuad (s : State) (t : Stage) : EUnit :=
  s.lastFenced (fun u => match u with | .quad q => bit t.quadMask q.val | _ => false) (.quad (Fin.ofNat 8 ((lowestBit 8 t.quadMask).getD 0)))

/-! ### Failures (R361, R362) -/

/-- An item fails in an array quadrant: listed, and the first captured. -/
def State.mxFail (s : State) (id item status cause layer : Nat) (u : EUnit) : State :=
  if s.itemEnded id item then s
  else
    let a := u.index / 4
    let s := s.failItem id item status (some u)
    let s := if status = stProg then s.capture 9 (some u) 0 else s
    if s.flag (F.mxFailInfoValid a) || u.kind != 3 then s
    else s.setAll [(F.mxFailInfoValid a, 1), (F.mxFailInfoQuad a, u.index % 4), (F.mxFailInfoCause a, cause),
      (F.mxFailInfoStatus a, status), (F.mxFailItem a, item), (F.mxFailLayer a, layer)]

/-- The vectors of a batch that `p` holds of fail and take no further computation. -/
def State.failVecs (s : State) (b : MBatch) (p : Nat → Bool) (status cause : Nat) (u : EUnit) : State :=
  let idx := (List.range b.vecs.length).filter (fun v => p v && ((b.vecs[v]?).map (fun x => !x.dead)).getD false)
  let s := idx.foldl (fun s v =>
    match b.vecs[v]? with
    | some x => s.mxFail b.disp x.item status cause b.layer u
    | none => s) s
  s.modBatch b.id (fun b => { b with vecs := (b.vecs.zip (List.range b.vecs.length)).map (fun x =>
    if idx.contains x.2 then { x.1 with dead := true } else x.1) })

/-! ### Layers of a batch -/

/-- The layer table address of a batch's model and the layer it runs. -/
def State.batchTable (s : State) (b : MBatch) : Nat := match s.active with | some im => im.layerTable b.model | none => 0
def State.batchLayer (s : State) (b : MBatch) (layer : Nat) : Layer := readLayer s.mem (s.batchTable b) layer
def State.batchLayers (s : State) (b : MBatch) : Nat :=
  match s.active with | some im => (match im.wrefs[b.model]? with | some w => w.layerCount | none => 0) | none => 0

/-- FILL_AHEAD of a batch's chain (R349). -/
def State.fillAhead (s : State) (b : MBatch) : Bool := match (s.disp b.disp).bind s.chainOf with | some c => c.fillAhead | none => false

/-- Whether the model's layer table still follows R340 (R341). -/
def State.tableOk (s : State) (model mask : Nat) : Bool :=
  match s.active with
  | some im => (match im.wrefs[model]? with | some w => modelCheck s.mem w im.part [mask] | none => false)
  | none => false

/-- Whether the layer table that a batch uses still follows R340 for its stage. -/
def State.batchOk (s : State) (b : MBatch) : Bool := s.tableOk b.model (match s.batchStage b with | some t => t.quadMask | none => 0)

/-- The read of a stage's layer table: its header and layer entries, for tile entries only those needed (Table 90, Table 91, R499). -/
def State.tableBytes (s : State) (model : Nat) : Nat :=
  match s.active with | some im => (match im.wrefs[model]? with | some w => 64 + 64 * w.layerCount | none => 0) | none => 0

/-- Where the output of a layer before the last stands in the work area (R340): of each array named in QUAD_MASK, in ascending order, the
outputs of even layers and then those of odd ones, VB slots each (log entry 93). -/
def State.workAddr (s : State) (b : MBatch) (layer : Nat) : Nat :=
  match s.active, s.batchStage b with
  | some im, some t =>
    let h := readHead s.mem (im.layerTable b.model)
    let base := match im.part.regions[h.region]? with | some r => 65536 * r.start + h.offset | none => 0
    let stride := ((List.range (s.batchLayers b - 1)).map (fun l => (s.batchLayer b l).stride)).foldl max 0
    let g := if b.area = 1 ∧ t.quadMask % 16 ≠ 0 then 1 else 0
    base + (2 * g + layer % 2) * h.vb * stride
  | _, _ => 0

/-- The bytes between the vectors of the running layer's input in the work area. -/
def State.inputStride (s : State) (b : MBatch) : Nat := (s.batchLayer b (b.layer - 1)).stride

/-- The slot of vector `v` in the running layer's input: as the batch took it, or from the work area. -/
def State.inputSlot (s : State) (b : MBatch) (v : Nat) : List Byte :=
  match b.input with
  | none => match b.vecs[v]? with | some x => x.bytes | none => []
  | some a => s.sfGet (a + v * s.inputStride b) (s.inputStride b)

/-- The K-slices added to vector `v` of an N-block. -/
def MBatch.added (b : MBatch) (nblk v : Nat) : Nat := sget (fun _ => 0) b.slices (nblk * 2048 + v)

/-- The accumulator word of a column of an N-block for a vector. -/
def MBatch.word (b : MBatch) (nblk v c : Nat) : Nat := sget (fun _ => 0) b.acc ((nblk * 2048 + v) * 128 + c)

/-- The vectors of a batch that are computed. -/
def MBatch.live (b : MBatch) : List Nat := (List.range b.vecs.length).filter (fun v => ((b.vecs[v]?).map (fun x => !x.dead)).getD false)

/-- Whether every K-slice of an N-block has been added for every live vector. -/
def MBatch.blockDone (b : MBatch) (l : Layer) (nblk : Nat) : Bool := b.live.all (fun v => b.added nblk v ≥ l.slices)

/-- Whether a MATMUL stage has stopped: output tiles of it wait for room in its output queue (R29). -/
def State.mxBlocked (s : State) (id k : Nat) : Bool := s.mbatches.any (fun b => b.disp == id && b.stage == k && b.emitted.isSome)

/-- The order in which a quadrant or post-unit takes batches: the lowest class, then the oldest dispatch (R33). -/
def State.batchBefore (s : State) (a b : MBatch) : Bool :=
  if s.batchCls a ≠ s.batchCls b then decide (s.batchCls a < s.batchCls b)
  else if a.disp ≠ b.disp then decide (a.disp < b.disp)
  else decide (a.id < b.id)

/-- The batch that a quadrant works for, among those of stages that have not stopped. -/
def State.batchOn (s : State) (arr q : Nat) : Option MBatch :=
  leastBy s.batchBefore (s.mbatches.filter (fun b => b.arr == arr && b.emitted.isNone && !s.mxBlocked b.disp b.stage &&
    (match s.batchStage b with | some t => (s.mxGroup t arr (s.batchCls b)).contains q | none => false) &&
    s.mayWork (quadUnit arr q) (s.batchCls b)))

/-! ### Output tiles (R342–R345) -/

/-- Runs of at most `cap` vectors of consecutive items from vector `v` on. -/
def runFrom (l : List MVec) (cap : Nat) : Nat :=
  match l with
  | [] => 0
  | x :: rest =>
    1 + ((List.range (min (cap - 1) rest.length)).takeWhile (fun i => ((rest[i]?).map (fun y => y.item == x.item + i + 1)).getD false)).length

/-- Output tiles of a batch whose layers have run, appended while the output queue has room; without one, the items end (R30). -/
def State.emitBatchN (s : State) (id : Nat) : Nat → State
  | 0 => s
  | n + 1 =>
    match s.mbatch id with
    | none => s
    | some b =>
      match b.emitted, s.disp b.disp, s.batchStage b with
      | some k, some d, some t =>
        let rest := b.vecs.drop k
        if rest.isEmpty then { s with mbatches := s.mbatches.filter (fun x => x.id != id) }
        else
          let l := s.batchLayer b (s.batchLayers b - 1)
          let stride := min l.stride 65472
          let m := runFrom rest (max 1 (min 256 (65472 / max 1 stride)))
          let vs := rest.take m
          let first := match vs.head? with | some v => v.item | none => 0
          let u := match (s.mxGroup t b.arr d.rcd.cls).head? with | some q => quadUnit b.arr q | none => s.lastQuad t
          let go := fun (s : State) => (s.modBatch id (fun b => { b with emitted := some (k + m) })).emitBatchN id n
          if t.out0 = 255 then
            go (vs.foldl (fun s v => if v.dead then s else s.endItem b.disp v.item u) s)
          else if s.hasRoom d t.out0 then
            let failed := (List.range m).foldl (fun f i => withBit f i (((vs[i]?).map (fun v => v.dead)).getD false)) 0
            let body := vs.flatMap (fun v => if v.dead then List.replicate stride 0 else v.bytes)
            let bytes := tileHead first m l.outFmt l.outLen stride failed ++ body
            go (s.append u b.disp t.out0 first m 0 (vs.all (fun v => v.dead)) 0 bytes)
          else s
      | _, _, _ => s

/-- As many output tiles of a batch as find room. -/
def State.emitBatch (s : State) (id : Nat) : State :=
  match s.mbatch id with
  | some b => s.emitBatchN id (b.vecs.length + 1)
  | none => s

/-- A batch none of whose vectors is left to compute passes its tiles on. -/
def State.batchIfDead (s : State) (id : Nat) : State :=
  match s.mbatch id with
  | some b => if b.live.isEmpty && b.emitted.isNone then (s.modBatch id (fun b => { b with emitted := some 0 })).emitBatch id else s
  | none => s

/-! ### Forming a batch (R345, R347) -/

/-- One entry's vectors from its `used`-th on, at most `n`: with whether its header goes with layer 0. -/
def State.tileVecs (s : State) (d : Dispatch) (q : Nat) (e : QEntry) (l : Layer) (n : Nat) : List MVec × Bool :=
  let a := s.entryAddr d e.slot q
  let h := s.sfGet a 64
  let stride := le h 0x0C 4
  let ok := le h 6 1 == l.aFmt && le h 8 4 == l.k && stride % 64 == 0 && stride ≥ strideOf l.aFmt l.k && le h 4 2 == e.count &&
    64 + e.count * stride ≤ 65536 && e.count ≤ 256
  ((List.range (min n (e.count - e.used))).map (fun i =>
    let v := e.used + i
    let dead := e.ended || bit (le h 0x20 32) v || s.itemEnded d.id (e.item + v)
    { item := e.item + v, dead := dead, bytes := if ok && !dead then s.sfGet (a + 64 + v * stride) stride else [] }), ok)

/-- Vectors taken from the input entries, lowest items first, until `n` are taken; a tile used up leaves its queue. -/
def State.takeVecs (s : State) (id q : Nat) (l : Layer) (u : EUnit) : List QEntry → Nat → List MVec → State × List MVec
  | [], _, acc => (s, acc)
  | e :: rest, n, acc =>
    match s.disp id with
    | none => (s, acc)
    | some d =>
      if n = 0 then (s, acc)
      else
        let (vs, ok) := s.tileVecs d q e l n
        let a := s.entryAddr d e.slot q
        let stride := le (s.sfGet a 16) 0x0C 4
        let s := s.sfTouch u (some d.rcd.cls) (a + 64 + e.used * stride) (vs.length * stride)
        let (s, vs) := vs.foldl (fun (r : State × List MVec) v =>
          let s := r.1
          if v.dead then (s, r.2 ++ [v])
          else
            let i := v.item - e.item
            let (bad, s) := s.readPoison (a + 64 + i * stride) stride
            match bad with
            | some x => (s.mxFail id v.item stUnc 0x11 0 x, r.2 ++ [{ v with dead := true }])
            | none =>
              if ok then (s, r.2 ++ [v]) else (s.mxFail id v.item stProg 0x30 0 u, r.2 ++ [{ v with dead := true }])) (s, [])
        let used := e.used + vs.length
        let s := if used ≥ e.count then s.freeEntry id q e.pos
          else s.modDisp id (fun d => { d with queues := modifyAt (fun h =>
            { h with entries := h.entries.map (fun x => if x.pos == e.pos then { x with used := used } else x) }) q d.queues })
        s.takeVecs id q l u rest (n - vs.length) (acc ++ vs)

/-- Accumulator bytes that a batch of a class may hold per N-block on a group (R120, R347). -/
def State.accLimit (s : State) (arr cls : Nat) (group : List Nat) : Nat :=
  let shared := fun q => s.unitAdmits (quadUnit arr q) 0 && (s.unitAdmits (quadUnit arr q) 1 || s.unitAdmits (quadUnit arr q) 2 || s.unitAdmits (quadUnit arr q) 3)
  if group.any shared then (if cls = 0 then 131072 else 917504) else 1048576

/-- Whether a group is free for a batch of a class: no other batch of its kind, class 0 or not, holds one of its quadrants. -/
def State.groupFree (s : State) (arr cls : Nat) (group : List Nat) : Bool :=
  !group.isEmpty && group.all (fun q => s.mayWork (quadUnit arr q) cls) &&
  s.mbatches.all (fun b => b.arr != arr || b.emitted.isSome || (s.batchCls b == 0) != (cls == 0) ||
    (match s.batchStage b with | some t => group.all (fun q => !bit t.quadMask (4 * arr + q)) | none => true))

/-- The key under which a dispatch remembers array data at an address whose fetch was answered with ABORT (R360). -/
def weightKey (a : Nat) : Nat := 2 ^ 32 + a

/-- The array of a batch that still takes vectors and has no array yet. -/
def noArray : Nat := 2

/-- What stands ready at a MATMUL stage: its model, layer count and VB, the unheld input entries in item order with the vectors left in them,
the batch that still takes vectors, and whether that batch is due: VB vectors, or the last ones (R345). -/
structure MxReady where
  stage : Stage
  layers : Nat
  table : Nat
  vb : Nat
  entries : List QEntry
  ready : Nat
  part : Option MBatch
  due : Bool

/-- The vectors that the forming batch holds already. -/
def MxReady.had (x : MxReady) : List MVec := match x.part with | some b => b.vecs | none => []

/-- What stands ready at stage `k` of a running dispatch, when it is a MATMUL stage that runs a model. -/
def State.mxReady (s : State) (d : Dispatch) (k : Nat) : Option MxReady :=
  match s.chainOf d, s.stageOf d k, s.active with
  | some c, some t, some im =>
    let layers := match im.wrefs[t.model]? with | some w => w.layerCount | none => 0
    if t.kind ≠ 5 ∨ layers = 0 ∨ d.phase ≠ .running then none
    else
      let table := im.layerTable t.model
      let vb := max 1 (readHead s.mem table).vb
      let entries := ((d.hq t.input).entries.filter (fun e => !e.held)).mergeSort (fun a b => decide (a.item ≤ b.item))
      let ready := entries.foldl (fun n e => n + (e.count - e.used)) 0
      let part := s.mbatches.find? (fun b => b.disp == d.id && b.stage == k && b.arr == noArray)
      let n := (match part with | some b => b.vecs.length | none => 0) + ready
      some { stage := t, layers := layers, table := table, vb := vb, entries := entries, ready := ready, part := part,
             due := n > 0 && (decide (n ≥ vb) || !s.moreInput d c t.input) }
  | _, _, _ => none

/-- Whether a due batch of the stage could go to array `arr` now: its group is free, and MXA's is not when MXB is named (R345). -/
def State.mxGoes (s : State) (d : Dispatch) (x : MxReady) (arr : Nat) : Bool :=
  x.due && s.groupFree arr d.rcd.cls (s.mxGroup x.stage arr d.rcd.cls) &&
  !(arr == 1 && s.groupFree 0 d.rcd.cls (s.mxGroup x.stage 0 d.rcd.cls))

/-- Whether a dispatch has a batch waiting for a quadrant of stage `t`'s group in array `arr` (R33). -/
def State.mxWaits (s : State) (t : Stage) (arr : Nat) (e : Dispatch) : Bool :=
  (List.range e.stages.length).any (fun k => match s.mxReady e k with
    | some x => (List.range 4).any (fun q => bit t.quadMask (4 * arr + q) && bit x.stage.quadMask (4 * arr + q)) &&
        !s.mxBlocked e.id k && s.mxGoes e x arr
    | none => false)

/-- Quadrant tiles loaded ahead for the next batch of a stage belong to the batch that has come (R349). -/
def Quad.forBatch (x : Quad) (id k batch : Nat) : Quad :=
  let f := fun (h : Option HalfW) => h.map (fun (w : HalfW) => if w.next == some (id, k) then { w with next := none, batch := batch } else w)
  { x with half0 := f x.half0, half1 := f x.half1 }

/-- The checks of a batch as it is given to a group: a quadrant of QUAD_MASK in service (R357), layer table data not lost (R360), a table
that follows R340 (R341), and accumulator words within the group's limit (R347). -/
def State.batchChecks (s : State) (b : MBatch) (t : Stage) (vb : Nat) (u : EUnit) : State :=
  let d := s.disp b.disp
  let cls := s.batchCls b
  let lost := match d with | some d => d.deadTreelets.find? (fun (e : Nat × Nat) => e.1 == weightKey (s.batchTable b)) | none => none
  if !s.anyQuad t then s.failVecs b (fun _ => true) stFenced 0x12 u
  else match lost with
    | some (_, st) => s.failVecs b (fun _ => true) st (if st = stUnc then 0x11 else 0x10) u
    | none =>
      if !s.tableOk b.model t.quadMask then s.failVecs b (fun _ => true) stProg 0x30 u
      else if vb * 512 > s.accLimit b.arr cls (s.mxGroup t b.arr cls) then s.failVecs b (fun _ => true) stProg 0x31 u
      else s

/-- MATMUL_BATCH_ASSIGN: the stage takes input vectors in item order into its batch, and VB vectors, or the last ones, go to an array's
group (R345, R347), dispatches of a lower class and older ones of its own first (R33).  With no quadrant of QUAD_MASK in service the vectors
fail with FAIL_FENCED (R357).  A stage whose output waits for room takes nothing (R29). -/
def State.matmulAssign (s : State) (id k arr : Nat) : State :=
  match s.disp id with
  | none => s
  | some d =>
    match s.mxReady d k with
    | none => s
    | some x =>
      let t := x.stage
      let none' := !s.anyQuad t
      let goes := none' || (s.mxGoes d x arr && s.comesFirst d (s.mxWaits t arr))
      let dead := d.deadTreelets.any (fun e => e.1 == weightKey x.table)
      let n := s.tableBytes t.model
      let acc := Access.layerTable id k
      if s.mxBlocked id k || x.had.length + x.ready = 0 then s
      else if !goes && (x.ready = 0 || x.had.length ≥ x.vb) then s
      else if !(none' || dead || s.readable acc x.table n .ok) then s
      else
        let s := if none' || dead || x.part.isSome then s else s.access acc d.rcd.cls x.table n false
        let group := s.mxGroup t arr d.rcd.cls
        let u := match group.head? with | some q => quadUnit arr q | none => s.lastQuad t
        let (s, vs) := s.takeVecs id t.input (readLayer s.mem x.table 0) u x.entries (x.vb - x.had.length) []
        let to' := if goes then arr else noArray
        let b : MBatch := { id := (match x.part with | some b => b.id | none => s.nextMb), disp := id, stage := k, arr := to', area := to',
                            model := t.model, layer := 0, input := none, vecs := x.had ++ vs, acc := [], slices := [], outs := [],
                            emitted := none }
        let s : State := { s with
          mbatches := s.mbatches.filter (fun y => y.id != b.id) ++ [b], nextMb := if x.part.isSome then s.nextMb else s.nextMb + 1 }
        if !goes then s.flushRays
        else
          let s : State := { s with quads := (s.quads.zip (List.range 8)).map (fun (e : Quad × Nat) =>
            if e.2 / 4 = arr then e.1.forBatch id k b.id else e.1) }
          ((s.batchChecks b t x.vb u).batchIfDead b.id).flushRays

/-! ### Weight halves (R314, R315, R348, R358, R360) -/

/-- A quadrant. -/
def State.quad (s : State) (arr q : Nat) : Quad := (s.quads[4 * arr + q]?).getD Quad.init

/-- The half of a quadrant that computes: half 1 where MX_HALF shows 1. -/
def State.activeHalf (s : State) (arr q : Nat) : Bool := bit (s.get (F.mxHalf arr)) q

/-- What a half holds. -/
def Quad.half (x : Quad) (h : Bool) : Option HalfW := if h then x.half1 else x.half0

/-- A quadrant with a half replaced. -/
def Quad.withHalf (x : Quad) (h : Bool) (w : Option HalfW) : Quad := if h then { x with half1 := w } else { x with half0 := w }

/-- Whether a half's tile is still to be applied: by its batch, which runs that layer or an earlier one and lacks its K-slice for some vector,
or by a batch that its stage may still form. -/
def State.halfNeeded (s : State) (w : HalfW) : Bool :=
  match w.query, w.next with
  | true, _ => false
  | false, some (id, k) =>
    (match s.disp id with
      | some d => (match s.chainOf d, s.stageOf d k with
        | some c, some t => s.moreInput d c t.input || !(d.hq t.input).entries.isEmpty || s.mbatches.any (fun b => b.disp == id && b.stage == k && b.arr == noArray)
        | _, _ => false)
      | none => false)
  | false, none =>
    (match s.mbatch w.batch with
      | some b => b.emitted.isNone && (decide (b.layer < w.layer) || (b.layer == w.layer && b.live.any (fun v => b.added w.nblk v ≤ w.kslice)))
      | none => false)

/-- Whether a half of some quadrant holds a quadrant tile for a batch, or for the next batch of its stage. -/
def State.inHalf (s : State) (b : MBatch) (next : Bool) (layer kslice nblk : Nat) : Bool :=
  s.quads.any (fun x => [x.half0, x.half1].any (fun h => match h with
    | some w => !w.query && w.layer == layer && w.kslice == kslice && w.nblk == nblk &&
        (if next then w.next == some (b.disp, b.stage) else w.next.isNone && w.batch == b.id)
    | none => false))

/-- Whether a quadrant tile of a layer still has to be loaded for a batch: no half holds it, and some vector lacks it. -/
def State.toLoad (s : State) (b : MBatch) (next : Bool) (layer kslice nblk : Nat) : Bool :=
  !s.inHalf b next layer kslice nblk && (next || decide (b.layer < layer) || (layer == b.layer && b.live.any (fun v => b.added nblk v ≤ kslice)))

/-- The quadrant tiles of weight tile `i` of a layer, as K-slice and N-block (Table 87). -/
def tileShares (l : Layer) (c : MxClass) (i : Nat) : List (Nat × Nat) :=
  let ks := [2 * (i % max 1 l.kTiles), 2 * (i % max 1 l.kTiles) + 1]
  let n := i / max 1 l.kTiles
  let ns := match c with | .c16 => [n] | _ => [2 * n, 2 * n + 1]
  ks.flatMap (fun k => (ns.filter (fun n => decide (n < l.blocks c))).map (fun n => (k, n)))

/-- Whether a batch still has a quadrant tile of weight tile `i` of a layer to load. -/
def State.tileWanted (s : State) (b : MBatch) (layer i : Nat) : Bool :=
  let l := s.batchLayer b layer
  match pairClass l.wFmt l.aFmt with
  | some c => (tileShares l c i).any (fun e => s.toLoad b false layer e.1 e.2)
  | none => false

/-- The layer whose quadrant tile loads next for a K-slice and N-block: the running one while it lacks that tile, and then, with FILL_AHEAD set
and every tile of the running layer loaded, the next layer, or layer 0 of the stage's next batch (R349). -/
def State.loadLayer (s : State) (b : MBatch) (kslice nblk : Nat) : Option (Nat × Bool) :=
  let l := s.batchLayer b b.layer
  let inside := kslice < l.slices && (match pairClass l.wFmt l.aFmt with | some c => decide (nblk < l.blocks c) | none => true)
  if inside && s.toLoad b false b.layer kslice nblk then some (b.layer, false)
  else if s.fillAhead b && (List.range l.tileCount).all (fun i => !s.tileWanted b b.layer i) then
    (if b.layer + 1 < s.batchLayers b then some (b.layer + 1, false) else some (0, true))
  else none

/-- The bytes of a quadrant tile in a place of a Weight Store half. -/
def WStore.share (w : WStore) (place nb u : Nat) : List Byte := bytesAt w.bytes (place * 65536 + u * nb) nb

/-- The bytes of a resident quadrant tile and its attributes. -/
def State.residentData (s : State) (arr : Nat) (p : PlacedLayer) (l : Layer) (c : MxClass) (kslice nblk : Nat) : Option (List Byte × List Byte) :=
  let (i, u) := tileOf l c kslice nblk
  let at' := attrBlock c l.wFmt l.sparse
  let part := at' / 4
  let w := (s.ws[arr]?).getD WStore.init
  let here := fun x => w.arrived.contains (p.place + x)
  let first := i * at' + u * part
  let last := first + part - 1
  if here i && (part == 0 || (here (l.tileCount + first / 65536) && here (l.tileCount + last / 65536))) then
    some (w.share (p.place + i) (quadBytes c) u, bytesAt w.bytes ((p.place + l.tileCount) * 65536 + first) part)
  else none

/-- Where a weight tile of a layer and its attribute block stand in memory. -/
def State.tileHome (s : State) (b : MBatch) (l : Layer) (i : Nat) : Nat × Nat :=
  let e := s.batchTable b + l.tileFirst + 16 * i
  (leAt s.mem e 8, leAt s.mem (e + 8) 8)

/-- The placed layer, when a half holds the layer of a model resident. -/
def State.placedLayer (s : State) (arr model layer : Nat) : Option PlacedLayer :=
  s.active.bind (fun im => (im.placed arr).find? (fun p => p.model == model && p.layer == layer))

/-! ### Streaming tiles (R79, R348–R350) -/

/-- Whether a streaming tile is still wanted by a batch of its array. -/
def State.stileLive (s : State) (arr : Nat) (x : STile) : Bool :=
  s.mbatches.any (fun b => b.arr == arr && b.disp == x.disp && b.model == x.model && b.emitted.isNone && s.tileWanted b x.layer x.tile)

/-- The streaming tile of a half that a weight tile has or gets: the one taken for it, or the lowest that no wanted tile holds. -/
def State.tileSlot (s : State) (arr : Nat) (b : MBatch) (layer i : Nat) : Option Nat :=
  let ts := ((s.ws[arr]?).getD WStore.init).tiles
  match ts.find? (fun x => x.disp == b.disp && x.model == b.model && x.layer == layer && x.tile == i) with
  | some x => some x.slot
  | none => (List.range 4).find? (fun k => !ts.any (fun x => x.slot == k && s.stileLive arr x))

/-- Whether a class 0 batch of an array waits for a streaming tile of its half: it then takes the next one that is free (R348). -/
def State.zeroWaits (s : State) (arr : Nat) : Bool :=
  s.mbatches.any (fun b => b.arr == arr && s.batchCls b == 0 && b.emitted.isNone && !s.mxBlocked b.disp b.stage && !s.waits (.weights (Fin.ofNat 2 arr) b.id) &&
    (s.placedLayer arr b.model b.layer).isNone &&
    (match (List.range (s.batchLayer b b.layer).tileCount).find? (fun i => s.tileWanted b b.layer i) with
      | some i => !((s.ws[arr]?).getD WStore.init).tiles.any (fun x => x.disp == b.disp && x.model == b.model && x.layer == b.layer && x.tile == i)
      | none => false))

/-- The halves that a fetch for a batch fills: its own array's, and with MCAST_ARRAYS naming both the other's too, while a quadrant of that
array is in service and it does not hold the layer resident (R350). -/
def State.tileHalves (s : State) (arr : Nat) (b : MBatch) (layer : Nat) : List Nat :=
  let both := match (s.disp b.disp).bind s.chainOf with | some c => c.mcastArrays % 4 == 3 | none => false
  let up := (List.range 4).any (fun q => s.inService (quadUnit (1 - arr) q))
  if both && up && (s.placedLayer (1 - arr) b.model layer).isNone then [arr, 1 - arr] else [arr]

/-- Whether a streaming tile can be taken for a weight tile in every half that the fetch fills (R348, R350). -/
def State.tileRoom (s : State) (arr : Nat) (b : MBatch) (layer i : Nat) : Bool :=
  (s.tileHalves arr b layer).all (fun h => (s.tileSlot h b layer i).isSome && !(s.batchCls b != 0 && s.zeroWaits h))

/-- A streaming tile of a half is taken for a weight tile, which has arrived with `data`, or is yet to come. -/
def State.takeTile (s : State) (half : Nat) (b : MBatch) (layer i : Nat) (attr : List Byte) (data : Option Nat) : State :=
  match s.tileSlot half b layer i with
  | none => s
  | some k =>
    let x : STile := { slot := k, disp := b.disp, model := b.model, layer := layer, tile := i, cls := s.batchCls b, arrived := data.isSome, attr := attr }
    { s with ws := modifyAt (fun w =>
        { w with bytes := (match data with | some a => copyBytes s.mem w.bytes a ((252 + k) * 65536) 65536 | none => w.bytes),
                 tiles := w.tiles.filter (fun y => y.slot != k) ++ [x] }) half s.ws }

/-- The two weight tiles after tile `i` of a layer that are streamed: of the same layer, and with FILL_AHEAD set of the next one (R348, R349). -/
def State.tilesAhead (s : State) (arr : Nat) (b : MBatch) (layer i : Nat) : List (Nat × Nat) :=
  let n := (s.batchLayer b layer).tileCount
  let more := if s.fillAhead b && layer + 1 < s.batchLayers b && (s.placedLayer arr b.model (layer + 1)).isNone then
    (List.range (s.batchLayer b (layer + 1)).tileCount).map (fun j => (layer + 1, j)) else []
  (((List.range n).map (fun j => (layer, j))).drop (i + 1) ++ more).take 2

/-- A streamed weight tile arrives with its attribute block in every half that its fetch fills, and streaming tiles are taken for the two tiles
that follow while there is room. -/
def State.tileArrives (s : State) (arr : Nat) (b : MBatch) (layer i : Nat) (da : Nat) (attr : List Byte) : State :=
  let s := (s.tileHalves arr b layer).foldl (fun s h => s.takeTile h b layer i attr (some da)) s
  (s.tilesAhead arr b layer i).foldl (fun s e =>
    let known := ((s.ws[arr]?).getD WStore.init).tiles.any (fun x => x.disp == b.disp && x.model == b.model && x.layer == e.1 && x.tile == e.2)
    if known || !s.tileRoom arr b e.1 e.2 then s
    else (s.tileHalves arr b e.1).foldl (fun s h => s.takeTile h b e.1 e.2 [] none) s) s

/-- Whether every earlier K-slice of an N-block has been added or stands in a half: tiles load in the order they are added (R327). -/
def State.tileInTurn (s : State) (b : MBatch) (next : Bool) (layer kslice nblk : Nat) : Bool :=
  (List.range kslice).all (fun j => !s.toLoad b next layer j nblk)

/-- A quadrant tile's data is at hand: it is loaded into a half, unless a mask of it does not keep 4 rows (R314, R332). -/
def State.loadHalf (s : State) (arr : Fin 2) (q : Nat) (h : Bool) (b : MBatch) (l : Layer) (c : MxClass) (w : HalfW) : State :=
  if !masksOk l c w.attr then (s.failVecs b (fun _ => true) stProg 0x32 (quadUnit arr.val q)).batchIfDead b.id
  else { s with quads := modifyAt (fun x => x.withHalf h (some w)) (4 * arr.val + q) s.quads }

/-- The read of a streamed tile for a batch fails: every item of the batch ends, and after ABORT the dispatch does not fetch that data again
(R360). -/
def State.weightFails (s : State) (b : MBatch) (a : Nat) (o : ReadOutcome) (u : EUnit) : State :=
  let st := if o == .abort then stPage else stUnc
  let s := if o == .abort then s.modDisp b.disp (fun d => { d with deadTreelets := d.deadTreelets ++ [(weightKey a, stPage)] }) else s
  (s.failVecs b (fun _ => true) st (if o == .abort then 0x10 else 0x11) u).batchIfDead b.id

/-- WEIGHT_HALF_LOADED: a quadrant tile of the running layer, or under FILL_AHEAD of the next one, has loaded into the idle half
(R314, R349): from the Weight Store where the layer is resident, else through a streaming tile, which is fetched first unless it has
arrived (R348).  `o` tells how a fetch ended (R360); an uncorrectable error in a resident tile makes it be fetched again (R358). -/
def State.weightLoaded (s : State) (arr : Fin 2) (q kslice nblk : Nat) (o : ReadOutcome) : State :=
  match s.batchOn arr.val q with
  | none => s
  | some b =>
    match s.loadLayer b kslice nblk with
    | none => s
    | some (layer, next) =>
      let l := s.batchLayer b layer
      let u := quadUnit arr.val q
      match pairClass l.wFmt l.aFmt with
      | none => (s.failVecs b (fun _ => true) stProg 0x30 u).batchIfDead b.id
      | some c =>
        let x := s.quad arr.val q
        let act := s.activeHalf arr.val q
        let useActive := !x.applied && (match x.half act with | some w => !s.halfNeeded w | none => true)
        let h := if useActive then act else !act
        let open' := match x.half h with | some w => !s.halfNeeded w || (w.batch != b.id && w.next.isNone) | none => true
        let (i, place) := tileOf l c kslice nblk
        let (da, aa) := s.tileHome b l i
        let acc := Access.weights arr b.id
        let entry := s.batchTable b + l.tileFirst + 16 * i
        let table := Access.layerTable b.disp b.stage
        let w := fun (data attr : List Byte) =>
          ({ query := false, next := if next then some (b.disp, b.stage) else none, batch := b.id, layer := layer, kslice := kslice,
             nblk := nblk, data := data, attr := attr } : HalfW)
        if kslice ≥ l.slices || nblk ≥ l.blocks c || !open' || !s.tileInTurn b next layer kslice nblk || s.waits acc then s
        else if !s.batchOk b || da % 64 != 0 || aa % 64 != 0 then (s.failVecs b (fun _ => true) stProg 0x30 u).batchIfDead b.id
        else match s.placedLayer arr.val b.model layer, s.active with
          | some p, some im =>
            if o == .unc && !s.reaches acc da 65536 false then s
            else
              let s := if o == .unc then (s.bump (F.mxRefetch arr.val) 1).fetchPlace im arr.val p i true else s
              (match s.residentData arr.val p l c kslice nblk with
              | none => s
              | some (data, attr) => s.loadHalf arr q h b l c (w data attr))
          | _, _ =>
            let n := attrBlock c l.wFmt l.sparse
            let load := fun (s : State) (y : STile) =>
              let ws := (s.ws[arr.val]?).getD WStore.init
              s.loadHalf arr q h b l c (w (ws.share (252 + y.slot) (quadBytes c) place) ((y.attr.drop (place * (n / 4))).take (n / 4)))
            let mine := fun (y : STile) => y.disp == b.disp && y.model == b.model && y.layer == layer && y.tile == i && y.arrived
            let dead := match s.disp b.disp with | some d => d.deadTreelets.any (fun e => e.1 == weightKey da) | none => false
            match ((s.ws[arr.val]?).getD WStore.init).tiles.find? mine with
            | some y => load s y
            | none =>
              if dead then s.weightFails b da .abort u
              else if o == .abort then s.weightFails b da .abort u
              else if !s.tileRoom arr.val b layer i || !s.reaches table entry 16 false || !s.reaches acc da 65536 false || !s.reaches acc aa n false
              then s
              else
                let cls := s.batchCls b
                let s := (s.access table cls entry 16 false).access acc cls da 65536 false
                let s := s.access acc cls aa n false
                if o == .unc then (s.uncRead acc da).weightFails b da .unc u
                else
                  let s := s.tileArrives arr.val b layer i da (s.memGet aa n)
                  match ((s.ws[arr.val]?).getD WStore.init).tiles.find? mine with
                  | some y => load s y
                  | none => s

/-- SWAP: a quadrant's loaded idle half becomes the active one, once the active half's tile has been applied (R315). -/
def State.swapHalves (s : State) (arr q : Nat) : State :=
  let x := s.quad arr q
  let act := s.activeHalf arr q
  match s.batchOn arr q, x.half (!act) with
  | some b, some w =>
    let busy := match x.half act with | some v => v.batch == b.id && v.next.isNone && s.halfNeeded v | none => false
    if busy || w.query || w.next.isSome || w.batch != b.id then s
    else
      let s : State := { s with quads := modifyAt (fun x => x.withHalf act none) (4 * arr + q) s.quads }
      s.setBit (F.mxHalf arr) q (!act)
  | _, _ => s

/-! ### Tile steps (R316, R322–R328) -/

/-- One vector of a tile step, of input slot `slot`: every column's word, the K-slice counted, and the words that saturated. -/
def MBatch.stepVec (b : MBatch) (l : Layer) (c : MxClass) (cols : List (List (Option Fv))) (w : HalfW) (v : Nat) (slot : List Byte) :
    MBatch × Nat :=
  let a := sliceElems l c (slotElems l.aFmt l.k slot) w.kslice
  let (new, sat) := applyTile l c cols a ((List.range cols.length).map (fun i => b.word w.nblk v i))
  let acc := (new.zip (List.range new.length)).foldl (fun m x => sset (fun _ => 0) m ((w.nblk * 2048 + v) * 128 + x.2) x.1) b.acc
  ({ b with acc := acc, slices := sset (fun _ => 0) b.slices (w.nblk * 2048 + v) (w.kslice + 1) }, sat)

/-- Of some vectors of a batch, those whose input in the work area meets a poisoned line: their items fail in the bank's name (R655). -/
def State.poisonVecs (s : State) (b : MBatch) (vs : List Nat) : State :=
  match b.input with
  | none => s
  | some a =>
    let n := s.inputStride b
    vs.foldl (fun s v => match s.readPoison (a + v * n) n with
      | (some u, s) => s.failVecs ((s.mbatch b.id).getD b) (fun x => x == v) stUnc 0x11 u
      | (none, s) => s) s

/-- TILE_STEP: a quadrant applies its active quadrant tile to `count` vectors from `first` on (R316, R327).  `bad` names vectors
whose accumulator words met an uncorrectable error; their items fail (R359).  A layer table that has come to break R340 fails the batch
(R341). -/
def State.tileStep (s : State) (arr q first count : Nat) (bad : List Nat) : State :=
  match s.batchOn arr q, (s.quad arr q).half (s.activeHalf arr q) with
  | some b, some w =>
    let l := s.batchLayer b b.layer
    match pairClass l.wFmt l.aFmt, s.batchOk b with
    | none, _ => (s.failVecs b (fun _ => true) stProg 0x30 (quadUnit arr q)).batchIfDead b.id
    | _, false => (s.failVecs b (fun _ => true) stProg 0x30 (quadUnit arr q)).batchIfDead b.id
    | some c, true =>
      let run := (b.live).filter (fun v => first ≤ v && v < first + count)
      let limit := match c with | .c16 => 1024 | _ => 2048
      if w.query = true ∨ w.next.isSome = true ∨ w.batch ≠ b.id ∨ w.layer ≠ b.layer ∨ count > limit ∨ run.isEmpty = true ∨ run.any (fun v => b.added w.nblk v != w.kslice) = true then s
      else
        let u := quadUnit arr q
        let rows := rowVals (quadBytes c / 128) 128 w.data
        let n := min 128 (l.n - 128 * w.nblk)
        let attr := leVal w.attr
        let cols := (List.range n).map (columnWeights l c rows attr)
        let (b', sat) := run.foldl (fun (r : MBatch × Nat) v =>
          let (x, k) := r.1.stepVec l c cols w v (s.inputSlot b v)
          (x, r.2 + k)) (b, 0)
        let macs := run.length * sliceLen c l.sparse * 128
        let s : State := { s with quads := modifyAt (fun x => { x with applied := true }) (4 * arr + q) s.quads }
        let s := ((s.modBatch b.id (fun _ => b')).bump (F.mxSatCount arr) sat).tally2 (F.mxMacLo arr) (F.mxMacHi arr) macs
        let s := s.perfMac u (some (s.batchCls b)) macs
        let s := match b.input with
          | some a => run.foldl (fun (s : State) v => s.sfTouch u (some (s.batchCls b)) (a + v * s.inputStride b) (ceilDiv (fmtBits l.aFmt * sliceLen c l.sparse) 8)) s
          | none => s
        let s := s.poisonVecs b' run
        let b' := (s.mbatch b.id).getD b'
        (s.failVecs b' (fun v => run.contains v && bad.contains v) stUnc 0x11 u).batchIfDead b.id
  | _, _ => s

/-! ### The post-unit (R352–R356) -/

/-- The results of a vector over the N-blocks of a layer, in column order. -/
def MBatch.results (b : MBatch) (l : Layer) (v : Nat) : List Nat :=
  (List.range l.liveBlocks).flatMap (fun n => match b.outs.find? (fun o => o.1 == n) with | some o => (o.2[v]?).getD [] | none => [])

/-- A layer all of whose N-blocks have been written: its outputs go to the work area in the Shared Field, where they are the next layer's
input (R340, R343), or, after the last layer, to the stage's output tiles. -/
def State.layerEnd (s : State) (b : MBatch) (l : Layer) : State :=
  let outs := (List.range b.vecs.length).map (fun v => outSlot l (b.results l v))
  let nan := b.live.foldl (fun n v => n + ((outs[v]?).map (fun x => x.2)).getD 0) 0
  let s := s.bump (F.mxNanCount b.arr) nan
  let clean := { b with acc := [], slices := [], outs := [] }
  if b.layer + 1 ≥ s.batchLayers b then
    let vecs := (b.vecs.zip outs).map (fun x => if x.1.dead then x.1 else { x.1 with bytes := x.2.1 })
    (s.modBatch b.id (fun _ => { clean with vecs := vecs, emitted := some 0 })).emitBatch b.id
  else
    let a := s.workAddr b b.layer
    let u := match (s.batchStage b).bind (fun t => (s.mxGroup t b.arr (s.batchCls b)).head?) with
      | some q => quadUnit b.arr q
      | none => quadUnit b.arr 0
    let s := b.live.foldl (fun s v => s.sfPut u (some (s.batchCls b)) (a + v * l.stride) ((outs[v]?).map (fun x => x.1) |>.getD [])) s
    s.modBatch b.id (fun _ => { clean with vecs := b.vecs.map (fun x => { x with bytes := [] }), input := some a, layer := b.layer + 1 })

/-- POST_UNIT: the post-unit of an array takes a finished N-block's words (R346, R352).  `o` tells how the read of the
scale-and-bias pairs ended (R360).  A batch whose layers have run goes on writing its tiles (R29). -/
def State.postUnit (s : State) (arr : Fin 2) (nblk : Nat) (o : ReadOutcome) : State :=
  let s := ((s.mbatches.filter (fun b => b.arr == arr.val && b.emitted.isSome)).foldl (fun s b => s.emitBatch b.id) s)
  let done := fun (b : MBatch) =>
    let l := s.batchLayer b b.layer
    b.emitted.isNone && !s.mxBlocked b.disp b.stage && nblk < l.liveBlocks && b.blockDone l nblk && !b.outs.any (fun x => x.1 == nblk) &&
    (match s.batchStage b with
      | some t => (s.mxGroup t b.arr (s.batchCls b)).any (fun q => s.mayWork (quadUnit b.arr q) (s.batchCls b))
      | none => false)
  let ready := s.mbatches.filter (fun b => b.arr == arr.val && done b)
  match leastBy s.batchBefore ready with
  | none => s
  | some b =>
    let l := s.batchLayer b b.layer
    let u := match (s.batchStage b).bind (fun t => (s.mxGroup t b.arr (s.batchCls b)).head?) with
      | some q => quadUnit b.arr q
      | none => quadUnit b.arr 0
    let dead := match s.disp b.disp with | some d => d.deadTreelets.any (fun e => e.1 == weightKey l.paramAddr) | none => false
    let o := if dead then ReadOutcome.abort else o
    let acc := Access.weights arr b.id
    let n := min 128 (l.n - 128 * nblk)
    let at' := l.paramAddr + 1024 * nblk
    if !s.readable acc at' (8 * n) o then s
    else if !s.batchOk b || l.paramAddr % 64 != 0 then (s.failVecs b (fun _ => true) stProg 0x30 u).batchIfDead b.id
    else
      let s := s.readEnds acc (s.batchCls b) at' (8 * n) o
      match o with
      | .abort => s.weightFails b l.paramAddr .abort u
      | .unc => s.weightFails b l.paramAddr .unc u
      | .ok =>
          let pair := fun c => s.memNat (at' + 8 * c) 8
          let zs := (List.range b.vecs.length).map (fun v =>
            if b.live.contains v then (List.range n).map (fun c => postZ l (b.word nblk v c) (pair c % 2 ^ 32) (pair c / 2 ^ 32)) else [])
          let (sat, nan) := zs.foldl (fun (r : Nat × Nat) z =>
            let (_, _, a, k) := convColumns l z
            (r.1 + a, r.2 + k)) (0, 0)
          let s := (s.bump (F.mxSatCount arr.val) sat).bump (F.mxNanCount arr.val) nan
          let b' := { b with outs := b.outs ++ [(nblk, zs)] }
          let s := s.modBatch b.id (fun _ => b')
          if (List.range l.liveBlocks).all (fun k => b'.outs.any (fun x => x.1 == k)) then (s.layerEnd b' l).flushRays else s

/-- A quadrant without the tiles it holds for a batch. -/
def Quad.without (x : Quad) (id : Nat) : Quad :=
  let mine := fun (h : Option HalfW) => match h with | some w => !w.query && w.next.isNone && w.batch == id | none => false
  { x with half0 := if mine x.half0 then none else x.half0, half1 := if mine x.half1 then none else x.half1,
           applied := x.applied && !mine x.half0 && !mine x.half1 }

/-- A batch runs its layer again from its first tile step on an array (R357). -/
def State.runAgain (s : State) (id arr : Nat) : State :=
  State.modBatch { s with quads := s.quads.map (fun (x : Quad) => x.without id) } id
    (fun b => { b with arr := arr, acc := [], slices := [], outs := [] })

/-- A batch whose group has changed runs its layer again there; where its accumulator words exceed the new group's limit, its items fail
(R347, R357). -/
def State.batchMoves (s : State) (b : MBatch) (t : Stage) (arr : Nat) : State :=
  let s := s.runAgain b.id arr
  let vb := max 1 (readHead s.mem (s.batchTable b)).vb
  let cls := s.batchCls b
  let group := s.mxGroup t arr cls
  if group.isEmpty || vb * 512 ≤ s.accLimit arr cls group then s
  else
    let u := match group.head? with | some q => quadUnit arr q | none => s.lastQuad t
    (s.failVecs ((s.mbatch b.id).getD b) (fun _ => true) stProg 0x31 u).batchIfDead b.id

/-- A quadrant has been fenced (R357): its halves are dropped, batches of its array run their layer again from its first tile step
on what remains of their group, or move to the other array's; they fail when no quadrant of QUAD_MASK is in service, and wait while those
in service do not admit their class. -/
def State.quadFenced (s : State) (u : Fin 8) : State :=
  let s : State := { s with quads := modifyAt (fun _ => Quad.init) u.val s.quads }
  let s := s.setBit (F.mxHalf (u.val / 4)) (u.val % 4) false
  let s := s.mbatches.foldl (fun s b =>
    match s.batchStage b with
    | some t =>
      if b.emitted.isSome || b.arr != u.val / 4 || !bit t.quadMask u.val then s
      else
        let cls := s.batchCls b
        if !s.anyQuad t then (s.failVecs b (fun _ => true) stFenced 0x12 (s.lastQuad t)).batchIfDead b.id
        else if (s.mxGroup t b.arr cls).isEmpty && !(s.mxGroup t (1 - b.arr) cls).isEmpty then s.batchMoves b t (1 - b.arr)
        else s.batchMoves b t b.arr
    | none => s) s
  s.scoreFenced

end Sys2Proof.Machine
end

