-- ==== Sys2Proof/Machine/Xlat.lean ====
section
/-! DEFINITION. Translation requests, invalidations, fault records and hot pages ("Address Translation and Page Faults"). -/

namespace Sys2Proof.Machine

/-! ### Requesters and classes (R499, R515) -/

/-- The unit of a requester's bit (R515). -/
def reqUnit (req : Nat) : EUnit :=
  if req < 16 then seUnit req
  else if req < 48 then .tc ⟨(req - 16) % 32, Nat.mod_lt _ (by decide)⟩
  else .lc ⟨(req - 48) % 16, Nat.mod_lt _ (by decide)⟩

/-- Whether a requester translates an access (Table 131): its own, or a service request by a stream engine, or a neural weight block by a
traversal cluster of the group. -/
def mayTranslate (req : Nat) (acc : Access) : Bool :=
  match accessUnit acc, acc with
  | some r, _ => r == req
  | none, .neural tg _ => 16 ≤ req && req < 48 && (req - 16) / 4 == tg.val
  | none, _ => req < 16

/-- The service class of an access (R456, R514). -/
def State.accClass (s : State) (acc : Access) : Nat :=
  let ofDisp := fun id => match s.disp id, s.pair id with | some d, _ => d.rcd.cls | none, some p => p.cls | none, none => 0
  match acc with
  | .run e => ((s.activeRun e.val).map (fun r => r.cls)).getD 0
  | .armDesc e => (match (s.se e.val).active, (s.se e.val).shadow with | .pending _ c _ _, _ => c | _, .pending _ c _ _ => c | _, _ => 0)
  | .treelet slot => ((s.tslots.find? (fun x => x.1 == slot.val)).map (fun x => x.2.cls)).getD 0
  | .segment q _ => ((s.tqs.find? (fun t => t.desc == some q)).map (fun t => t.cls)).getD 0
  | .weights _ b => ((s.mbatches.find? (fun x => x.id == b)).map s.batchCls).getD 0
  | .vector d _ _ => ofDisp d
  | .candidate d _ _ => ofDisp d
  | .neural _ b => ((s.nbatches.find? (fun x => x.id == b)).map s.neuralCls).getD 0
  | .tableEntry d _ => ofDisp d
  | .layerTable d _ => ofDisp d
  | .failList c => c.val
  | .served _ _ c => c.val
  | .param d => ofDisp d
  | .asDesc d => ofDisp d
  | .keyset d => ofDisp d
  | .template d _ => ofDisp d
  | .record c => c.val
  | .completion c => c.val
  | .lane lc slot _ => ((s.groupAt lc.val slot.val).map (fun g => g.cls)).getD 0
  | .copy lc slot _ => ((s.groupAt lc.val slot.val).map (fun g => g.cls)).getD 0
  | .code lc slot => ((s.groupAt lc.val slot.val).map (fun g => g.cls)).getD 0
  | _ => 0

/-- The PASID that requests carry now; none when PASID_EN is 0 (R502). -/
def State.pasidNow (s : State) : Option Nat := if s.flag F.xlatPasidPasidEn then some (s.get F.xlatPasidPasid) else none

/-- A translation request goes out (R502, R759). -/
def State.sendXlat (s : State) (x : XReq) : State :=
  s.emit (.xlat x.id x.page x.write s.integ.streamId (s.pasidNow.getD 0) s.pasidNow.isSome)

/-- The class of the accesses that wait on a translation: the lowest. -/
def State.xlatClass (s : State) (x : XReq) : Nat := x.accs.foldl (fun n a => min n (s.accClass a.1)) 3

/-- The requests that wait for the translation port go out while fewer than 64 are outstanding: lower classes first, the oldest first within
a class (R502). -/
def State.xlatPump (s : State) : Nat → State
  | 0 => s
  | k + 1 =>
    if s.xreqs.length ≥ 64 then s
    else match leastBy (fun a b => decide (s.xlatClass a < s.xlatClass b)) s.xwait with
      | none => s
      | some x =>
        let id := ((List.range 64).find? (fun i => !s.xreqs.any (fun y => y.id == i))).getD 0
        let y : XReq := { x with id := id }
        (State.sendXlat { s with xwait := s.xwait.erase x, xreqs := s.xreqs ++ [y] } y).xlatPump k

/-- XLAT_REQUEST: an access misses its micro-TLB.  It joins an earlier miss of its requester to the page, of whatever kind, or makes a
request of its own when the requester has fewer than 4 misses; the request waits for the port while 64 are outstanding (R500–R502). -/
def State.xlatRequest (s : State) (req page : Nat) (write : Bool) (acc : Access) : State :=
  let cls := s.accClass acc
  let mine := (s.xreqs ++ s.xwait).filter (fun x => x.req == req)
  if !mayTranslate req acc || !s.inService (reqUnit req) || (s.tlbHit req page write).isSome ||
      (match acc with | .run e => !s.runTranslates e page | _ => false) ||
      s.fwaits.any (fun w => w.acc == acc && w.page == page) || mine.any (fun x => x.page == page && x.accs.contains (acc, write)) then s
  else
    let count := fun (s : State) => (s.bump F.xlatUtlbMiss 1).perf 13 (reqUnit req) (some cls) 1
    if mine.any (fun x => x.page == page) then
      let join := fun (x : XReq) => if x.req == req && x.page == page then { x with accs := x.accs ++ [(acc, write)] } else x
      count { s with xreqs := s.xreqs.map join, xwait := s.xwait.map join }
    else if mine.length ≥ 4 then s
    else
      let x : XReq := { id := 0, req := req, page := page, write := write, accs := [(acc, write)], retried := false, since := [] }
      State.xlatPump (count { s with xwait := s.xwait ++ [x] }) 1

/-! ### Invalidations (R506–R509) -/

/-- Whether an invalidation covers translations made under the present PASID setting (Table 132). -/
def State.invalHits (s : State) (v : Inval) : Bool :=
  match v.kind, s.pasidNow with
  | .all, _ => true
  | .pasid, some p => v.pasid.toNat == p
  | .pasid, none => false
  | .range, some p => v.pasidV && v.pasid.toNat == p
  | .range, none => !v.pasidV

/-- Whether an invalidation overlaps `n` bytes at `a`. -/
def invalOverlaps (v : Inval) (a n : Nat) : Bool :=
  match v.kind with
  | .range =>
    let size := 2 ^ v.sizeLog2
    let base := v.addr.toNat * 4096 / size * size
    a < base + size && base < a + n
  | _ => true

/-- The bytes that a micro-TLB entry covers: first byte and size. -/
def TlbEntry.extent (e : TlbEntry) : Nat × Nat := (e.page * 4096 / pageBytes e.size * pageBytes e.size, pageBytes e.size)

/-- INVALIDATION: overlapping entries are blocked; requests not yet tagged must be translated again, tagged ones complete (R506, R507). -/
def State.invalidate (s : State) (v : Inval) : State :=
  if s.invals.length ≥ 8 || s.invals.any (fun w => w.id == v.id) then s
  else
    let hit := s.invalHits v
    let block := fun (e : TlbEntry) => if hit && invalOverlaps v e.extent.1 e.extent.2 then { e with blocked := true } else e
    let blockedFor := fun (q : MemReq) => ((s.tlbs[q.req]?).getD []).any (fun e => e.covers (q.addr / 4096) && hit && invalOverlaps v e.extent.1 e.extent.2)
    let ports := s.ports.map (fun (m : MemPort) =>
      { m with queue := m.queue.map (fun q => if q.ready && blockedFor q then { q with ready := false } else q),
               tags := m.tags.map (fun (t : Nat × MemReq) =>
                 if blockedFor t.2 then (t.1, { t.2 with stale := t.2.stale ++ [v.id.val] }) else t) })
    { s with invals := s.invals ++ [v], tlbs := s.tlbs.map (fun l => l.map block), ports := ports,
             xreqs := s.xreqs.map (fun x => if hit then { x with since := x.since ++ [v] } else x) }

/-- The cache-part lines of every lane core in an invalidation's range are invalid (R507). -/
def State.dropLines (s : State) (v : Inval) : State :=
  if s.invalHits v then
    { s with lcs := s.lcs.map (fun l => { l with cache := l.cache.filter (fun c => !invalOverlaps v (128 * c.1) 128) }) }
  else s

/-- INVALIDATION_ACK: the tagged requests under the blocked entries have completed, those entries and the cache-part lines in the range are
removed and the acknowledgement is sent, `clks` CK_MEM clocks after arrival (R507, R508). -/
def State.invalAck (s : State) (id : Fin 8) (clks : Nat) : State :=
  match s.invals.find? (fun v => v.id == id) with
  | none => s
  | some v =>
    if s.ports.any (fun m => m.tags.any (fun t => t.2.stale.contains id.val)) then s
    else
      let s : State := { s with
        invals := s.invals.filter (fun w => w.id != id),
        tlbs := s.tlbs.map (fun l => l.filter (fun e => !(e.blocked && invalOverlaps v e.extent.1 e.extent.2))) }
      let s := (s.dropLines v).bump F.xlatInvals 1
      (s.set F.xlatInvMax (max (s.get F.xlatInvMax) (min clks (2 ^ 32 - 1)))).emit (.invAck id.val)

/-! ### Fault records (R512–R516) -/

/-- A fault opens a record in a slot (R514). -/
def State.openRecord (s : State) (slot : Nat) (w : FWait) : State :=
  let s := s.setAll [(F.fltVaLo slot, w.page % 2 ^ 20), (F.fltVaHi slot, w.page / 2 ^ 20), (F.fltInfoOpen slot, 1),
    (F.fltInfoReason slot, w.reason), (F.fltInfoWrite slot, boolNat w.write), (F.fltInfoRead slot, boolNat (!w.write)),
    (F.fltInfoClass slot, w.cls), (F.fltInfoPasid slot, w.pasid), (F.fltReqLo slot, 2 ^ w.req), (F.fltReqHi slot, 2 ^ w.req / 2 ^ 32),
    (F.fltSeq slot, s.fltSeq)]
  let s := ({ s with fltSeq := (s.fltSeq + 1) % 2 ^ 32 }.bump F.xlatFaults 1).raise intXlat
  if w.reason = 3 then s.capture 8 none (w.page % 2 ^ 32) else s

/-- A fault joins an open record (R516). -/
def State.joinRecord (s : State) (slot : Nat) (w : FWait) : State :=
  let s := if w.write then s.mark (F.fltInfoWrite slot) else s.mark (F.fltInfoRead slot)
  let s := if w.cls < s.get (F.fltInfoClass slot) then s.set (F.fltInfoClass slot) w.cls else s
  let s := if w.req < 32 then s.setBit (F.fltReqLo slot) w.req true else s.setBit (F.fltReqHi slot) (w.req - 32) true
  s.bump F.xlatCoalesced 1

/-- The open record of a page and PASID. -/
def State.recordOf (s : State) (page pasid : Nat) : Option Nat :=
  (List.range 16).find? (fun i => s.flag (F.fltInfoOpen i) &&
    s.get (F.fltVaLo i) + 2 ^ 20 * s.get (F.fltVaHi i) == page && s.get (F.fltInfoPasid i) == pasid)

/-- A fault joins a record, opens the lowest free slot, or waits for one (R514, R516). -/
def State.fault (s : State) (w : FWait) : State :=
  match s.recordOf w.page w.pasid with
  | some i => State.joinRecord { s with fwaits := s.fwaits ++ [{ w with slot := some i }] } i w
  | none =>
    match (List.range 16).find? (fun i => !s.flag (F.fltInfoOpen i)) with
    | some i => State.openRecord { s with fwaits := s.fwaits ++ [{ w with slot := some i }] } i w
    | none => { s with fwaits := s.fwaits ++ [{ w with slot := none }] }

/-- Faults that wait for a slot take one, oldest first. -/
def State.takeSlots (s : State) : State :=
  let l := s.fwaits.filter (fun w => w.slot.isNone)
  l.foldl (fun s w => State.fault s w) { s with fwaits := s.fwaits.filter (fun w => w.slot.isSome) }

/-- The accesses of a translation request have faulted. -/
def State.faultAccs (s : State) (x : XReq) (reason : Nat) : State :=
  x.accs.foldl (fun s acc =>
    let s := s.fault { slot := none, acc := acc.1, req := x.req, page := x.page, pasid := s.pasidNow.getD 0, reason := reason,
                       write := acc.2, cls := s.accClass acc.1 }
    match acc.1 with
    | .run e => s.runFaulted e x.page
    | _ => s) s

/-- A translation fills the requester's micro-TLB, its least recently used entry making room, and requests that waited for it take their
physical addresses and go to the ports that carry them, keeping their order (R500, R507). -/
def State.tlbFill (s : State) (req : Nat) (e : TlbEntry) : State :=
  let l := ((s.tlbs[req]?).getD []).filter (fun x => !(x.extent == e.extent && !x.blocked))
  let l := (if l.length ≥ 16 then l.drop 1 else l) ++ [e]
  let s : State := { s with tlbs := modifyAt (fun _ => l) req s.tlbs }
  let waits := fun (q : MemReq) => !q.ready && q.req == req && e.covers (q.addr / 4096) && (if q.write then e.writeOk else e.readOk)
  let moved := s.ports.flatMap (fun m => m.queue.filter waits)
  let s : State := { s with ports := s.ports.map (fun (m : MemPort) => { m with queue := m.queue.filter (fun q => !waits q) }) }
  moved.foldl (fun s q => s.portPush { q with ready := true, pa := s.physical req q.addr }) s

/-- XLAT_RESPONSE: the IOMMU's answer, a fault or a translation, is discarded and asked again where an invalidation came between; else it
reports a fault or fills an entry (R500, R509, R512). -/
def State.xlatResponse (s : State) (id : Fin 64) (r : XlatResp) : State :=
  match s.xreqs.find? (fun x => x.id == id.val) with
  | none => s
  | some x =>
    let e : TlbEntry := { page := x.page, size := r.size.val, pa := r.pa.toNat, readOk := r.readOk, writeOk := r.writeOk, blocked := false }
    let (a, n) := if r.fault.val = 0 then e.extent else (4096 * x.page, 4096)
    if x.since.any (fun v => invalOverlaps v a n) then
      let x' := { x with since := [], retried := false }
      State.sendXlat { s with xreqs := s.xreqs.map (fun y => if y.id == x.id then x' else y) } x'
    else
      let s : State := { s with xreqs := s.xreqs.filter (fun y => y.id != x.id) }
      (if r.fault.val = 0 then s.tlbFill x.req e else s.faultAccs x r.fault.val).xlatPump 1

/-- XLAT_REQUEST_TIMEOUT: sent once more, and the second time a fault with reason ERROR and a TIMEOUT fault (R505). -/
def State.xlatTimeout (s : State) (id : Fin 64) : State :=
  match s.xreqs.find? (fun x => x.id == id.val) with
  | none => s
  | some x =>
    if !x.retried then
      State.sendXlat { s with xreqs := s.xreqs.map (fun y => if y.id == x.id then { y with retried := true } else y) } x
    else
      ((State.faultAccs { s with xreqs := s.xreqs.filter (fun y => y.id != x.id) } x 3).capture 6 (some (reqUnit x.req)) 200).xlatPump 1

/-! ### Answers (R517–R521, Table 134) -/

/-- The requests of an access that no port has issued yet are withdrawn, and no translation that is still out answers to it any more. -/
def State.withdraw (s : State) (acc : Access) : State :=
  let leave := fun (x : XReq) => { x with accs := x.accs.filter (fun a => a.1 != acc) }
  { s with
    ports := s.ports.map (fun (m : MemPort) => { m with queue := m.queue.filter (fun r => r.acc != acc) }),
    xreqs := s.xreqs.map leave, xwait := s.xwait.map leave }

/-- A completion record or failure entry whose write was answered with ABORT is kept in DONE_LOST (R115). -/
def State.lostCompletion (s : State) (c : Fin 4) : State :=
  let q := s.queue c.val
  match q.sent ++ q.writes with
  | w :: r => (s.modQueue c.val (fun q => { q with sent := [], writes := r })).loseWrite c.val w
  | [] => s

/-- The weight tiles and scale-and-bias blocks of a layer of a batch's model that are fetched and have bytes in a page, by the address under
which a dispatch remembers their loss. -/
def State.pageData (s : State) (b : MBatch) (page layer : Nat) : List Nat :=
  let l := s.batchLayer b layer
  let inPage := fun (a n : Nat) => decide (a < 4096 * (page + 1)) && decide (4096 * page < a + n)
  let home := s.tileHome b l
  (match pairClass l.wFmt l.aFmt with
    | some c =>
      if (s.placedLayer b.arr b.model layer).isSome then []
      else ((List.range l.tileCount).filter (fun i =>
        inPage (home i).1 65536 || inPage (home i).2 (attrBlock c l.wFmt l.sparse))).map (fun i => (home i).1)
    | none => []) ++
  (if inPage l.paramAddr (8 * l.n) then [l.paramAddr] else [])

/-- Weight, attribute or scale-and-bias data in a page is lost to the batch `by'` that asked and to every batch that still needs it, for its
running layer or a later one (R360). -/
def State.weightsLost (s : State) (by' page : Nat) : State :=
  s.mbatches.foldl (fun s b =>
      let hits := if b.emitted.isSome || b.arr = noArray then []
        else (List.range (s.batchLayers b)).flatMap (fun l => if b.layer ≤ l then s.pageData b page l else [])
      if hits.isEmpty && b.id != by' then s
      else
        let s := s.modDisp b.disp (fun d => { d with deadTreelets := d.deadTreelets ++ hits.map (fun a => (weightKey a, stPage)) })
        let u := match (s.batchStage b).bind (fun t => (s.mxGroup t b.arr (s.batchCls b)).head?) with
          | some q => quadUnit b.arr q
          | none => quadUnit b.arr 0
        (s.failVecs b (fun _ => true) stPage 0x10 u).batchIfDead b.id) s

/-- The layer table of a MATMUL stage cannot be read: the items of its batches fail, and the dispatch does not read it again (R341, R360, log
entry 94). -/
def State.tableGone (s : State) (id k : Nat) : State :=
  let s := match s.disp id, s.active with
    | some d, some im => (match s.stageOf d k with
      | some t => s.modDisp id (fun d => { d with deadTreelets := d.deadTreelets ++ [(weightKey (im.layerTable t.model), stPage)] })
      | none => s)
    | _, _ => s
  (s.mbatches.filter (fun b => b.disp == id && b.stage == k && b.arr != noArray && b.emitted.isNone)).foldl (fun s b =>
    let u := match (s.batchStage b).bind (fun t => (s.mxGroup t b.arr (s.batchCls b)).head?) with
      | some q => quadUnit b.arr q
      | none => quadUnit b.arr 0
    (s.failVecs b (fun _ => true) stPage 0x10 u).batchIfDead b.id) s

/-- A block of gather queries loses a vector or a candidate (R306). -/
def State.blockLost (s : State) (blk : Nat) (f : GBlock → Option Nat) : State :=
  { s with gblocks := s.gblocks.map (fun (b : GBlock) => if b.id == blk then
      (match f b with | some e => { b with lost := b.lost ++ [e] } | none => b) else b) }

/-- The bytes of a copy below the sector that has faulted (R396): the copy stopped there. -/
def Copy.below (c : Copy) (page : Nat) : Nat :=
  match c.global with | some (a, _) => min c.len (max a (4096 * page) - a) | none => 0

/-- A read that a packet still waiting on its link asked for is answered with ABORT: the packet ends with it (R737). -/
def State.guestLost (s : State) (acc : Access) : State :=
  { s with plk := { s.plk with aborted := s.plk.aborted.filter (· != acc) ++ [acc] } }

/-- The outcome of ABORT for one faulting access (Table 134).  The access has ended, so its waits on other records are withdrawn. -/
def State.abortAccess (s : State) (w : FWait) : State :=
  let s := match w.acc with | .run _ => s | a => s.withdraw a
  let s : State := { s with fwaits := s.fwaits.filter (fun x => x.acc != w.acc) }
  match w.acc with
  | .run e => (s.cutRun e w.page).runAborted' e.val
  | .armDesc e => s.armReleased e.val 6
  | .treelet slot => s.fetchDone slot .abort
  | .segment q ord => s.segLost q ord stPage
  | .weights _ b => s.weightsLost b w.page
  | .layerTable d k => s.tableGone d k
  | .tableEntry d i => s.tableLost d i stPage
  | .vector _ blk item => s.blockLost blk (fun b => (b.queries.findIdx? (fun q => q.item == item)).map (fun i => 4 * i + 2))
  | .candidate _ blk pos => s.blockLost blk (fun _ => some (4 * pos))
  | .neural tg b => s.neuralDone tg b .abort
  | .image a => s.ldrAbort a.toNat
  | .param d => if (s.disp d).isSome then s.paramLost d false else s.guestLost (.param d)
  | .asDesc d => if (s.disp d).isSome then s.paramLost d true else s.guestLost (.asDesc d)
  | .keyset d => if (s.disp d).isSome then s.keysetRead d .abort else s.guestLost (.keyset d)
  | .record c => s.recordRead c .abort
  | .sched i => s.schedPlaced i .abort
  | .completion c => (s.lostCompletion c).drain c
  | .failList c => (s.lostCompletion c).drain c
  | .served n t c => s.guestLost (.served n t c)
  | .lane lc slot lanes =>
    (match s.groupAt lc.val slot.val with
    | some g =>
      let pc := match g.wait with | .load _ => g.pc - 8 | _ => g.pc
      let s := s.modGroup g.id (fun g => match g.wait with
        | .load x =>
          let left := x.addrs.filter (fun e => !bit lanes.toNat e.1)
          { g with wait := if left.isEmpty then .none else .load { x with addrs := left } }
        | _ => g)
      s.finish g.id pc (((lanesOf lanes.toNat).filter (bit g.live)).map (fun l => (l, 0x4C)))
    | none => s)
  | .copy lc slot ctr =>
    (match s.groupAt lc.val slot.val with
    | some g =>
      match g.copies.find? (fun k => k.ctr == ctr.val) with
      | some k =>
        ((s.copyMove g { k with len := k.below w.page }).copyGone g.id k).finish g.id k.pc ((lanesOf g.live).map (fun l => (l, 0x4C)))
      | none => s
    | none => s)
  | .code lc slot =>
    (match s.groupAt lc.val slot.val with
    | some g => s.faultAll g 0x4C
    | none => s)
  | .template d k => s.streamPlace d k .abort
  | .mailbox => s

/-- A record closes (R517). -/
def State.closeRecord (s : State) (slot : Nat) : State := s.set (F.fltInfoOpen slot) 0

/-- RESUME: the record closes, and its requesters issue the translation of their faulting accesses again (R518). -/
def State.resumeFault (s : State) (slot : Nat) : State :=
  if !s.flag (F.fltInfoOpen slot) then s
  else
    let (mine, rest) := s.fwaits.partition (fun w => w.slot == some slot)
    let s := State.closeRecord { s with fwaits := rest } slot
    (mine.foldl (fun s w =>
      let s := match w.acc with
        | .run e => s.seWait e.val 1
        | .completion c => s.drain c
        | .failList c => s.drain c
        | _ => s
      s.xlatRequest w.req w.page w.write w.acc) s).takeSlots

/-- ABORT: the record closes, and each requester ends its faulting access (R520). -/
def State.abortFault (s : State) (slot : Nat) : State :=
  if !s.flag (F.fltInfoOpen slot) then s
  else
    let (mine, rest) := s.fwaits.partition (fun w => w.slot == some slot)
    let s := State.closeRecord { s with fwaits := rest } slot
    (mine.foldl (fun s w => s.abortAccess w) s).takeSlots

/-- FLT_RESP written (R517). -/
def State.answerFault (s : State) (slot v : Nat) : State :=
  match v % 4 with
  | 1 => s.resumeFault slot
  | 2 => s.abortFault slot
  | _ => s

/-- FAULT_RECORD_TIMEOUT: a record open for TIMEOUT_MS is answered with ABORT, counted and logged (R521). -/
def State.faultTimeout (s : State) (slot : Fin 16) : State :=
  if s.get F.xlatTimeout = 0 ∨ s.flag (F.fltInfoOpen slot.val) = false then s
  else
    let page := s.get (F.fltVaLo slot.val) + 2 ^ 20 * s.get (F.fltVaHi slot.val)
    let s := s.bump F.xlatTimeouts 1
    let s := s.note 14 ([BitVec.ofNat 8 slot.val, 255, 255, 255] ++ leBytes 4 (page % 2 ^ 32) ++ List.replicate 4 255)
    s.abortFault slot.val

/-- A requester's waits on records are withdrawn: its bit is cleared from each (R522); the requests that wait for the port take the places of
its own. -/
def State.dropRequester (s : State) (req : Nat) : State :=
  let s : State := { s with fwaits := s.fwaits.filter (fun w => w.req != req), xreqs := s.xreqs.filter (fun x => x.req != req),
                            xwait := s.xwait.filter (fun x => x.req != req) }
  ((List.range 16).foldl (fun s i =>
    if req < 32 then s.setBit (F.fltReqLo i) req false else s.setBit (F.fltReqHi i) (req - 32) false) s).xlatPump 64

/-! ### Hot pages (R523–R527) -/

/-- HOT_DECAY: every count is halved, and an entry below half the threshold clears FLAGGED (R526). -/
def State.hotDecay (s : State) : State :=
  if s.get F.xlatHotDecay = 0 then s
  else
    let th := s.get F.xlatHotCfgThreshold
    { s with hot := s.hot.map (fun e =>
        { e with count := e.count / 2, flagged := e.flagged && !decide (2 * (e.count / 2) < th) }) }

/-- POP: the oldest record leaves the hot FIFO (R527). -/
def State.hotPop (s : State) (v : Nat) : State := if bit v 0 then { s with hotFifo := s.hotFifo.drop 1 } else s

/-! ### Memory ports (R473–R477, R645, R757, R758) -/

/-- Whether a request may use the slot at a position of the cycle of 8 (R473, R474). -/
def State.slotTakes (s : State) (pos : Nat) (q : MemReq) : Bool :=
  let peerless := s.integ.plkPorts == 0
  if pos = 7 then (if peerless then q.prefetch && !q.write else q.remote)
  else if pos = 2 ∨ pos = 5 then q.write && !q.remote
  else !q.write && !q.remote

/-- Whether a write may issue now: every write that its run made before it has been issued, at whatever port it stands (R480). -/
def State.inOrder (s : State) (q : MemReq) : Bool :=
  match q.acc with
  | .run _ => !q.write || s.ports.all (fun m => m.queue.all (fun r => !(r.write && r.acc == q.acc && decide (r.seq < q.seq))))
  | _ => true

/-- MEM_REQUEST_ISSUE: the oldest request of the slot's class takes a tag and issues; without a free tag it waits and the port counts
MP_TAG_WAIT (R473–R476). -/
def State.memIssue (s : State) (mp : Fin 16) (pos : Nat) : State :=
  match s.ports[mp.val]? with
  | none => s
  | some m =>
    if !s.inService (.mp mp) || s.inSeq (.mp mp) || s.resetting.isSome then s
    else match m.queue.findIdx? (fun q => q.ready && s.slotTakes pos q && s.inOrder q) with
      | none => s
      | some i =>
        match m.queue[i]? with
        | none => s
        | some q =>
          if m.tags.length ≥ s.tagLimit then s.bump (F.mpTagWait mp.val) 1
          else
            let used := m.tags.map (fun t => t.1) ++ m.discard
            let tag := ((List.range 2048).find? (fun i => !used.contains i)).getD 0
            let s : State := { s with ports := modifyAt (fun m =>
              { m with queue := m.queue.eraseIdx i, tags := m.tags ++ [(tag, q)] }) mp.val s.ports }
            let s := if q.req < 16 && (accessUnit q.acc).isNone then s.modSe q.req (fun t => { t with taken := false }) else s
            let s := s.emit (.kmp mp.val tag q.write (q.pa / 64 * 64))
            let s := s.bump (if pos = 7 then F.mpRmSectors mp.val else if q.write then F.mpWrSectors mp.val else F.mpRdSectors mp.val) 1
            let s := s.perf (if q.write then 11 else 10) (.mp mp) (some (s.accClass q.acc)) 1
            if q.remote then s else s.hotCount q.addr 1

/-- A sector whose write was answered with POISON or ERROR holds what the fabric leaves there: free values (R758, log entry 22). -/
def State.looseSector (s : State) (a : Nat) : State :=
  let (j, s) := s.draw
  let (k, s) := s.draw
  s.memStore a (leBytes 64 ((Config.freeValue j).toNat + 2 ^ 256 * (Config.freeValue k).toNat))

/-- MEM_RESPONSE: a tag is freed; POISON or ERROR is captured as UNC_DATA and reaches the run or the completion record that it concerns,
and a response without a request is counted (R115, R486, R758). -/
def State.memResponse (s : State) (mp : Fin 16) (tag : Nat) (status : Nat) : State :=
  match s.ports[mp.val]? with
  | none => s
  | some m =>
    if !s.integrated (.mp mp) then s
    else if m.discard.contains tag then
      { s with ports := modifyAt (fun m => { m with discard := m.discard.erase tag }) mp.val s.ports }
    else match m.tags.find? (fun t => t.1 == tag) with
      | none => s.bump (F.mpRspStray mp.val) 1
      | some (_, q) =>
        let s : State := { s with ports := modifyAt (fun m => { m with tags := m.tags.filter (fun t => t.1 != tag) }) mp.val s.ports }
        let bad := status != 0
        let s := if bad then s.capture 2 (some (.mp mp)) (6 * 2 ^ 28 + q.pa / 64 % 2 ^ 28) else s
        match q.acc with
        | .completion c => s.writeAnswered c bad
        | .failList c => s.writeAnswered c bad
        | .run e =>
          if !bad then s
          else if q.write then s.looseSector q.addr
          else s.modRun e.val (fun r => { r with bad := r.bad ++ [q.addr] })
        | _ => if bad && q.write then s.looseSector q.addr else s

/-- MEM_REQUEST_TIMEOUT: a request that has held a tag for 100 µs raises TIMEOUT, and its port is fenced (R645). -/
def State.memTimeout (s : State) (mp : Fin 16) (tag : Nat) : State :=
  match s.ports[mp.val]? with
  | none => s
  | some m => if m.tags.any (fun t => t.1 == tag) && !s.fenced (.mp mp) then s.fenceFault 6 (.mp mp) 100 else s

end Sys2Proof.Machine
end

