-- ==== Sys2Proof/Machine/Fence.lean ====
section
/-! DEFINITION. What becomes of the work that a unit holds when the unit leaves service: rays and groups replayed, runs and memory
requests taken over by peers ("Fault Containment and Ageing", R649–R654). -/

namespace Sys2Proof.Machine

/-- Items replayed are counted for the EPOCH_FENCE record (R664). -/
def State.countReplay (s : State) (n : Nat) : State := { s with window := s.window.map (fun w => { w with replayed := w.replayed + n }) }

/-! ### Traversal clusters (R651, R652) -/

/-- The ray number that no ray has: what a lane holds of a callout whose reply is to be discarded. -/
def noRay : Nat := 2 ^ 64

/-- Whether a cluster holds a ray or query: in a batch, in a context or suspended. -/
def Ray.heldBy (r : Ray) (tc : Nat) : Bool := r.tc == tc && (r.loc == .batch || r.loc == .ctx || r.loc == .callout || r.loc == .neural)

/-- The rays and queries among `l` go back to the untaken state of their queue entries; callout replies and neural samples for them are
discarded (R651, R652). -/
def State.takeBack (s : State) (l : List Nat) : State :=
  let lane := fun (x : LaneIn) => if l.contains x.ray then { x with ray := noRay } else x
  { s with
    rays := s.rays.map (fun (r : Ray) => if l.contains r.id then { r.fromCont with loc := .queued, replayed := true } else r),
    batches := (s.batches.map (fun (b : Batch) => { b with rays := b.rays.filter (fun x => !l.contains x) })).filter (fun b => !b.rays.isEmpty),
    tqs := s.tqs.map (fun (t : TQueue) => { t with segs := t.segs.map (fun (g : Seg) =>
      { g with entries := g.entries.map (fun (e : SegEntry) => if l.contains e.ray && e.st == 1 then { e with st := 0 } else e) }) }),
    callouts := s.callouts.filter (fun c => !l.contains c.ray),
    groups := s.groups.map (fun (g : Group) => if g.launch ≥ 4 then { g with lanes := g.lanes.map lane } else g),
    nbatches := (s.nbatches.map (fun (b : NBatch) => { b with samples := b.samples.filter (fun x => !l.contains x.ray) })).filter
      (fun b => !b.samples.isEmpty) }

/-- The rays and queries replayed (R664). -/
def State.returnRays (s : State) (l : List Nat) : State := (s.takeBack l).countReplay l.length

/-- Rays and queries in queues of stages that no cluster of the mask is left to walk end with FAIL_FENCED (R648). -/
def State.failUnserved (s : State) : State :=
  let l := s.rays.filter (fun r => (r.loc == .queued || r.loc == .overflow) && (match s.rayStage r with | some t => s.noCluster t | none => false))
  let s : State := { s with overflow := s.overflow.filter (fun x => !l.any (fun r => r.id == x)) }
  (l.foldl (fun s r => match s.rayStage r with | some t => s.unserved r t | none => s) s).tidyQueues

/-- A cluster has left service: what it held goes back to the ray sorter, its caches hold nothing. -/
def State.clusterLost (s : State) (tc : Nat) : State :=
  let l := (s.rays.filter (fun r => r.heldBy tc)).map (fun r => r.id)
  let s := (s.returnRays l).dropRequester (16 + tc)
  let s : State := { s with preempts := s.preempts.filter (fun p => p.unit != tcUnit tc) }
  (s.modCaches tc (fun _ => Caches.init)).failUnserved

/-! ### Lane cores (R653, R219) -/

/-- A callout without a reply is due to be posted again (R219). -/
def State.repost (s : State) (ray : Nat) : State :=
  s.modRay ray (fun r => { r with call := r.call.map (fun c => if c.reply.isNone then { c with lc := none } else c) })

/-- A group formed again over the lanes that have not ended their items, from their input entries. -/
def State.formAgain (s : State) (g : Group) : Group :=
  let lanes := if g.launch = 3 then g.lanes else g.lanes.filter (fun x => !x.ended)
  let m := if g.launch = 3 then 2 ^ 32 - 1 else 2 ^ lanes.length - 1
  { g with slot := none, live := m, active := m, pc := (s.progOf g.prog).entry g.launch, divs := [], spilled := 0, regs := [],
           preds := List.replicate 7 0, lanes := lanes ++ List.replicate (32 - lanes.length) LaneIn.idle, out := none, frame := 0,
           frameLen := 0, counters := List.replicate 8 { issued := 0, done := 0 }, copies := [], wait := .none, locks := [],
           saved := false, saveRow := 0 }

/-- The items that a group still has to end. -/
def State.groupItems (s : State) (g : Group) : Nat :=
  if g.launch = 3 then (if g.tileDone then 0 else (s.tileLive g).length) else (g.lanes.filter (fun x => !x.ended)).length

/-- A group resident on a lane core is discarded: its locks are released, its items formed again or its callouts posted again. -/
def State.groupLost (s : State) (g : Group) : State :=
  let s := s.releaseLocks g 0xFFFFFFFF
  let n := s.groupItems g
  if g.launch ≥ 4 ∨ n = 0 then
    let rays := (g.lanes.filter (fun x => !x.ended)).map (fun x => x.ray)
    let s : State := { s with groups := s.groups.filter (fun x => x.id != g.id) }
    if g.launch ≥ 4 then rays.foldl (fun s r => s.repost r) s else s
  else (s.modGroup g.id (fun g => s.formAgain g)).countReplay n

/-- A lane core has left service. -/
def State.coreLost (s : State) (lc : Nat) : State :=
  let hit := s.groups.filter (fun g => g.lc == lc && (g.slot.isSome || g.launch ≥ 4))
  let s := hit.foldl (fun s g => s.groupLost g) (s.dropRequester (48 + lc))
  let calls := (s.callouts.filter (fun c => c.lc == lc)).map (fun c => c.ray)
  let s := calls.foldl (fun s r => s.repost r) s
  let s : State := { s with
    callouts := s.callouts.filter (fun c => c.lc != lc), lcs := modifyAt (fun _ => LaneCore.init) lc s.lcs,
    preempts := s.preempts.filter (fun p => p.unit != lcUnit lc),
    nbatches := s.nbatches.map (fun (b : NBatch) => if b.closed && b.quad.isNone && b.lc == lc then { b with lc := (s.neuralPlace b).2 } else b) }
  let lost := s.rays.filter (fun r => r.loc == .callout && r.tc / 4 == lc / 2 && (s.calloutCore (r.tc / 4)).isNone &&
    (match r.call with | some c => c.lc.isNone | none => false))
  let s := lost.foldl (fun s r => s.failRay r stFenced 0x12 (tcUnit r.tc) true) s
  s.disps.foldl (fun s d => (List.range d.stages.length).foldl (fun s k => s.failLaneStage d.id k) s) s

/-! ### Quadrants (R357, R306) -/

/-- A quadrant has left service. -/
def State.quadLost (s : State) (q : Fin 8) : State :=
  let s : State := { s with
    preempts := s.preempts.filter (fun p => p.unit != .quad q),
    nbatches := s.nbatches.map (fun (b : NBatch) => if b.closed && b.quad == some q.val then
      let (x, l) := s.neuralPlace b; { b with quad := x, lc := l } else b) }
  s.quadFenced q

/-! ### Stream engines (R487, R522) -/

/-- A run leaves an engine that has left service: an owner-armed one ends FENCED, a stage's waits to continue on a peer. -/
def State.slotLost (s : State) (n : Nat) (x : SSlot) : State :=
  match x with
  | .free => s
  | .pending arm _ _ _ => s.armResult n arm 7
  | .run r =>
    match r.owner with
    | .armed => s.endRun n r runFenced
    | .stage id k item _ _ =>
      match s.stageFor id k with
      | some t =>
        if (s.sesUp t.seMask).isEmpty then s.endRun n r runFenced
        else
          { s with sitems := s.sitems.map (fun (y : StreamItem) => if y.disp == id && y.stage == k && y.item == item then
              { y with busy := false, saved := some { r with next := r.delivered, xfers := [], bad := [], taken := true } } else y) }
      | none => s

/-- Whether an access belongs to a stream engine itself, and not to a service request. -/
def ownAccess (a : Access) : Bool := (accessUnit a).isSome

/-- The requests of a stream engine leave the ports: its own are dropped, and those it made for others are answered; responses that still come
are discarded (R650). -/
def State.dropRequests (s : State) (req : Nat) : List MemReq × State :=
  let mine := fun (q : MemReq) => q.req == req
  (s.ports.flatMap (fun (m : MemPort) => ((m.tags.map (fun t => t.2)) ++ m.queue).filter (fun q => mine q && !ownAccess q.acc)),
   { s with ports := s.ports.map (fun (m : MemPort) =>
    { queue := m.queue.filter (fun q => !mine q), tags := m.tags.filter (fun t => !mine t.2),
      discard := m.discard ++ (m.tags.filter (fun t => mine t.2)).map (fun t => t.1) }) })

/-- Treelet fetches charged to an engine that has left service are charged to others, each to the one of R251 at that moment, of which it takes
what the limit of 6 leaves. -/
def State.fetchesMove (s : State) (n : Nat) : State :=
  (s.tslots.filter (fun x => x.2.state == .fetching && x.2.se == n)).foldl (fun s x =>
    match s.serviceSe with
    | none => s
    | some p =>
      let k := min x.2.charged (6 - s.seOutstanding p.val)
      { (s.service p.val k true) with
        tslots := s.tslots.map (fun (y : Nat × TSlot) => if y.1 == x.1 then (y.1, { y.2 with se := p.val, charged := k }) else y) }) s

/-- A request that a fenced engine made for others is issued again: by the engine that now serves its treelet, or by that of R251 (R487). -/
def State.reissue (s : State) (q : MemReq) : State :=
  let p := match q.acc with
    | .treelet slot => (s.tslots.find? (fun x => x.1 == slot.val && x.2.state == .fetching)).map (fun x => x.2.se)
    | _ => s.serviceSe.map (fun e => e.val)
  match p with
  | none => s
  | some p =>
    let s := s.modSe p (fun t => { t with taken := true })
    s.portPush { q with req := p, pa := s.physical p q.addr, ready := (s.tlbHit p (q.addr / 4096) q.write).isSome, stale := [] }

/-- A stream engine has left service: its runs and service requests go to peers. -/
def State.seLost (s : State) (n : Nat) : State :=
  let t := s.se n
  let s := (s.modSe n (fun t => { StreamEng.init with arms := t.arms })).dropRequester n
  let s := ((s.slotLost n t.active).slotLost n t.shadow).fetchesMove n
  let (moved, s) := s.dropRequests n
  let s := moved.foldl (fun s q => s.reissue q) s
  [0, 1, 2, 3].foldl (fun s c => s.drain (clsOf c)) s

/-! ### Memory ports (R654) -/

/-- A memory port has left service: what it held is issued again under the new interleave, and late responses are discarded. -/
def State.portLost (s : State) (p : Nat) : State :=
  match s.ports[p]? with
  | none => s
  | some m =>
    let moved := m.tags.map (fun t => if t.2.stale.isEmpty then t.2 else { t.2 with ready := false, stale := [] }) ++ m.queue
    let s : State := { s with ports := modifyAt (fun m => { queue := [], tags := [], discard := m.discard ++ m.tags.map (fun t => t.1) }) p s.ports }
    moved.foldl (fun s q => s.portPush q) s

end Sys2Proof.Machine
end

