-- ==== Sys2Proof/Machine/Power.lean ====
section
/-! DEFINITION. Operating points, the power handshake, supply dips and supplied clocks ("Reset, Power and Clocks", R596–R611 and
R631–R636; "Management Subsystem and Monitor", R696; "Integration Interface", R756). -/

namespace Sys2Proof.Machine

/-! ### The domains with an operating point, by rail (Table 193): 0 SRT, 1 MXA, 2 MXB, 3–10 TG0–TG7 -/

/-- The RAS_AGE_SEL code of a rail's domain (R671). -/
def ageOf (k : Nat) : Nat := match k with | 0 => 2 | 1 => 0 | 2 => 1 | _ => k

/-- The rail of a RAS_AGE_SEL code below 11. -/
def railOf (c : Nat) : Nat := match c with | 0 => 1 | 1 => 2 | 2 => 0 | _ => c

/-- The OP at which a rail's domain runs. -/
def State.opOf (s : State) (k : Nat) : Nat :=
  match k with
  | 0 => s.get F.cpOpCoreSrtOp
  | 1 => s.get F.cpOpCoreMxaOp
  | 2 => s.get F.cpOpCoreMxbOp
  | _ => bits (s.get F.cpOpTg) (3 * (k - 3)) 3

/-- Three bits of a packed field set to `v`. -/
def setOctal (w i v : Nat) : Nat := w - bits w (3 * i) 3 * 2 ^ (3 * i) + v % 8 * 2 ^ (3 * i)

/-- The state with a rail's domain at an OP. -/
def State.setOp (s : State) (k v : Nat) : State :=
  match k with
  | 0 => s.set F.cpOpCoreSrtOp v
  | 1 => s.set F.cpOpCoreMxaOp v
  | 2 => s.set F.cpOpCoreMxbOp v
  | _ => s.set F.cpOpTg (setOctal (s.get F.cpOpTg) (k - 3) v)

/-- The ageing record of a RAS_AGE_SEL code. -/
def State.age (s : State) (c : Nat) : Ageing := (s.ageing[c]?).getD Ageing.init

/-- The highest OP that a rail's ageing cap permits (R668). -/
def State.capOp (s : State) (k : Nat) : Nat := min 5 (s.age (ageOf k)).cap

/-- The limits of the control loops on a rail's domain. -/
def State.loop (s : State) (k : Nat) : LoopDom := (s.mgmt.loops[k]?).getD LoopDom.init

/-- The state with a rail's loop record changed. -/
def State.modLoop (s : State) (k : Nat) (f : LoopDom → LoopDom) : State :=
  { s with mgmt := { s.mgmt with loops := modifyAt f k s.mgmt.loops } }

/-- The OP that a domain is to run at (R37, R611, R694). -/
def State.opTarget (s : State) (k : Nat) : Nat :=
  let l := s.loop k
  if s.mgmt.trip then 5
  else if s.flag F.cpOpOvrEn then max (min 5 (s.get F.cpOpOvrOvrOp)) (max l.brown (s.capOp k))
  else max (min 5 (s.get F.cpOpReq)) (max (max l.thermal l.power) (max l.brown (s.capOp k)))

/-- The voltage code of a domain at an OP: the OP's base with the domain's ageing offset (R667, R756). -/
def State.opCode (s : State) (k op : Nat) : Nat := (Config.baseCode k op + (((s.age (ageOf k)).vadj[op]?).getD 0)) % 256

/-- A new voltage request on a rail (R756). -/
def State.vreqOut (s : State) (k code : Nat) : State :=
  State.emit { s with vreq := modifyAt (fun _ => code) k s.vreq, vwait := withBit s.vwait k true } (.vreq k code)

/-- The next domain of a change (R608): lowering from CK_TG7 to CK_SRT first, then raising from CK_SRT to CK_TG7. -/
def State.nextMove (s : State) : Option OpMove :=
  match (List.range 11).reverse.find? (fun k => s.opTarget k > s.opOf k) with
  | some k => some { rail := k, target := s.opTarget k, raising := false, second := false }
  | none => ((List.range 11).find? (fun k => s.opTarget k < s.opOf k)).map (fun k =>
      { rail := k, target := s.opTarget k, raising := true, second := false })

/-- The next domain begins its change when none is in progress (R607, R608, R610); nothing begins in NAP or SLEEP (R625), in a reset or
before start-up ends. -/
def State.opKick (s : State) : State :=
  if s.opMove.isSome || s.get F.cpLpStatusState ≥ lpNap || !s.present then s
  else match s.nextMove with
    | none => s.set F.cpOpCoreChanging 0
    | some m =>
      let s := { s.mark F.cpOpCoreChanging with opMove := some m }
      if m.raising ∧ bit s.vwait m.rail = false then s.vreqOut m.rail (s.opCode m.rail m.target) else s

/-- CP_OP_REQ written. -/
def State.opRequested (s : State) (v : Nat) : State := (s.set F.cpOpReq v).opKick

/-- CP_OP_OVR written (R611). -/
def State.opOverridden (s : State) (v : Nat) : State := (s.setAll [(F.cpOpOvrEn, bits v 31 1), (F.cpOpOvrOvrOp, v)]).opKick

/-- The supply of a rail has acknowledged: a domain being raised switches its clock, one being lowered has ended its change (R608). -/
def State.vack (s : State) (k : Nat) : State :=
  if !bit s.vwait k then s
  else
    let s : State := { s with vwait := withBit s.vwait k false }
    match s.opMove with
    | some m =>
      if m.rail ≠ k then s
      else if m.raising then
        if m.second then s
        else if (s.vreq[k]?).getD 0 = s.opCode k m.target then { s with opMove := some { m with second := true } }
        else s.vreqOut k (s.opCode k m.target)
      else if m.second then
        if (s.vreq[k]?).getD 0 = s.opCode k m.target then State.opKick { s with opMove := none }
        else s.vreqOut k (s.opCode k m.target)
      else s
    | none => s

/-- The clock switch of a domain ends: it runs at its new OP; a raised domain's change is over, a lowered one's voltage is requested (R608,
R609). -/
def State.clockSwitched (s : State) (k : Nat) : State :=
  match s.opMove with
  | some m =>
    if m.rail ≠ k then s
    else if m.raising then
      if m.second then State.opKick { s.setOp k m.target with opMove := none } else s
    else if m.second then s
    else
      let s := { s.setOp k m.target with opMove := some { m with second := true } }
      if bit s.vwait k then s else s.vreqOut k (s.opCode k m.target)
  | none => s

/-- The OP fields after a reset: OP0, or the lowest OP that the ageing caps still permit (R668). -/
def State.opReset (s : State) : State := (List.range 11).foldl (fun s k => s.setOp k (s.capOp k)) s

/-! ### Loop limits (R693–R697) -/

/-- The loop limit of a domain: the lowest point of R693 to R696. -/
def State.loopLimit (s : State) (k : Nat) : Nat := let l := s.loop k; max (max l.thermal l.power) l.brown

/-- SNS_LIMIT shows a domain's loop limit. -/
def State.showLimit (s : State) (k : Nat) : State :=
  let v := s.loopLimit k
  match k with
  | 0 => s.set F.snsLimitCoreSrt v
  | 1 => s.set F.snsLimitCoreMxa v
  | 2 => s.set F.snsLimitCoreMxb v
  | _ => s.set F.snsLimitTg (setOctal (s.get F.snsLimitTg) (k - 3) v)

/-- A limit of loop `w` (0 thermal, 1 power cap, 2 brown-out) on a domain moves from `a` to `b`: logged, shown, and the OP sequence starts
(R697, Table 174). -/
def State.limitMoved (s : State) (w k a b : Nat) : State :=
  let f := match w with | 0 => F.snsThermStatusLimited | 1 => F.snsThermStatusCapped | _ => F.snsThermStatusBrownout
  let s := s.note 6 ([BitVec.ofNat 8 w, BitVec.ofNat 8 (ageOf k), BitVec.ofNat 8 a, BitVec.ofNat 8 b] ++ List.replicate 8 255)
  ((s.mark f).showLimit k).opKick

/-! ### Supply dips (R631–R636, R696) -/

/-- The rail whose OP the brown-out loop moves for a power domain. -/
def railOfDomain (d : Nat) : Option Nat :=
  if d = 5 then some 0 else if 7 ≤ d ∧ d ≤ 10 then some 1 else if 11 ≤ d ∧ d ≤ 14 then some 2
  else if 21 ≤ d ∧ d ≤ 28 then some (d - 18) else none

/-- Whether the supply of a domain is monitored: on, and not with its clocks stopped in NAP (R631). -/
def State.monitored (s : State) (d : Nat) : Bool :=
  s.domOn d && !(s.get F.cpLpStatusState == lpNap && !(d ≤ 4)) && (s.get F.cpLpStatusState != lpSleep || d ≤ 1)

/-- SUPPLY_DIP: the domain runs at half rate, and the dip is counted, captured and, as the fourth within 1 s, lowers the brown-out limit. -/
def State.dip (s : State) (d : Nat) : State :=
  if !s.monitored d then s
  else
    let s := ((s.setBit F.cpSupStretch d true).bump F.cpSupDips 1).capture 11 none (d * 2 ^ 24)
    match railOfDomain d with
    | none => s
    | some k =>
      let l := s.loop k
      if s.mgmt.down then s
      else if l.dips.length ≥ 3 then
        let b := min 5 (l.brown + 1)
        let s := s.modLoop k (fun l => { l with dips := [], brown := b })
        if b = l.brown then s else s.limitMoved 2 k l.brown b
      else s.modLoop k (fun l => { l with dips := l.dips ++ [0] })

/-- SUPPLY_RECOVER: full rate again; the longest period and the log take the `clks` CK_AON clocks spent at half rate (R633, R634). -/
def State.dipOver (s : State) (d clks : Nat) : State :=
  if !bit (s.get F.cpSupStretch) d then s
  else
    let s := (s.setBit F.cpSupStretch d false).set F.cpSupLongest (max (s.get F.cpSupLongest) (min clks 0xFFFFFFFF))
    s.note 4 ([BitVec.ofNat 8 d, 255, 255, 255] ++ leBytes 4 (min clks 0xFFFFFFFF) ++ List.replicate 4 255)

/-- BROWNOUT_RECOVER: 10 s without a dip raise the brown-out limit of a domain by one OP (R696). -/
def State.brownRecover (s : State) (d : Nat) : State :=
  match railOfDomain d with
  | none => s
  | some k =>
    let b := (s.loop k).brown
    if b = 0 ∨ s.mgmt.down = true then s else (s.modLoop k (fun l => { l with brown := b - 1 })).limitMoved 2 k b (b - 1)

/-! ### Supplied clocks (Table 153, R598) -/

/-- The index of a supplied clock, and the range in kHz within which it may move: one point for a clock that never changes, which for the
host-interface and memory clocks is the frequency fixed at integration (R35, Table 153). -/
def clockRange (g : Integ) (c : SuppliedClock) : Nat × Nat × Nat :=
  match c with
  | .aon => (0, 100000, 100000) | .hif => (1, g.hifKhz, g.hifKhz) | .mem => (2, g.memKhz, g.memKhz)
  | .plk => (3, 1250000, 1250000) | .hrp => (4, 200000, 1600000) | .uart => (5, 48000, 48000)

/-- SUPPLIED_CLOCK_CHANGE: the frequency moves, and nothing else. -/
def State.clockMoved (s : State) (c : SuppliedClock) (khz : Nat) : State :=
  let (i, lo, hi) := clockRange s.integ c
  if lo ≤ khz ∧ khz ≤ hi then { s with clkKhz := modifyAt (fun _ => khz) i s.clkKhz } else s

end Sys2Proof.Machine
end

