-- ==== Sys2Proof/Machine/Reset.lean ====
section
/-! DEFINITION. Resets, power domains, low-power states and wipes: what each sets back and what survives ("Reset, Power and Clocks",
R602–R606, R612–R630). -/

namespace Sys2Proof.Machine

/-! ### Which registers lie in which domain (Table 143, Table 154) -/

/-- The power domain of the block at a window address, where one domain holds it. -/
def domainOfAddr (a : Nat) : Nat :=
  if a < 0x1000 then 2
  else if a < 0x2000 then 1
  else if a < 0x8000 then 5
  else if a < 0xC000 then 0
  else if a < 0x10000 then 1
  else if a < 0x18000 then 21 + (a - 0x10000) / 0x1000
  else if a < 0x18100 then 5
  else if a < 0x18200 then 29
  else if a < 0x20000 then 5
  else if a < 0x24000 then 7
  else if a < 0x28000 then 11
  else if a < 0x2C000 then 21 + (a - 0x28000) / 0x800
  else if a < 0x30000 then 5
  else if a < 0x34100 then 6
  else if a < 0x3C000 then 3
  else if a < 0x40000 then 5
  else if a < 0x44000 then 1
  else if a < 0x48000 then 4
  else if a < 0x4C000 then 5
  else 1

/-- Whether a window address is reset by SOFT and by SLEEP: every block but those of PD_AON and PD_MGT (R612). -/
def softReaches (a : Nat) : Bool := let d := domainOfAddr a; d != 0 && d != 1

/-! ### The peer link at a reset (R716, R725) -/

/-- The peer link's state after a reset of PD_PLK: the straps give PLK_ID and PLK_PORT_EN, an enabled port is DOWN, and the lanes are as
they were. -/
def State.plkReset (s : State) : State :=
  let s := s.resetRegs (fun a => 0x44000 ≤ a && a < 0x48000)
  let s := (s.set F.plkNode s.strap).set F.plkEn s.integ.plkEnReset
  let s := (List.range 8).foldl (fun s p => s.set (F.plkPortState p)
    (if decide (p < s.integ.plkPorts) && bit s.integ.plkEnReset p then psDown else psDisabled)) s
  { s with plk := { Plk.init with laneDown := s.plk.laneDown } }

/-- GOODBYE goes out on every UP port (R718). -/
def State.goodbyes (s : State) : State := (List.range 8).foldl (fun s p => if s.plkUp p && !s.plk.laneDown.contains p then s.linkSend p 2 0 else s) s

/-! ### SOFT, WARM and POR (R612–R615, Table 159) -/

/-- What SOFT and SLEEP set back: every domain but PD_AON and PD_MGT.  A DOMAIN reset or a wipe in progress ends as it would have: its GO
is kept (Table 159). -/
def State.softContent (s : State) : State :=
  let z := State.reset
  let s := s.resetRegs softReaches
  State.plkReset { s with
    wbuf := [], svc := 0, active := none, staged := none, firstImage := false, loadAddr := 0, tagStart := true, lpGoing := false,
    queues := z.queues, disps := [], schedWait := [], sf := [], sfPoison := [], rays := [], tqs := [], overflow := [], batches := [],
    tslots := [], ts := [], tsPoison := [], nbatches := [], callouts := [], gblocks := [], hrBuf := z.hrBuf, hold := [], groups := [], lcs := z.lcs,
    preempts := [], ses := z.ses, sitems := [], ports := s.ports.map (fun m => { queue := [], tags := [], discard := m.discard }),
    tlbs := z.tlbs, xreqs := [], xwait := [], fwaits := [], fltSeq := 0, invals := [], hot := [], hotFifo := [], caches := z.caches, cmOp := none,
    quads := z.quads, ws := z.ws, mbatches := [], macRem := [] }

/-- What the management subsystem keeps across POR and WARM: its fuses, its flash and what it rebuilds from the log (R688, R689, R698);
entries that waited in SRAM are lost. -/
def Mgmt.kept (m : Mgmt) (por : Bool) : Mgmt :=
  { Mgmt.init with
    flash := m.flash, erases := m.erases, svnFuse := m.svnFuse, lifecycle := m.lifecycle, keys := m.keys, hours := m.hours, fenceHist := m.fenceHist,
    boots := m.boots, logSeq := m.logSeq - m.logBuf.length, logPos := m.logPos,
    records := if por then 0 else m.records, corrTotal := if por then 0 else m.corrTotal, otherTotal := if por then 0 else m.otherTotal }

/-- What WARM, LIFECYCLE and POR set back: every domain, with the content of Table 159 kept; start-up begins. -/
def State.fullContent (s : State) (cause : Nat) : State :=
  let por := cause = 1
  let s := s.softContent.resetRegs (fun a => !softReaches a && (por || !(a == 0x8040 || a == 0x8044)))
  let s : State := { s with
    startup := 1, present := false, resetting := none, domBusy := none, wiping := none, opMove := none, vwait := 0, hb := 0, claimOpen := false, claims := 0,
    schedK := State.reset.schedK, window := none, fseqs := [], fenceOrder := [], ownFenced := [], therm := false, mgmt := s.mgmt.kept por }
  let s : State := if por then { s with vreq := (List.range 11).map (fun k => s.opCode k (s.capOp k)) } else s
  ((s.set F.rstStatusCause cause).plkReset).opReset

/-- Whether the integration parameters lie within the limits of Table 191. -/
def Integ.ok (i : Integ) : Bool :=
  4 ≤ i.memPorts && i.memPorts ≤ 16 && i.plkPorts ≤ 8 && 0 < i.masters && i.masters < 16 && i.monMaster < 4 && bit i.masters i.monMaster &&
  i.streamId < 65536 && i.plkEnReset < 2 ^ i.plkPorts

/-- POR: the whole engine is reset, and start-up begins with the straps as sampled (R754, Table 156). -/
def State.porReset (s : State) (strap : Nat) : State := State.fullContent { s with strap := strap, resetting := none } 1

/-- A reset that drains first begins: no new memory request and no new flit (R613); GOODBYE leaves on every UP port (R718).  A reset in
progress gives way only to one that reaches further. -/
def State.beginReset (s : State) (cause : Nat) : State :=
  match s.resetting with
  | some r =>
    if cause = 6 ∨ (cause ≠ 2 ∧ r.cause ≠ 6) then s else { s with resetting := some { cause := cause, drained := false } }
  | none => State.goodbyes { s with resetting := some { cause := cause, drained := false } }

/-- SOFT in RST_CTRL (R614); in NAP it ends NAP at once (R625). -/
def State.softBegin (s : State) : State :=
  if s.resetting.isSome then s
  else
    let s := if s.get F.cpLpStatusState ≠ lpRun then s.setAll [(F.cpLpStatusState, lpRun), (F.cpLpCtrlReq, 0)] else s
    State.beginReset (s.setAll [(F.rstCtrlSoft, 1), (F.rstStatusSoftBusy, 1)]) 6

/-- A WARM reset begins: by its input with the straps to be sampled, by the owner or by the management subsystem. -/
def State.warmBegin (s : State) (cause : Nat) : State := if s.startup ≠ 0 then s.fullContent cause else s.beginReset cause

/-- The dispatches that SOFT ends without a record: taken, and their completion record not yet written. -/
def State.unrecorded (s : State) : Nat :=
  s.disps.length + s.queues.foldl (fun n q => n + ((q.sent ++ q.writes ++ q.lost).filter (fun w => !w.entry)).length) 0

/-- RESET_DRAIN_DONE: no tag is held any more; PRESENT falls and the content of the reset is set back. -/
def State.drained (s : State) : State :=
  match s.resetting with
  | some r =>
    if r.drained || s.ports.any (fun m => !m.tags.isEmpty) then s
    else if r.cause = 6 then
      let n := s.unrecorded
      let s : State := s.softContent
      { s.set F.rstDropped n with present := false, resetting := some { r with drained := true } }
    else s.fullContent r.cause
  | none => s

/-- The domains whose memories a wipe of a set of stores clears (Table 162). -/
def wipeDomains (set : Nat) : List Nat :=
  (if bit set 0 then [17, 18, 19] else []) ++ (if bit set 1 then [15, 16] else []) ++ (if bit set 2 then [20] else []) ++
  (if bit set 3 then [7, 8, 9, 10, 11, 12, 13, 14] else []) ++
  (if bit set 4 || bit set 5 then [21, 22, 23, 24, 25, 26, 27, 28] else [])

/-- The domains that a DOMAIN reset or a wipe in progress keeps out of service (R616, R629). -/
def State.wipingDomains (s : State) : List Nat :=
  s.domBusy.toList ++ (match s.wiping with | some w => wipeDomains w | none => [])

/-- The domains in service once a reset or SLEEP has ended: every one that is on and not being wiped. -/
def State.svcBack (s : State) : Nat := s.wipingDomains.foldl (fun m d => withBit m d false) (s.get F.cpPdState)

/-- SOFT_RESET_END: SOFT clears, CAUSE reads SOFT, PRESENT rises and the units of every domain that is on are in service. -/
def State.softEnd (s : State) : State :=
  match s.resetting with
  | some r =>
    if r.cause = 6 ∧ r.drained = true then
      let s := s.setAll [(F.rstCtrlSoft, 0), (F.rstStatusSoftBusy, 0), (F.rstStatusCause, 6)]
      { s with resetting := none, present := true, svc := s.svcBack }
    else s
  | none => s

/-! ### Wipes and the content of single domains (R616, R628–R630) -/

/-- The units of a set of clusters hold nothing: caches invalid, micro-TLBs empty. -/
def State.wipeClusters (s : State) (p : Nat → Bool) : State :=
  { s with caches := s.caches.zipIdx.map (fun e => if p e.2 then Caches.init else e.1),
           tlbs := s.tlbs.zipIdx.map (fun e => if 16 ≤ e.2 && e.2 < 48 && p (e.2 - 16) then [] else e.1) }

/-- The lane cores of a set: local store, code buffer and cache part wiped, micro-TLBs empty. -/
def State.wipeCores (s : State) (p : Nat → Bool) : State :=
  { s with lcs := s.lcs.zipIdx.map (fun e => if p e.2 then { e.1 with store := [], cache := [], code := [] } else e.1),
           tlbs := s.tlbs.zipIdx.map (fun e => if 48 ≤ e.2 && p (e.2 - 48) then [] else e.1) }

/-- The Shared Field units of domain `d` wiped; poison goes with them. -/
def State.wipeField (s : State) (d : Nat) : State :=
  let (u0, n, _, _) := sfDomain d
  let mine := fun (line : Nat) => u0 * 1024 ≤ line && line < (u0 + n) * 1024
  { s with sf := sclear (fun a => mine (a / 64)) s.sf, sfPoison := s.sfPoison.filter (fun l => !mine l) }

/-- The Treelet Store wiped: every slot is FREE; a batch whose slot is gone gives its rays back, and a fetch in flight is dropped. -/
def State.wipeTreelets (s : State) : State :=
  let l := s.batches.flatMap (fun b => b.rays)
  let s := s.tslots.foldl (fun s e => if e.2.state == .fetching then s.service e.2.se e.2.charged false else s) s
  State.returnRays { s with tslots := [], ts := [], tsPoison := [] } l

/-- A Weight Store half wiped. -/
def State.wipeHalf (s : State) (h : Nat) : State := { s with ws := modifyAt (fun _ => WStore.init) h s.ws }

/-- Owner-armed runs of PD_SE end ABORTED, their shadow runs are discarded, and every engine is as after reset (R616). -/
def State.abortArmed (s : State) (n : Nat) : State :=
  let s := s.modSe n (fun t => match t.shadow with | .run r => if r.owner = .armed then { t with shadow := .free } else t | .pending _ _ _ _ => { t with shadow := .free } | _ => t)
  match s.activeRun n with
  | some r => if r.owner = .armed then s.endRun n r runAborted else s
  | none => s

/-- The logic, registers and memories of one domain at their reset contents (R606, R616, Table 159). -/
def State.domainInit (s : State) (d : Nat) : State :=
  if d = 4 then s.plkReset
  else if d = 6 then
    let s := ((List.range 16).foldl (fun s n => s.abortArmed n) s).resetRegs (fun a => 0x30000 ≤ a && a < 0x34100)
    { s with ses := State.reset.ses, tlbs := s.tlbs.zipIdx.map (fun e => if e.2 < 16 then [] else e.1) }
  else if 7 ≤ d ∧ d ≤ 14 then
    let q := d - 7
    let s : State := { s with quads := modifyAt (fun _ => Quad.init) q s.quads }
    let s := s.setBit (F.mxHalf (q / 4)) (q % 4) false
    let b := 7 + q / 4 * 4
    if [0, 1, 2, 3].all (fun i => b + i == d || !s.domOn (b + i)) then s.resetRegs (fun a => domainOfAddr a == b) else s
  else if d = 15 ∨ d = 16 then s.wipeHalf (d - 15)
  else if 17 ≤ d ∧ d ≤ 19 then s.wipeField d
  else if d = 20 then s.wipeTreelets
  else if 21 ≤ d ∧ d ≤ 28 then
    let g := d - 21
    let s := [0, 1, 2, 3].foldl (fun s i => s.clusterLost (4 * g + i)) s
    let s := [0, 1].foldl (fun s i => s.coreLost (2 * g + i)) s
    ((s.wipeClusters (fun t => t / 4 == g)).wipeCores (fun l => l / 2 == g)).resetRegs (fun a => domainOfAddr a == d)
  else if d = 29 then
    let s := s.resetRegs (fun a => domainOfAddr a == 29)
    { s with hrBuf := State.reset.hrBuf, hold := [] }
  else s

/-- RST_DOMAIN with GO: requested, or refused (R616). -/
def State.domainRequest (s : State) : State :=
  let d := s.get F.rstDomainDomain
  if (d = 4 ∨ (6 ≤ d ∧ d ≤ 29)) ∧ s.domOn d = true then (s.mark F.rstDomainGo).beginHold
  else (s.set F.rstDomainGo 0).mark F.rstStatusDomRej

/-- A reset drops the staged image, and the loader that held or kept it is in IDLE (R97, Table 159). -/
def State.dropStaged (s : State) : State :=
  let st := s.get F.ldrStateState
  if st = ldrHolding ∨ st = ldrStaged then { s.set F.ldrStateState ldrIdle with staged := none } else s

/-- A DOMAIN reset begins at the engine epoch: the domain's units leave service until the wipe ends, and no staged image is kept (R97). -/
def State.domainBegin (s : State) : State :=
  if s.flag F.rstDomainGo = false ∨ s.domBusy.isSome then s
  else
    let d := s.get F.rstDomainDomain
    if s.domOn d then { (s.dropStaged).domainInit d with domBusy := some d, svc := withBit s.svc d false }
    else (s.set F.rstDomainGo 0).mark F.rstStatusDomRej

/-- Resident tiles of a Weight Store half that has been wiped are fetched again (R624, R630). -/
def State.refetch (s : State) (h : Nat) (own : Image → Nat → Bool) : State :=
  match s.active with
  | some im => s.fetchHalf im h (own im)
  | none => s

/-- DOMAIN_RESET_DONE (R616). -/
def State.domainDone (s : State) (d : Nat) (own : Image → Nat → Bool) : State :=
  if s.domBusy = some d then
    let s : State := (s.set F.rstDomainGo 0).mark F.rstStatusDomDone
    let s : State := { s with domBusy := none }
    let s : State := { s with svc := withBit s.svc d (s.domOn d && s.present && !s.wipingDomains.contains d) }
    if d = 15 ∨ d = 16 then s.refetch (d - 15) own else s
  else s

/-- The stores of a set wiped (R628, R630). -/
def State.wipeSet (s : State) (set : Nat) : State :=
  let s := if bit set 0 then ((s.wipeField 17).wipeField 18).wipeField 19 else s
  let s := if bit set 1 then (s.wipeHalf 0).wipeHalf 1 else s
  let s := if bit set 2 then s.wipeTreelets else s
  let s := if bit set 4 then s.wipeCores (fun _ => true) else s
  if bit set 5 then { s with caches := State.reset.caches } else s

/-- WIPE_CTRL with GO: a wipe waits for the next engine epoch, and dispatches are held (R630). -/
def State.wipeRequest (s : State) : State := (s.setAll [(F.wipeCtrlGo, 1), (F.wipeStatusPending, 1)]).beginHold

/-- A wipe begins at the engine epoch. -/
def State.wipeBegin (s : State) : State :=
  if s.flag F.wipeStatusPending = false ∨ s.wiping.isSome then s
  else
    let set := s.get F.wipeCtrlSet
    let s := (s.wipeSet set).set F.wipeStatusPending 0
    { s with wiping := some set, svc := (wipeDomains set).foldl (fun m d => withBit m d false) s.svc }

/-- WIPE_DONE (R629, R630). -/
def State.wipeDone (s : State) (own : Image → Nat → Bool) : State :=
  match s.wiping with
  | some set =>
    let s := (s.set F.wipeCtrlGo 0).mark F.wipeStatusDone
    let s : State := { s with wiping := none, svc := (wipeDomains set).foldl (fun m d => withBit m d (s.domOn d && s.present && s.domBusy != some d)) s.svc }
    if bit set 1 then (s.refetch 0 own).refetch 1 own else s
  | none => s

/-! ### Switching domains (R604–R606) -/

/-- The domains that the owner may switch off. -/
def switchable (d : Nat) : Bool := d == 4 || (7 ≤ d && d ≤ 28)

/-- Whether the active image needs a domain (R604). -/
def Image.needs (im : Image) (d : Nat) : Bool :=
  let stages := im.chains.flatMap (fun c => c.stages)
  if d = 4 then im.chains.any (fun c => c.allPeers || !c.peers.isEmpty) || im.minPlk > 0
  else if 7 ≤ d ∧ d ≤ 14 then stages.any (fun t => bit t.quadMask (d - 7))
  else if d = 15 then !im.placeA.isEmpty
  else if d = 16 then !im.placeB.isEmpty
  else if 17 ≤ d ∧ d ≤ 19 then
    let (u0, n, _, _) := sfDomain d
    im.part.regions.any (fun r => r.start < u0 + n && u0 < r.start + r.size)
  else if d = 20 then stages.any (fun t => t.kind == 3 || t.kind == 4)
  else stages.any (fun t => bit t.tgMask (d - 21))

/-- CP_PD_REQ takes effect for one domain. -/
def State.switchDomain (s : State) (d : Nat) (on : Bool) : State :=
  if on = s.domOn d then s
  else if on then s.setBit F.cpPdState d true
  else if (match s.active with | some im => im.needs d | none => false) then
    if s.flag F.cpPdStatusPdRej then s else s.setAll [(F.cpPdStatusPdRej, 1), (F.cpPdStatusRejDomain, d)]
  else
    let s := (s.domainInit d).setBit F.cpPdState d false
    { s with svc := withBit s.svc d false }

/-- CP_PD_REQ applied at an engine epoch (R604). -/
def State.switchDomains (s : State) : State :=
  let w := s.get F.cpPdReq
  ((List.range 30).filter switchable).foldl (fun s d => s.switchDomain d (bit w d)) s

/-- DOMAIN_IN_SERVICE: a domain turned on has wiped its memories (R606). -/
def State.domainUp (s : State) (d : Nat) : State :=
  if s.domOn d && !bit s.svc d && !s.wipingDomains.contains d && s.present && s.resetting.isNone then { s with svc := withBit s.svc d true } else s

/-! ### Low power (R617–R625) -/

/-- REQ written with NAP or SLEEP: requested from RUN (R619). -/
def State.lpRequest (s : State) (v : Nat) : State :=
  let s := s.set F.cpLpCtrlReq v
  if s.get F.cpLpStatusState = lpRun then s.set F.cpLpStatusState lpEntering else s

/-- REQ written with RUN: an entry that has not ended is cancelled, a sleeping engine wakes (R619, R622). -/
def State.lpCancel (s : State) : State :=
  let s := s.set F.cpLpCtrlReq 0
  let st := s.get F.cpLpStatusState
  if st = lpEntering then { s.set F.cpLpStatusState lpRun with lpGoing := false }
  else if st = lpNap ∨ st = lpSleep then s.wake 1
  else s

/-- Whether the engine may enter the requested state now (R619). -/
def State.lpReady (s : State) : Bool :=
  s.get F.cpLpStatusState == lpEntering && !s.lpGoing && (s.get F.cpLpCtrlReq == 1 || s.get F.cpLpCtrlReq == 2) && s.quiet &&
  s.schedWait.isEmpty && (List.range 4).all (fun c => (s.queue c).firings.isEmpty && (!(s.queue c).enabled || s.pendingRecs c == 0))

/-- Entry begins: micro-TLBs, caches and code buffers are invalidated; before SLEEP, GOODBYE (R620, Table 159, R718). -/
def State.lpGo (s : State) : State :=
  let s : State := { s with
    tlbs := State.reset.tlbs, caches := State.reset.caches, lcs := s.lcs.map (fun l => { l with cache := [], code := [] }), lpGoing := true }
  if s.get F.cpLpCtrlReq = 2 then s.goodbyes else s

/-- The memories of a domain that NAP does not retain are lost, and read as wiped when the domain returns (R617, R624). -/
def State.napLose (s : State) (d : Nat) : State :=
  if d = 15 ∨ d = 16 then s.wipeHalf (d - 15)
  else if 17 ≤ d ∧ d ≤ 19 then s.wipeField d
  else if d = 20 then s.wipeTreelets
  else if 21 ≤ d ∧ d ≤ 28 then
    let g := d - 21
    (s.wipeClusters (fun t => t / 4 == g)).wipeCores (fun l => l / 2 == g)
  else s

/-- LOW_POWER_ENTRY_END: the engine is in NAP or SLEEP (R617, R618). -/
def State.lpEntered (s : State) : State :=
  if !s.lpGoing then s
  else if s.get F.cpLpCtrlReq = 1 then
    let ret := s.get F.cpNapRet
    let s := ((List.range 30).filter (fun d => 7 ≤ d && d ≤ 28 && s.domOn d && !bit ret d)).foldl (fun s d => s.napLose d) s
    { s.set F.cpLpStatusState lpNap with lpGoing := false }
  else
    let s : State := s.softContent
    { s.set F.cpLpStatusState lpSleep with present := false }

/-- WAKE: a source of Table 158 wakes the engine (R622). -/
def State.wakeBy (s : State) (src : WakeSource) : State :=
  let nap := s.get F.cpLpStatusState = lpNap
  let asleep := s.get F.cpLpStatusState = lpSleep
  match src with
  | .host => if nap ∨ asleep then s.wake 1 else s
  | .tail => if nap ∧ s.flag F.cpLpCtrlTail = true then s.wake 2 else s
  | .frame => if nap ∧ s.flag F.cpLpCtrlFrame = true then s.wake 3 else s
  | .peer => if nap ∧ s.flag F.cpLpCtrlPeer = true then s.wake 4 else s
  | .mgmt => if nap ∨ asleep then s.wake 5 else s

/-- WAKE_COMPLETE: the engine runs again; resident tiles of a half that NAP did not retain are fetched (R623–R625). -/
def State.woken (s : State) (own : Image → Nat → Bool) : State :=
  if s.get F.cpLpStatusState ≠ lpWaking then s
  else
    let req := s.get F.cpLpCtrlReq
    let s := s.set F.cpLpStatusState (if req = 1 ∨ req = 2 then lpEntering else lpRun)
    let s : State := if s.present then s else { s with present := true, svc := s.svcBack }
    let s := if s.ws[0]? = some WStore.init then s.refetch 0 own else s
    let s := if s.ws[1]? = some WStore.init then s.refetch 1 own else s
    s.opKick

/-! ### Start-up (Table 156, R659) -/

/-- The memory ports and stream engines that are left once the given units have failed their test (R659). -/
def State.testPasses (s : State) (failed : List EUnit) : Bool :=
  (List.finRange 16).any (fun p => s.integrated (.mp p) && !failed.contains (.mp p)) && (List.finRange 16).any (fun e => !failed.contains (.se e))

end Sys2Proof.Machine
end

