-- ==== Sys2Proof/Machine/Peer.lean ====
section
/-! DEFINITION. The receiving side of the peer link: link states, sequence numbers and retry, guest rays and queries, window reads
served, loss of a peer, weight multicast and events ("Peer Link and Multi-Engine Systems"). -/

namespace Sys2Proof.Machine

/-! ### Arrival of a packet (R713, R716–R722) -/

/-- Whether a packet is as it was sent: its CRC matches and it has the payload its LEN names (R711, R713). -/
def packetGood (k : Packet) : Bool :=
  k.len.toNat ≤ 40 && k.payload.length == 32 * k.len.toNat && k.credits.length == 8 && k.crc.toNat == packetCrc k

/-- Whether port `p` takes flits: enabled, its lanes up, its domain on and not fenced. -/
def State.plkHears (s : State) (p : Nat) : Bool :=
  decide (p < s.integ.plkPorts) && bit (s.get F.plkEn) p && !s.plk.laneDown.contains p && s.domOn 4 && s.present &&
  !s.fenced (.plk ⟨p % 8, Nat.mod_lt _ (by decide)⟩) && s.plkState p != psLost && s.plkState p != psDisabled

/-- The credits and the acknowledgement that a head flit brings (R719, R721): packets up to the SEQ acknowledged leave the replay
buffer. -/
def State.rxHead (s : State) (p : Nat) (k : Packet) (ack : Nat) : State :=
  let s := s.modPlkPort p (fun t =>
    let now := k.credits.map (fun b => b.toNat)
    let n := fun (i : Nat) (l : List Nat) => (l[i]?).getD 0
    { t with
      credit := (List.range 8).map (fun i => n i t.credit + (n i now + 256 - n i t.lastCredit) % 256), lastCredit := now,
      replay := match t.replay.findIdx? (fun x => x.seq.toNat == ack) with | some i => t.replay.drop (i + 1) | none => t.replay })
  s.pump p

/-- A packet is discarded at port `p`: counted, a CORR fault, and one NAK that names the SEQ expected (R721, R722). -/
def State.rxDiscard (s : State) (p : Nat) (sequenced : Bool) : State :=
  let s := (s.bump (F.plkCrcErr p) 1).capture 1 (some (.plk ⟨p % 8, Nat.mod_lt _ (by decide)⟩)) 0
  if !sequenced || (s.plkPort p).nakSent || s.plkState p != psUp then s
  else
    let t := s.plkPort p
    let s := s.modPlkPort p (fun t => { t with nakSent := true })
    let k : Packet :=
      { typ := 5, cls := 0, rsp := false, svc := 0, len := 0, hops := 0, dst := 0, src := BitVec.ofNat 12 (s.get F.plkNode), seq := 0,
        ack := BitVec.ofNat 12 t.rxSeq, credits := t.creditBytes, arg := 0, crc := 0, payload := [] }
    let k := { k with crc := BitVec.ofNat 32 (packetCrc k) }
    ((s.emit (.packet p k)).bump (F.plkTxFlits p) 1).perf 15 (.plk ⟨p % 8, Nat.mod_lt _ (by decide)⟩) none 1

/-- UNREACHABLE to the SRC of a refused packet of REQ lane that is not MGMT (R727). -/
def State.refuse (s : State) (k : Packet) : State :=
  if k.rsp || k.cls.val == 0 || k.src.toNat == s.get F.plkNode then s
  else s.plkPost k.src.toNat ptUnreachable k.cls true k.svc.val k.arg.toNat (packetHead k k.hops.toNat k.crc.toNat)

/-- A packet for another engine goes on (R726, R727); it takes pool space here until it leaves (R720). -/
def State.passOn (s : State) (p : Nat) (k : Packet) : State :=
  match s.depart { pkt := k, holds := some (p, packetPool k, packetFlits k) } with
  | (some _, s) => s
  | (none, s) => (s.plkFree p (packetPool k) (packetFlits k)).refuse k

/-- A sequenced packet at port `p` (R721, R726): discarded, passed on, or consumed by `take`. -/
def State.receive (s : State) (p : Nat) (k : Packet) (take : State → State) : State :=
  if !s.plkHears p || s.plkState p != psUp || linkType k.typ.toNat then s
  else
    let s := s.bump (F.plkRxFlits p) (packetFlits k)
    if !packetGood k then s.rxDiscard p true
    else
      let s := s.rxHead p k k.ack.toNat
      if k.seq.toNat ≠ (s.plkPort p).rxSeq then s.rxDiscard p true
      else
        let s := s.modPlkPort p (fun t => { t with rxSeq := (t.rxSeq + 1) % 4096, nakSent := false })
        if k.dst.toNat = s.get F.plkNode then take ((s.plkFree p (packetPool k) (packetFlits k)).wakeBy .peer)
        else s.passOn p k

/-- A link packet at port `p`: none of them is sequenced or forwarded (R714). -/
def State.receiveLink (s : State) (p typ : Nat) (k : Packet) (take : State → State) : State :=
  if !s.plkHears p || k.typ.toNat ≠ typ then s
  else
    let s := s.bump (F.plkRxFlits p) (packetFlits k)
    if packetGood k then take s else s.rxDiscard p false

/-! ### Link states (R716–R718, R724) -/

/-- ARG of INIT: node ID and port index (Table 184). -/
def State.initArg (s : State) (p : Nat) : Nat := s.get F.plkNode + 65536 * p

/-- PLK_INIT_SEND: an enabled port in DOWN sends INIT. -/
def State.initSend (s : State) (p : Nat) : State :=
  if s.plkHears p && s.plkState p == psDown && s.resetting.isNone then s.linkSend p 1 (s.initArg p) else s

/-- A good INIT (R716, R717): a port in DOWN enters INIT, and one in INIT that has answered enters UP unless its partner is a node that
this engine, or another of its UP ports, has already. -/
def State.initReceived (s : State) (p : Nat) (k : Packet) : State :=
  let node := k.arg.toNat % 4096
  if s.plkState p = psUp then s
  else
    let dup := node == s.get F.plkNode || (List.range 8).any (fun q => q != p && s.plkState q == psUp && s.get (F.plkPortPartner q) == node)
    let first := s.plkState p = psDown
    let s := s.setAll [(F.plkPortState p, psInit), (F.plkPortPartner p, node)]
    let s := s.modPlkPort p (fun _ => PlkPort.init)
    let s := if dup then s.mark F.plkEventDupNode else s
    if first then s.linkSend p 1 (s.initArg p)
    else if dup then s
    else (s.linkSend p 1 (s.initArg p)).set (F.plkPortState p) psUp

/-- PLK_KEEPALIVE_SEND (R724). -/
def State.keepaliveSend (s : State) (p : Nat) : State :=
  if s.plkUp p && !s.plk.laneDown.contains p && s.resetting.isNone then s.linkSend p 3 (s.get F.plkNode) else s

/-- PLK_ACK_TIMER (R719). -/
def State.ackTimer (s : State) (p : Nat) : State :=
  if s.plkUp p && !s.plk.laneDown.contains p && s.resetting.isNone then s.linkSend p 4 0 else s

/-- LANE_UP_CHANGE (R762). -/
def State.laneChange (s : State) (p : Nat) (up : Bool) : State :=
  if p ≥ s.integ.plkPorts then s
  else
    let l := s.plk.laneDown.filter (· != p)
    let s : State := { s with plk := { s.plk with laneDown := if up then l else l ++ [p] } }
    s.pump p

/-! ### Weight multicast (R742–R745) -/

/-- The source of the multicast of a model, if a chain of the image with a multicast set that names peers has it: the member with the
lowest node ID (R742). -/
def State.mcSource (s : State) (im : Image) (model : Nat) : Option Nat :=
  match im.chains.find? (fun c => (c.allPeers || !c.peers.isEmpty) && c.stages.any (fun t => t.model == model)) with
  | some c => some ((if c.allPeers then s.routedNodes else c.peers).foldl min (s.get F.plkNode))
  | none => none

/-- Whether this engine fetches a model from its own memory: no multicast, itself the source, or a source that is lost (R743, R744). -/
def State.fetchesOwn (s : State) (im : Image) (model : Nat) : Bool :=
  match s.mcSource im model with
  | some n => n == s.get F.plkNode || s.plk.lost.contains n
  | none => true

/-- The places of a model that stand in a Weight Store half. -/
def Image.placesOf (im : Image) (half model : Nat) : List Nat :=
  ((im.placed half).filter (fun l => l.model == model)).flatMap (fun l => (List.range l.tiles).map (fun i => l.place + i))

/-- Whether a place has arrived. -/
def State.placeHeld (s : State) (half p : Nat) : Bool := match s.ws[half]? with | some w => w.arrived.contains p | none => false

/-- Whether every resident tile of a model is held. -/
def State.modelHeld (s : State) (im : Image) (model : Nat) : Bool :=
  [0, 1].all (fun h => (im.placesOf h model).all (fun p => s.placeHeld h p))

/-- The tiles that a model still lacks are fetched from this engine's memory (R744). -/
def State.mcFetch (s : State) (model : Nat) : State :=
  match s.active, s.plk.mcast.any (fun m => m.model == model) with
  | some im, true =>
    let s : State := { s with plk := { s.plk with mcast := s.plk.mcast.filter (fun m => m.model != model) } }
    [0, 1].foldl (fun s h =>
      ((im.placed h).filter (fun l => l.model == model)).foldl (fun s l =>
        (List.range l.tiles).foldl (fun s i => if s.placeHeld h (l.place + i) then s else s.fetchPlace im h l i true) s) s) s
  | _, _ => s

/-- ARG of MC_REQ and MC_NAK (Table 184). -/
def mcArg (im : Image) (model : Nat) : Nat := im.id % 2 ^ 32 + 2 ^ 32 * (model % 65536)

/-- A pass: every resident tile of the model, in the order of R80, in 256 packets each, to each member. -/
def State.mcPass (s : State) (im : Image) (model : Nat) (dsts : List Nat) : State :=
  [0, 1].foldl (fun s h =>
    (im.placesOf h model).foldl (fun s p =>
      (List.range 256).foldl (fun s part =>
        let bs := match s.ws[h]? with | some w => bytesAt w.bytes (p * 65536 + 256 * part) 256 | none => []
        dsts.foldl (fun s n =>
          s.plkPost n 0x31 tcMcast true 0 (im.id % 2 ^ 32 + 2 ^ 32 * (p % 4096) + 2 ^ 44 * h + 2 ^ 45 * part) bs) s) s) s) s

/-- Members whose requests wait are served once the source holds every resident tile of the model (R743). -/
def State.mcServe (s : State) : State :=
  match s.active with
  | none => s
  | some im =>
    let (ready, rest) := s.plk.mcWait.partition (fun e => s.modelHeld im e.1)
    ready.foldl (fun s e => s.mcPass im e.1 e.2) { s with plk := { s.plk with mcWait := rest } }

/-- Residency begins or begins again: the models that peers send are asked of their sources, and waiting members are served. -/
def State.mcBegin (s : State) : State :=
  match s.active with
  | none => s
  | some im =>
    let s := (List.range im.wrefs.length).foldl (fun s m =>
      match s.mcSource im m with
      | some n =>
        if s.fetchesOwn im m || s.modelHeld im m then s
        else
          let e : McMember := { model := m, source := n, parts := [] }
          let s : State := { s with plk := { s.plk with mcast := s.plk.mcast.filter (fun x => x.model != m) ++ [e] } }
          s.plkPost n ptMcReq tcMcast false 0 (mcArg im m) []
      | none => s) s
    s.mcServe

/-- MC_REQ consumed at a node (R743). -/
def State.mcReq (s : State) (k : Packet) : State :=
  let model := k.arg.toNat / 2 ^ 32 % 65536
  let nak := fun (s : State) => s.plkPost k.src.toNat ptMcNak tcMcast true 0 k.arg.toNat []
  match s.active with
  | none => nak s
  | some im =>
    if k.arg.toNat % 2 ^ 32 ≠ im.id % 2 ^ 32 ∨ (im.placesOf 0 model ++ im.placesOf 1 model).isEmpty = true then nak s
    else
      let old := s.plk.mcWait
      let w := if old.any (fun e => e.1 == model) then old.map (fun e => if e.1 == model then (e.1, dedup (e.2 ++ [k.src.toNat])) else e)
        else old ++ [(model, [k.src.toNat])]
      State.mcServe { s with plk := { s.plk with mcWait := w } }

/-- MC_TILE consumed at a member (R744): its bytes go to the place its ARG names. -/
def State.mcTile (s : State) (k : Packet) : State :=
  let a := k.arg.toNat
  let p := a / 2 ^ 32 % 4096
  let h := a / 2 ^ 44 % 2
  let part := a / 2 ^ 45 % 256
  match s.active with
  | none => s
  | some im =>
    if a % 2 ^ 32 ≠ im.id % 2 ^ 32 ∨ k.payload.length ≠ 256 then s
    else
      let s : State := { s with ws := modifyAt (fun w => { w with bytes := putBytes w.bytes (p * 65536 + 256 * part) k.payload }) h s.ws }
      match s.plk.mcast.find? (fun m => (im.placesOf h m.model).contains p) with
      | none => s
      | some m =>
        let parts := if m.parts.contains (h, p, part) then m.parts else m.parts ++ [(h, p, part)]
        let whole := (parts.filter (fun x => x.1 == h && x.2.1 == p)).length == 256
        let s : State := if whole then { s with ws := modifyAt (fun w => { w with arrived := dedup (w.arrived ++ [p]) }) h s.ws } else s
        let m' := { m with parts := if whole then parts.filter (fun x => x.1 != h || x.2.1 != p) else parts }
        { s with plk := { s.plk with mcast :=
          (s.plk.mcast.map (fun (x : McMember) => if x.model == m.model then m' else x)).filter (fun x => !s.modelHeld im x.model) } }

/-! ### Guest rays and queries (R731–R735) -/

/-- What stands in place of a dispatch for the rays, or the queries, of a pair of origin node and handle. -/
def pairKey (origin handle : Nat) (query : Bool) : Nat := 2 ^ 64 + 2 * (65536 * origin + handle) + boolNat query

/-- The reads of the first guest item of a pair: the guest table's entry for CHAIN, and the descriptor it names, a structure's for a RAY and
a key set's for a QUERY (R731). -/
def State.guestReads (s : State) (g : GuestItem) (query : Bool) : List (Access × Nat × Nat) :=
  let key := pairKey g.origin g.handle query
  let a := s.get F.plkGuestBaseLo * 2 ^ 6 + 2 ^ 32 * s.get F.plkGuestBaseHi + 16 * g.chain
  [(.param key, a, 16), if query then (.keyset key, s.memNat (a + 8) 8, 64) else (.asDesc key, s.memNat a 8, 64)]

/-- Whether an owner has answered one of these reads with ABORT. -/
def State.guestAborted (s : State) (l : List (Access × Nat × Nat)) : Bool := l.any (fun x => s.plk.aborted.contains x.1)

/-- Whether the pair of a guest item stands, or its reads can end now. -/
def State.guestReady (s : State) (g : GuestItem) (query : Bool) : Bool :=
  let l := s.guestReads g query
  (s.pair (pairKey g.origin g.handle query)).isSome || s.guestAborted l || l.all (fun x => s.readable x.1 x.2.1 x.2.2 .ok)

/-- The pair of a guest item, whose reads its first guest item makes (R731). -/
def State.guestPair (s : State) (g : GuestItem) (query : Bool) (cls : Nat) : GuestPair × State :=
  let key := pairKey g.origin g.handle query
  match s.pair key with
  | some p => (p, s)
  | none =>
    let l := s.guestReads g query
    let gone := s.guestAborted l
    let s : State := { s with plk := { s.plk with aborted := s.plk.aborted.filter (fun a => !l.any (fun x => x.1 == a)) } }
    let s := if gone then s else l.foldl (fun s x => s.readEnds x.1 cls x.2.1 x.2.2 .ok) s
    let d := (l.getLast?).elim 0 (fun x => x.2.1)
    let bs := if gone then [] else s.memGet d 64
    let want := if query then 4 else 3
    let stage := match s.active.bind (fun im => im.chain g.chain) with
      | some c => (c.stages.findIdx? (fun t => t.kind == want)).getD 255
      | none => 255
    let p : GuestPair :=
      { key := key, cls := cls, dead := [], origin := g.origin, handle := g.handle, chain := g.chain, stage := stage,
        asAddr := if query then 0 else d, asDesc := if query then [] else bs,
        ksAddr := if query then d else 0, ksDesc := if query then bs else [], gone := gone }
    (p, { s with plk := { s.plk with pairs := s.plk.pairs ++ [p] } })

/-- The origin block of a RAY or QUERY packet (Table 186). -/
def guestOf (k : Packet) : GuestItem :=
  let b := k.payload
  { origin := fieldOf b 0 2 % 4096, handle := fieldOf b 2 2, gen := fieldOf b 8 1, chain := fieldOf b 9 1, asGen := fieldOf b 16 4,
    intake := fieldOf b 20 4, imageLo := fieldOf b 12 4 }

/-- The ray or query that continuation flits stand for: their form is internal, so every part is an open value of the bytes. -/
def continued (r : Ray) (count : Nat) (b : List Byte) : Ray :=
  let v := fun (i : Nat) => Config.openVal 0x730 (i :: b.map (fun x => x.toNat))
  let entry := fun (i : Nat) =>
    { exit := v (20 * i + 1) % 2 == 1, bad := v (20 * i + 2) % 256, typ := v (20 * i + 3) % 8, treelet := v (20 * i + 4) % 2 ^ 20,
      offset := v (20 * i + 5) % 1024, count := v (20 * i + 6) % 256, raw := v (20 * i + 7) % 2 == 1, te := v (20 * i + 8) % 2 ^ 32 : SEntry }
  let frame := fun (i : Nat) =>
    { o := [v (20 * i + 9) % 2 ^ 32, v (20 * i + 10) % 2 ^ 32, v (20 * i + 11) % 2 ^ 32],
      d := [v (20 * i + 12) % 2 ^ 32, v (20 * i + 13) % 2 ^ 32, v (20 * i + 14) % 2 ^ 32], flip := v (20 * i + 15) % 2 == 1,
      noCull := v (20 * i + 16) % 2 == 1, force := if v (20 * i + 17) % 3 = 0 then none else some (v (20 * i + 17) % 3 == 1),
      inst := v (20 * i + 18) % 2 ^ 32 : Frame }
  let best := if v 0 % 2 = 0 then none else
    some { t := v 3001 % 2 ^ 32, u := v 3002 % 2 ^ 32, v := v 3003 % 2 ^ 32, prim := v 3004 % 2 ^ 32, geom := v 3005 % 2 ^ 16,
           kind := v 3006 % 256, inst := v 3007 % 2 ^ 32 : Hit }
  { r with treelet := v 3000 % max count 1, started := true, stack := (List.range (v 3008 % 65)).map entry,
           frames := (List.range (v 3009 % 8 + 1)).map frame, best := best, bestT := v 3010 % 2 ^ 32,
           list := (List.range (v 3011 % 65)).map (fun i => (v (4000 + 2 * i) % 2 ^ 32, v (4001 + 2 * i) % 2 ^ 32)),
           total := v 3012 % 2 ^ 32 }

/-- A guest item as its packet brings it. -/
def State.guestRay (s : State) (g : GuestItem) (p : GuestPair) (query : Bool) (k : Packet) : Ray :=
  let b := k.payload
  let rcd := (b.drop 32).take 64
  let d := if query then p.ksDesc else p.asDesc
  let r : Ray :=
    { id := s.nextRay, disp := p.key, stage := p.stage, item := fieldOf b 4 4, query := query, cls := fieldOf b 10 1 % 4, rcd := rcd,
      intake := g.intake, key := if query then 0 else sortKeyLow rcd d, ticket := false, replayed := false, failed := false, loc := .queued,
      tq := 0, pos := 0, tc := 0, pipe := 0, treelet := refTreelet (descRoot d), started := false, stack := [], frames := [], best := none,
      bestT := fieldOf rcd 0x1C 4, home := none, leaf := none, call := none, neural := none, list := [], total := 0, guest := some g, gen := 0,
      link := none, lines := 0, fin := [], nodes := 0,
      cont := { started := false, stack := [], frames := [], best := none, bestT := fieldOf rcd 0x1C 4, list := [], total := 0, lines := 0 } }
  if k.len.toNat > 3 then continued r (descCount d) (b.drop 96) else r

/-- Whether a guest item was made for another image or descriptor than this node has, or finds no stage here (R732). -/
def State.guestStale (s : State) (g : GuestItem) (p : GuestPair) (query : Bool) : Bool :=
  let d := if query then p.ksDesc else p.asDesc
  !(match s.active with | some im => im.id % 2 ^ 32 == g.imageLo | none => false) || g.asGen != descGen d || (s.stageFor p.key p.stage).isNone

/-- RAY or QUERY consumed at this node (R731, R732). -/
def State.guestArrives (s : State) (query : Bool) (k : Packet) : State :=
  let g := guestOf k
  let (p, s) := s.guestPair g query (fieldOf k.payload 10 1 % 4)
  let r := s.guestRay g p query k
  let s : State := { s with rays := s.rays ++ [r], nextRay := s.nextRay + 1 }
  if p.gone then s.failRay r stPage 0x10 .sorter false
  else if s.guestStale g p query then s.failRay r stAbort 0x14 .sorter false
  else
    let s := (s.ttRead p.key r.cls (if query then p.ksDesc else p.asDesc) r.treelet).binRay r
    if (s.ray r.id).isSome then s.plkPost k.src.toNat ptRayAck tcRay true r.cls (guestArg g.handle r.item g.gen) [] else s

/-- Whether a guest item can be taken: its pair's reads and its treelet's table entry can be read, and the ray sorter has room for it.  A
packet that cannot be taken waits on its link (R258, R720). -/
def State.guestRoom (s : State) (query : Bool) (k : Packet) : Bool :=
  let g := guestOf k
  k.dst.toNat != s.get F.plkNode || (k.len.toNat ≥ 3 && s.guestReady g query &&
    (let (p, s) := s.guestPair g query (fieldOf k.payload 10 1 % 4)
     let r := s.guestRay g p query k
     p.gone || s.guestStale g p query ||
       (s.ttReach p.key (if query then p.ksDesc else p.asDesc) r.treelet && s.canBin p.key query r.treelet)))

/-- PLK_RAY and PLK_QUERY. -/
def State.guestReceived (s : State) (p : Nat) (query : Bool) (k : Packet) : State :=
  if k.typ.toNat ≠ (if query then ptQuery else ptRay) ∨ s.guestRoom query k = false then s
  else s.receive p k (fun s => s.guestArrives query k)

/-- RAY_ACK consumed: the entry of a guest item that this node has sent on is free (R734). -/
def State.ackArrives (s : State) (k : Packet) : State :=
  match s.rays.find? (fun r => r.loc == .remote && (match r.guest with
      | some g => guestArg g.handle r.item g.gen == k.arg.toNat % 2 ^ 56 && s.awayNode r == some k.src.toNat
      | none => false)) with
  | some r => (s.dropRay r.id).tidyQueues
  | none => s

/-! ### Window reads (R736–R738) -/

/-- The read that an RREAD asks for (Table 184): its access, address and length. -/
def servedRead (k : Packet) : Access × Nat × Nat :=
  (.served k.src (BitVec.ofNat 32 (fieldOf k.payload 9 4)) k.cls, fieldOf k.payload 0 8, 64 * (fieldOf k.payload 8 1 % 20 + 1))

/-- The outcome of a served read: ABORT once an owner has answered its fault so (R737). -/
def State.servedOutcome (s : State) (acc : Access) (o : ReadOutcome) : ReadOutcome := if s.plk.aborted.contains acc then .abort else o

/-- Whether an RREAD can be taken now: the read it asks for can end.  Otherwise the packet waits on its link. -/
def State.serveRoom (s : State) (k : Packet) (o : ReadOutcome) : Bool :=
  let (acc, a, n) := servedRead k
  k.dst.toNat != s.get F.plkNode || s.readable acc a n (s.servedOutcome acc o)

/-- RREAD consumed: performed as a service request, in the remote slots of the memory ports, and answered (R474, R737). -/
def State.serveRead (s : State) (k : Packet) (o : ReadOutcome) : State :=
  let (acc, a, n) := servedRead k
  let o := s.servedOutcome acc o
  let req := (s.maker acc a n false).getD (s.requester acc)
  let answer := fun (s : State) (st : Nat) (bs : List Byte) =>
    s.plkPost k.src.toNat ptRdata tcRemote true k.svc.val (fieldOf k.payload 9 4 + 2 ^ 32 * st) bs
  let s : State := { s with plk := { s.plk with aborted := s.plk.aborted.filter (· != acc) } }
  let made := fun (s : State) => (s.carry req k.cls.val a n false true).seMoved req n
  match o with
  | .ok => answer (made s) 0 (s.memGet a n)
  | .abort => answer s 1 []
  | .unc => answer ((made s).uncRead acc a) 2 []

/-- An outstanding window read ends without data: with the status of its run, or of its treelet. -/
def State.rreadFails (s : State) (x : RRead) (status : Nat) : State :=
  let s : State := { s with plk := { s.plk with rreads := s.plk.rreads.filter (fun y => y.tag != x.tag) } }
  match x.acc with
  | .run e =>
    if status = stUnc then
      (s.modRun e.val (fun r => { r with bad := r.bad ++ (List.range x.sectors).map (fun i => x.addr + 64 * i) })).settleRuns e.val
    else if status = stLink then (s.modRun e.val (fun r => { r with endWith := some (r.endWith.getD runLink) })).settleRuns e.val
    else (s.cutRun e (x.addr / 4096)).runAborted' e.val
  | .treelet slot => s.treeletLost slot.val status
  | _ => s

/-- RDATA consumed (Table 188). -/
def State.rdataArrives (s : State) (k : Packet) : State :=
  match s.plk.rreads.find? (fun x => x.tag == k.arg.toNat % 2 ^ 32) with
  | none => s
  | some x =>
    match k.arg.toNat / 2 ^ 32 % 256 with
    | 0 =>
      { s with plk := { s.plk with data := putBytes s.plk.data x.addr ((k.payload).take (64 * x.sectors)),
                                   rreads := s.plk.rreads.filter (fun y => y.tag != x.tag) } }
    | 1 => s.rreadFails x stPage
    | 2 => s.rreadFails x stUnc
    | _ => s

/-- UNREACHABLE consumed (R735, R738). -/
def State.unreachableArrives (s : State) (k : Packet) : State :=
  let typ := fieldOf k.payload 0 1
  if typ = ptRay ∨ typ = ptQuery then
    match s.rays.find? (fun r => r.loc == .remote && r.query == (typ == ptQuery) && (match r.guest with
        | some g => guestArg g.handle r.item g.gen == k.arg.toNat % 2 ^ 56
        | none => guestArg r.disp r.item r.gen == k.arg.toNat % 2 ^ 56)) with
    | some r => s.failRay r stLink 0x13 r.linkUnit false
    | none => s
  else if typ = ptRread then
    match s.plk.rreads.find? (fun x => x.tag == k.arg.toNat % 2 ^ 32) with
    | some x => s.rreadFails x stLink
    | none => s
  else s

/-! ### Loss of a peer (R739–R741) -/

/-- A forwarded item of this origin is sent again with a raised generation, or ends when its treelet's home is gone (R740). -/
def State.resend (s : State) (gone : Nat → Bool) (id : Nat) : State :=
  match s.ray id with
  | none => s
  | some r =>
    let s := s.modRay id (fun r => { r with gen := r.gen + 1 })
    let r := { r with gen := r.gen + 1 }
    match s.awayNode r with
    | some n =>
      if gone n then s.failRay r stLink 0x13 r.linkUnit false
      else ((s.bump F.plkReplays 1).countReplay 1).forwardRay r n
    | none => s.binRay r

/-- Guest items of an origin that is gone leave with no record (R740). -/
def State.dropGuests (s : State) (node : Nat) : State :=
  let l := s.rays.filter (fun r => match r.guest with | some g => g.origin == node | none => false)
  let ids := l.map (fun r => r.id)
  let s := l.foldl (fun s r => if r.heldBy r.tc then s.spcRelease r.tc r.id false else s) s
  let s := s.takeBack ids
  let s : State := { s with overflow := s.overflow.filter (fun x => !ids.contains x),
                            plk := { s.plk with pairs := s.plk.pairs.filter (fun p => p.origin != node) } }
  (ids.foldl (fun s id => s.dropRay id) s).tidyQueues

/-- An outstanding window read is issued again, or ends when its node is gone (R740, R738). -/
def State.reissueRead (s : State) (gone : Nat → Bool) (x : RRead) : State :=
  if gone x.node then s.rreadFails x stLink
  else
    let body := leBytes 8 x.addr ++ leBytes 1 (x.sectors - 1) ++ leBytes 4 x.tag ++ List.replicate 19 (0 : Byte)
    match s.plkSend x.node ptRread tcRemote false x.cls x.tag body with
    | (some _, s) => s
    | (none, s) => s.rreadFails x stLink

/-- What an engine does when a node is gone (R740). -/
def State.nodeGone (s : State) (node : Nat) : State :=
  let gone := fun (n : Nat) => n == node || s.plk.lost.contains n
  let mine := (s.rays.filter (fun r => r.loc == .remote && r.guest.isNone)).map (fun r => r.id)
  let s := mine.foldl (fun s id => s.resend gone id) s
  let s := s.dropGuests node
  let s := s.plk.rreads.foldl (fun s x => s.reissueRead gone x) s
  let models := (s.plk.mcast.filter (fun m => m.source == node)).map (fun m => m.model)
  let waits := (s.plk.mcWait.map (fun e => (e.1, e.2.filter (· != node)))).filter (fun e => !e.2.isEmpty)
  let s : State := { s with plk := { s.plk with subscribers := s.plk.subscribers.filter (· != node), mcWait := waits } }
  models.foldl (fun s m => s.mcFetch m) s

/-- A node is marked lost (R739). -/
def State.markLost (s : State) (node : Nat) : State :=
  let s := s.set F.plkLostNode node
  if s.plk.lost.contains node then s
  else State.nodeGone { s with plk := { s.plk with lost := s.plk.lost ++ [node] } } node

/-- A packet queued at a port that is gone: to the alternate port, or discarded (R739). -/
def State.redirect (s : State) (p : Nat) (node : Nat) (x : TxPacket) : State :=
  let alt := s.get F.plkAlt
  let q := bits alt (4 * p) 3
  let freed := match x.holds with | some (a, pool, n) => s.plkFree a pool n | none => s
  if x.pkt.dst.toNat = node then freed
  else if bit alt (4 * p + 3) && s.plkUp q && !s.plk.lost.contains x.pkt.dst.toNat then
    (s.modPlkPort q (fun t => { t with queue := t.queue ++ [x] })).pump q
  else ((freed.bump F.plkUnreach 1).mark F.plkEventUnreach).refuse x.pkt

/-- The replay buffer and the queue of a port that is gone (R739). -/
def State.abandonPort (s : State) (p node : Nat) : State :=
  let l := (s.plkPort p).queue
  l.foldl (fun s x => s.redirect p node x) (s.modPlkPort p (fun _ => PlkPort.init))

/-- A port declares its partner lost (R739): LOST, LINK_LOSS captured and the port's fence sequence begun, its packets discarded or
redirected, the notice sent, and the node marked. -/
def State.partnerGone (s : State) (p : Nat) : State :=
  if !s.plkUp p then s
  else
    let node := s.get (F.plkPortPartner p)
    let s := (s.set (F.plkPortState p) psLost).mark F.plkEventLost
    let s := s.fenceFault 7 (.plk ⟨p % 8, Nat.mod_lt _ (by decide)⟩) node
    let s := s.abandonPort p node
    let s := (s.routedNodes.filter (fun n => n != s.get F.plkNode && n != node)).foldl (fun s n => s.plkPost n ptNodeLost tcMgmt false 0 node []) s
    s.markLost node

/-- GOODBYE (R718, R741). -/
def State.goodbyeReceived (s : State) (p : Nat) : State :=
  if s.plkState p ≠ psUp ∧ s.plkState p ≠ psInit then s.mark F.plkEventGoodbye
  else
    let node := s.get (F.plkPortPartner p)
    let up := s.plkState p = psUp
    let s := (s.set (F.plkPortState p) psDown).mark F.plkEventGoodbye
    if up then (s.abandonPort p node).nodeGone node else s.modPlkPort p (fun _ => PlkPort.init)

/-- NODE_LOST consumed (R739). -/
def State.lossNotice (s : State) (k : Packet) : State := (s.mark F.plkEventNotice).markLost (k.arg.toNat % 4096)

/-- NAK (R721, R722): every packet from the SEQ named is sent again, and the sixteenth in a row for one SEQ loses the port. -/
def State.nakReceived (s : State) (p : Nat) (k : Packet) : State :=
  if s.plkState p ≠ psUp then s
  else
    let seq := k.ack.toNat
    let s := s.rxHead p k ((seq + 4095) % 4096)
    let n := match (s.plkPort p).nak with | some (q, n) => if q = seq then n + 1 else 1 | none => 1
    let s := s.modPlkPort p (fun t => { t with nak := some (seq, n) })
    if n ≥ 16 then s.partnerGone p
    else
      let l := (s.plkPort p).replay.dropWhile (fun x => x.seq.toNat != seq)
      l.foldl (fun s x => (s.transmit p x).bump (F.plkRetries p) 1) s

/-! ### Events and subscriptions (R746, R747) -/

/-- EVENT consumed: the schedule entries of the event fire (R126). -/
def State.eventArrives (s : State) (k : Packet) : State := s.fire 2 (k.arg.toNat % 256)

/-- PLK_EVT_SEND written (R746). -/
def State.evtSend (s : State) (v : Nat) : State :=
  let nodes := s.eventNodes (bit v 31) (bits v 16 12)
  let s := s.sendEvents nodes (v % 256)
  if nodes.contains (s.get F.plkNode) then s.fire 2 (v % 256) else s

/-- SUBSCRIBE consumed (R747). -/
def State.subscribe (s : State) (k : Packet) : State :=
  let n := k.src.toNat
  let l := s.plk.subscribers
  if k.arg.toNat % 2 = 0 then { s with plk := { s.plk with subscribers := l.filter (· != n) } }
  else if l.contains n then s
  else if l.length ≥ 8 then s.mark F.plkEventSubFull
  else { s with plk := { s.plk with subscribers := l ++ [n] } }

/-! ### PLK_PORT_EN (Table 190) -/

/-- PLK_PORT_EN written: a port disabled is DISABLED with its packets gone; one enabled is DOWN. -/
def State.portEnable (s : State) (v : Nat) : State :=
  let s := s.set F.plkEn v
  (List.range 8).foldl (fun s p =>
    if p ≥ s.integ.plkPorts then s
    else if bit v p then (if s.plkState p = psDisabled then s.set (F.plkPortState p) psDown else s)
    else if s.plkState p = psDisabled ∨ s.plkState p = psLost then s
    else
      let node := s.get (F.plkPortPartner p)
      let up := s.plkState p = psUp
      let s := s.setAll [(F.plkPortState p, psDisabled), (F.plkPortPartner p, 0)]
      if up then (s.abandonPort p node).nodeGone node else s) s

end Sys2Proof.Machine
end

