-- ==== Sys2Proof/Machine/Ras.lean ====
section
/-! DEFINITION. Faults, the single-fault sequence, owner fences, the recovery window and ageing ("Fault Containment and Ageing"). -/

namespace Sys2Proof.Machine

/-! ### Detection (R639–R645) -/

/-- A CORR fault in a store that no unit kind names: counted by store (R640). -/
def State.corrStore (s : State) (store : Nat) : State :=
  let m := s.mgmt
  let per := sset (fun _ => 0) m.corrPer (128 + store) (sget (fun _ => 0) m.corrPer (128 + store) + 1)
  let s := s.setBit F.rasStatusClassSeen 0 true
  State.bump { s with mgmt := { m with corrTotal := m.corrTotal + 1, corrPer := per } } F.rasCorrCount 1

/-- A resident tile whose place holds an uncorrectable error is fetched again into it (R358). -/
def State.refetchPlace (s : State) (half p : Nat) : State :=
  match s.active with
  | none => s
  | some im =>
    match (im.placed half).find? (fun l => l.place ≤ p && p < l.place + l.tiles) with
    | some l => if s.placeHeld half p then (s.bump (F.mxRefetch half) 1).fetchPlace im half l (p - l.place) true else s
    | none => s

/-- An item that a fault of a doubled control state concerns ends with FAIL_UNC and the unit's name, wherever it stands (R642); the
dispatch logic, to which Table 38 gives no kind, goes by UNIT_KIND 0. -/
def State.loseItem (s : State) (id item : Nat) (u : Option EUnit) : State :=
  match s.rays.find? (fun r => r.disp == id && r.item == item && r.guest.isNone && r.loc != .settled && r.loc != .ended) with
  | some r =>
    (match u with
    | some u => s.failRay r stUnc 0x11 u false
    | none => (s.failItem id item stUnc none).loseRay r none)
  | none =>
    let mine := s.hold.filter (fun h => h.disp == id && h.item == item)
    let s := mine.foldl (fun (s : State) (h : HoldRec) => s.freeEntry id h.queue h.pos) s
    let s : State := { s with
      hold := s.hold.filter (fun h => !(h.disp == id && h.item == item)),
      hrBuf := s.hrBuf.map (fun (l : List HitSlot) => l.filter (fun (h : HitSlot) => !(h.disp == id && h.item == item))) }
    s.failItem id item stUnc u

/-- Every item of a dispatch that has not ended fails in the cluster `tc` that lost a spill line (R554, R660).  Its rays and queries leave
their stage with records of their own, those not yet taken as the ray sorter takes them; no stage takes an item more, and no hit record
goes to the shader cores. -/
def State.loseDispatch (s : State) (tc : Fin 32) (d : Dispatch) : State :=
  let u : EUnit := .tc tc
  let s := (s.failItems d.id 0 d.rcd.itemCount stUnc (some u)).modDisp d.id (fun d =>
    { d with lost := some u, stages := d.stages.map (fun (t : StageSt) => { t with taken := d.rcd.itemCount, finished := true }) })
  let back := match s.chainOf d with | some c => c.returns | none => []
  let s := back.foldl (fun (s : State) q => match s.disp d.id with
    | some d => (d.hq q).entries.foldl (fun s e => s.freeEntry d.id q e.pos) s
    | none => s) s
  let mine := s.hold.filter (fun h => h.disp == d.id)
  let s := mine.foldl (fun (s : State) (h : HoldRec) => s.freeEntry d.id h.queue h.pos) s
  let s : State := { s with
    hold := s.hold.filter (fun h => h.disp != d.id),
    hrBuf := s.hrBuf.map (fun (l : List HitSlot) => l.filter (fun (h : HitSlot) => h.disp != d.id)),
    gblocks := s.gblocks.map (fun (b : GBlock) => if b.disp != d.id || b.scored then b
      else { b with queries := b.queries.map (fun (q : GQuery) => if q.status != stOk then q
        else { q with status := stUnc, kind := u.kind, index := u.index, cause := 0x11 }) }) }
  (s.rays.filter (fun r => r.disp == d.id && r.guest.isNone && r.loc != .settled && r.loc != .ended)).foldl
    (fun s r => s.loseRay r (some u)) s

/-- What still stands of dispatches that a fault has ended whole is discarded (R660). -/
def State.dropWork (s : State) (ids : List Nat) : State :=
  let rs := s.rays.filter (fun r => ids.contains r.disp && r.guest.isNone)
  let s := rs.foldl (fun s r =>
    let s := if r.loc = .batch ∨ r.loc = .ctx ∨ r.loc = .callout ∨ r.loc = .neural then s.spcRelease r.tc r.id false else s
    (s.leaveBatch r.id).dropRay r.id) s
  let stop := fun (r : Run) => match r.owner with
    | .stage d _ _ _ _ => if ids.contains d then { r with endWith := some (r.endWith.getD runAborted), limit := r.delivered } else r
    | .armed => r
  State.tidyQueues { s with
    groups := s.groups.filter (fun g => !ids.contains g.disp), callouts := s.callouts.filter (fun c => !ids.contains c.disp),
    mbatches := s.mbatches.filter (fun b => !ids.contains b.disp), gblocks := s.gblocks.filter (fun b => !ids.contains b.disp),
    nbatches := s.nbatches.filter (fun b => !ids.contains b.disp), sitems := s.sitems.filter (fun e => !ids.contains e.disp),
    hold := s.hold.filter (fun h => !ids.contains h.disp),
    hrBuf := s.hrBuf.map (fun (l : List HitSlot) => l.filter (fun (h : HitSlot) => !ids.contains h.disp)),
    ses := s.ses.map (fun t => match t.active with | .run r => { t with active := .run (stop r) } | _ => t) }

/-- The active image is lost (R643, R656). -/
def State.imageLost (s : State) : State :=
  { s with active := none, window := s.window.map (fun w => { w with imageEnded := true }) }

/-- Whether a bank waits for its layout. -/
def State.pends (s : State) (b : Nat) : Bool := if b < 32 then bit (s.get F.rasSfPendLo) b else bit (s.get F.rasSfPendHi) (b - 32)

/-- FAULT_DETECTED: what a failed check of each class captures, which items it fails, and which unit it begins to fence (Table 164). -/
def State.detect (s : State) (f : FaultCause) : State :=
  match f with
  | .corr u => s.capture 1 (some u) 0
  | .uncData store line bank =>
    let info := store.val * 2 ^ 28 + line % 2 ^ 28
    (match store.val with
    | 0 => s
    | 1 =>
      let s : State := { s with sfPoison := if s.sfPoison.contains line then s.sfPoison else s.sfPoison ++ [line] }
      if s.pends bank.val then s.capture 2 (some (.bank bank)) info else s.fenceFault 2 (.bank bank) info
    | 2 =>
      let place := line / 1024
      (s.capture 2 none info).refetchPlace (place / 252) (place % 252)
    | 3 => { s.capture 2 none info with tsPoison := if s.tsPoison.contains line then s.tsPoison else s.tsPoison ++ [line] }
    | 4 => s.capture 2 none info
    | 5 => s.capture 2 none info
    | _ => s)
  | .uncCtrl u word =>
    (match u with
    | .tc _ => s.fenceFault 3 u word.toNat
    | .lc _ => s.fenceFault 3 u word.toNat
    | .quad _ => s.fenceFault 3 u word.toNat
    | .se _ => s.fenceFault 3 u word.toNat
    | _ => s)
  | .bothCopies u word items =>
    (match u with
    | none => items.foldl (fun s e => s.loseItem e.1 e.2 none) (s.capture 3 none word.toNat)
    | some .sorter => items.foldl (fun s e => s.loseItem e.1 e.2 u) (s.capture 3 u word.toNat)
    | some .query => items.foldl (fun s e => s.loseItem e.1 e.2 u) (s.capture 3 u word.toNat)
    | some .hrp => items.foldl (fun s e => s.loseItem e.1 e.2 u) (s.capture 3 u word.toNat)
    | _ => s)
  | .cfgStore word reload =>
    let s := s.capture 3 none word.toNat
    if reload = .ok ∨ s.active = none then s
    else
      let s := s.failDispatches (fun _ => true) stUnc none
      let s := (s.rays.filter (fun r => r.guest.isNone && r.loc != .settled && r.loc != .ended)).foldl (fun s r => s.loseRay r none) s
      (s.dropWork (s.disps.map (fun d => d.id))).imageLost
  | .spillDirty tc entry =>
    let c := s.cachesOf tc.val
    let line := if entry < 48 then (c.spc.find? (fun e => e.1 == entry && e.2.dirty)).map (fun e => e.2.addr) else (c.evict[entry - 48]?).map (fun e => e.1)
    (match line with
    | none => s
    | some a =>
      let s := s.modCaches tc.val (fun c => if entry < 48 then { c with spc := c.spc.filter (fun e => e.1 != entry) }
        else { c with evict := c.evict.filter (fun e => e.1 != a) })
      let s := s.parCapture tc.val true true true entry (a / 128)
      let s := s.capture 5 (some (.tc tc)) (tc.val * 2 ^ 24 + entry % 512)
      let ids := dedup ((s.rays.filter (fun r => r.heldBy tc.val && r.guest.isNone)).map (fun r => r.disp))
      let s := (s.disps.filter (fun d => ids.contains d.id && s.runs d)).foldl (fun s d => s.loseDispatch tc d) s
      (s.rays.filter (fun r => r.heldBy tc.val && r.guest.isSome)).foldl (fun s r => s.failRay r stUnc 0x11 (.tc tc) true) s)
  | .cacheParity tc spill entry tagOk => s.cacheParity tc.val spill entry tagOk
  | .laneState lc slot lanes =>
    (match s.groupAt lc.val slot.val with
    | none => s
    | some g =>
      let (k, s) := s.draw
      let s := s.capture 2 (some (.lc lc)) (5 * 2 ^ 28 + (Config.freeValue k).toNat % 2 ^ 28)
      s.finish g.id g.pc (((lanesOf lanes.toNat).filter (bit g.live)).map (fun l => (l, 0x4D))))
  | .wsTile arr place =>
    let (k, s) := s.draw
    let line := (arr.val * 252 + place) * 1024 + (Config.freeValue k).toNat % 1024
    (s.capture 2 none (2 * 2 ^ 28 + line % 2 ^ 28)).refetchPlace arr.val place
  | .xlatProtocol iova => s.capture 8 none (bits iova.toNat 12 32)

/-- Whether a unit holds work (R644). -/
def State.holdsWork (s : State) (u : EUnit) : Bool :=
  match u with
  | .tc i => s.rays.any (fun r => r.heldBy i.val)
  | .lc i => s.groups.any (fun g => g.lc == i.val && g.slot.isSome) || s.nbatches.any (fun b => b.closed && b.quad.isNone && b.lc == i.val)
  | .quad i => s.mbatches.any (fun b => b.arr == i.val / 4 &&
      (match s.batchStage b with | some t => bit t.quadMask i.val | none => false)) || s.gblocks.any (fun b => b.quad == some i.val) ||
      s.nbatches.any (fun b => b.quad == some i.val)
  | .se i => let t := s.se i.val; decide (t.service > 0) || (match t.active with | .run _ => true | _ => false)
  | _ => false

/-- UNIT_WATCHDOG (R644). -/
def State.watchdog (s : State) (u : EUnit) : State :=
  let ms := s.get F.rasWd
  if ms = 0 ∨ s.inService u = false ∨ s.holdsWork u = false then s else s.fenceFault 6 u (1000 * ms)

/-- SCRUB: a visited line that held a correctable error is written back corrected, and counts as CORR (R640, R641). -/
def State.scrubLine (s : State) (store line : Nat) (corrected : Bool) : State :=
  if !corrected then s
  else match store with
    | 0 => s.capture 1 (some (bankUnit (s.sfBank (64 * line)))) 0
    | 1 => s.corrStore 2
    | 2 => s.corrStore 2
    | _ => s.corrStore 3

/-! ### Fences (R646, R649–R658) -/

/-- An engine fence joins the fence history, and its FENCEHIST entry is logged (R659, R689). -/
def State.fenceNoted (s : State) (u : EUnit) : State :=
  let s : State := { s with mgmt := { s.mgmt with fenceHist := s.mgmt.fenceHist ++ [(unitCode u, s.mgmt.hours)] } }
  s.note 9 (s.mgmt.histData (unitCode u))

/-- A peer-link port leaves service: what it held is redirected or discarded, and forwarded items are reclaimed (Table 166). -/
def State.linkLost (s : State) (p : Nat) : State :=
  if s.plkState p ≠ psUp then s
  else
    let node := s.get (F.plkPortPartner p)
    let s := s.set (F.plkPortState p) psDown
    (s.abandonPort p node).nodeGone 4096

/-- The owner's command of RAS_FENCE ends (R592). -/
def State.fenceResult (s : State) (r : Nat) : State := (s.set F.rasFenceGo 0).set F.rasFenceStatus r

/-- A bank's bit in RAS_SF_PEND. -/
def State.setPend (s : State) (b : Nat) (v : Bool) : State :=
  if b < 32 then s.setBit F.rasSfPendLo b v else s.setBit F.rasSfPendHi (b - 32) v

/-- What becomes of the work of a unit that has just been fenced (Table 166). -/
def State.unitLost (s : State) (u : EUnit) : State :=
  match u with
  | .tc i => s.clusterLost i.val
  | .lc i => s.coreLost i.val
  | .quad i => s.quadLost i
  | .se i => s.seLost i.val
  | .mp i => s.portLost i.val
  | .plk i => s.linkLost i.val
  | _ => s

/-- FENCE_COMPLETE: step 2 of R646. -/
def State.fenced2 (s : State) (u : EUnit) : State :=
  match s.fseqs.find? (fun f => f.unit == u && !f.fenced) with
  | none => s
  | some f =>
    let s : State := { s with fseqs := s.fseqs.map (fun (x : FSeq) => if x.unit == u then { x with fenced := true } else x),
                              ownFenced := if f.owner then s.ownFenced ++ [u] else s.ownFenced }
    let s := match u with
      | .bank i => s.setPend i.val true
      | _ => (s.setFenced u true).unitLost u
    if f.owner then s.fenceResult 0 else s.fenceNoted u

/-- FULL_SERVICE: step 4 of R646; when it was the last sequence of the window, the recovery hold begins (R662). -/
def State.serviceFull (s : State) (u : EUnit) : State :=
  if s.fseqs.any (fun f => f.unit == u && f.fenced) then
    let l := s.fseqs.filter (fun f => f.unit != u)
    { s with fseqs := l, window := if l.isEmpty then s.window.map (fun w => { w with holding := true }) else s.window }
  else s

/-- RAS_FENCE with GO: the checks of Table 152, then the sequence of a fence or the wipe of a return (R592, R657, R658). -/
def State.fenceCommand (s : State) (op kind index : Nat) : State :=
  let s := (s.mark F.rasFenceGo).set F.rasFenceStatus 1
  if (op ≠ 1 ∧ op ≠ 2) ∨ kind < 1 ∨ 7 < kind then s.fenceResult 2
  else match EUnit.ofCode kind index with
    | none => s.fenceResult 2
    | some u =>
      let down := s.fenced u || (match u with | .bank i => s.pends i.val | _ => false)
      if !s.integrated u then s.fenceResult 2
      else if op = 1 then
        if down || s.inSeq u then s.fenceResult 5
        else if s.isLast u then s.fenceResult 3
        else
          let s : State := s.openWindow 0
          { s with fseqs := s.fseqs ++ [{ unit := u, owner := true, fenced := false }] }
      else if !down then s.fenceResult 4
      else if !s.ownFenced.contains u || s.inSeq u then s.fenceResult 3
      else s

/-- The unit that a RETURN in progress puts back in service. -/
def State.returning (s : State) : Option EUnit :=
  if s.flag F.rasFenceGo && s.get F.rasFenceOp == 2 then EUnit.ofCode (s.get F.rasFenceUnitKind) (s.get F.rasFenceUnitIndex) else none

/-- The memories of a unit wiped (R658). -/
def State.wipeUnit (s : State) (u : EUnit) : State :=
  match u with
  | .tc i => s.wipeClusters (fun t => t == i.val)
  | .lc i => s.wipeCores (fun l => l == i.val)
  | .quad i => { s with quads := modifyAt (fun _ => Quad.init) i.val s.quads }
  | .se i => { s with ses := modifyAt (fun _ => StreamEng.init) i.val s.ses, tlbs := modifyAt (fun _ => []) i.val s.tlbs }
  | _ => s

/-- A unit that the owner fenced is in service again. -/
def State.backInService (s : State) (u : EUnit) : State :=
  let s := (s.wipeUnit u).setFenced u false
  State.fenceResult { s with ownFenced := s.ownFenced.filter (fun x => x != u) } 0

/-- RETURNED_TO_SERVICE; a bank returns at an engine epoch instead (R658). -/
def State.returned (s : State) (u : EUnit) : State :=
  match u with
  | .bank _ => s
  | _ => if s.returning = some u ∧ s.fenced u = true then s.backInService u else s

/-- The return of a Shared Field bank at an engine epoch: the domain's lines spread over one bank more, and the units it gains read as
wiped (R656, R658).  A bank that only waits for its layout keeps its place. -/
def State.returnBank (s : State) : State :=
  match s.returning with
  | some (.bank i) =>
    if s.fenced (.bank i) then s.backInService (.bank i)
    else if s.pends i.val then
      State.fenceResult { s.setPend i.val false with ownFenced := s.ownFenced.filter (fun x => x != .bank i) } 0
    else s
  | _ => s

/-! ### The recovery epoch (R656, R662–R664) -/

/-- The regions of some kinds that hold a line for which `p` holds set their bits in RAS_SF_LOST. -/
def State.markLostRegions (s : State) (p : Nat → Bool) : State :=
  match s.active with
  | none => s
  | some im =>
    (List.range im.part.regions.length).foldl (fun s r =>
      match im.part.regions[r]? with
      | some g =>
        if (g.kind == 4 || g.kind == 5 || g.kind == 7) && (List.range (g.size * 1024)).any (fun i => p (g.start * 1024 + i)) then
          (if r < 32 then s.setBit F.rasSfLostLo r true else s.setBit F.rasSfLostHi (r - 32) true)
        else s
      | none => s) s

/-- One Shared Field domain laid out again over its banks in service (R656). -/
def State.layDomain (s : State) (d : Nat) : State :=
  let (u0, n, b0, nb) := sfDomain d
  let banks := ((List.range nb).map (b0 + ·)).filter (fun b => s.pends b)
  if banks.isEmpty then s
  else
    let mine := fun (l : Nat) => decide (u0 * 1024 ≤ l) && decide (l < (u0 + n) * 1024)
    let stood := fun (l : Nat) => mine l && banks.contains (s.sfBank (64 * l))
    let s1 := s.markLostRegions stood
    let s2 := banks.foldl (fun s b => (s.setFenced (bankUnit b) true).setPend b false) s1
    let keep := u0 + s2.sfUnits d
    let gone := fun (l : Nat) => stood l || (mine l && decide (l ≥ keep * 1024))
    let s2 : State := { s2 with sf := sclear (fun a => gone (a / 64)) s2.sf, sfPoison := s2.sfPoison.filter (fun l => !gone l) }
    let past := match s2.active with
      | some im => im.part.regions.any (fun r => decide (r.start < u0 + n) && decide (u0 < r.start + r.size) && decide (keep < r.start + r.size))
      | none => false
    if past then s2.imageLost else s2

/-- The EPOCH_FENCE record (Table 167). -/
def State.epochRecord (s : State) (w : Window) : List Byte :=
  let seq := s.get F.rasEfSeq
  let image := match s.active with | some im => im.id % 2 ^ 32 | none => 0
  leBytes 4 w.firstSeq ++ leBytes 2 0xFFFF ++ leBytes 1 0 ++ leBytes 1 8 ++ leBytes 4 w.replayed ++ leBytes 4 w.failed ++
  leBytes 2 w.faults ++ leBytes 2 (2 + 16 * boolNat w.late + 32 * boolNat w.imageEnded) ++ leBytes 4 image ++ leBytes 4 seq ++
  leBytes 4 (2 ^ 31 + seq % 2 ^ 31)

/-- Whether a completion record with RECOVERY has still to be written (R664). -/
def State.recoveryOpen (s : State) : Bool :=
  s.disps.any (fun d => d.recovery) ||
  s.queues.any (fun q => (q.sent ++ q.writes).any (fun w => !w.entry && bit (leVal ((w.bytes.drop 0x12).take 2)) 1))

/-- RECOVERY_EPOCH: at an engine epoch with every sequence of the window at full service, pending writes are applied by `apply`, the
Shared Field is laid out again, the EPOCH_FENCE record is written and the window closes. -/
def State.recover (s : State) (apply : State → State) : State :=
  match s.window with
  | none => s
  | some _ =>
    if !s.fseqs.isEmpty || !s.epochNow || s.recoveryOpen then s
    else
      let s := apply s
      let s := ((s.layDomain 17).layDomain 18).layDomain 19
      match s.window with
      | none => s
      | some w =>
        let base := s.get F.rasEfBaseLo * 2 ^ 5 + 2 ^ 32 * s.get F.rasEfBaseHi
        let seq := s.get F.rasEfSeq
        let s := if base = 0 then s
          else ((((s.memPut (base + 32 * (seq % 2 ^ min 8 (s.get F.rasEfSize))) (s.epochRecord w)).set F.rasEfSeq (seq + 1)).mark
            F.rasRecovEfWritten).raise intRas)
        let s := s.setAll [(F.rasStatusRecovering, 0), (F.rasRecovInWindow, 0)]
        { s with window := none }

/-- RECOVERY_HOLD_TIMEOUT (R662). -/
def State.holdLate (s : State) : State :=
  match s.window with
  | some w =>
    if w.holding && s.get F.ldrActTimeout != 0 then { s.mark F.rasRecovLate with window := some { w with holding := false, late := true } }
    else s
  | none => s

/-! ### Ageing (R666–R670) -/

/-- A MARGIN entry (Table 174). -/
def State.marginNote (s : State) (c before after : Nat) : State :=
  s.note 7 (marginData c (s.age c) before after)

/-- The state with an ageing record changed. -/
def State.modAge (s : State) (c : Nat) (f : Ageing → Ageing) : State := { s with ageing := modifyAt f c s.ageing }

/-- The readings of a domain with OPs at OP `k`, the first one and one after each raise (R667, R668). -/
def State.readAge (s : State) (c k : Nat) : List Nat → State
  | [] => s
  | r :: rest =>
    let s := s.modAge c (fun a => { a with slack := min r 255 })
    let floor := s.get F.rasAgeCfg
    let adj := ((s.age c).vadj[k]?).getD 0
    if r ≥ floor then s
    else if adj < 12 then
      let s := s.modAge c (fun a => { a with vadj := modifyAt (fun _ => adj + 1) k a.vadj, changes := min (a.changes + 1) 0xFFFF })
      let rail := railOf c
      let s := if s.opOf rail = k then s.vreqOut rail (s.opCode rail k) else s
      let s := s.marginNote c (min r 255) (match rest with | x :: _ => min x 255 | [] => min r 255)
      s.readAge c k rest
    else if (s.age c).cap > k then s
    else
      let s := s.modAge c (fun a => { a with cap := k + 1, changes := min (a.changes + 1) 0xFFFF })
      let s := s.capture 10 none (0xA0000000 + c)
      (s.marginNote c (min r 255) (min r 255)).opKick

/-- The reading of a domain whose margin is reported (R669). -/
def State.reportAge (s : State) (c : Nat) (l : List Nat) : State :=
  match l.head? with
  | none => s
  | some r =>
    let s := s.modAge c (fun a => { a with slack := min r 255 })
    if r ≥ s.get F.rasAgeCfg then s
    else (((s.modAge c (fun a => { a with warn := true })).mark F.mbEventAgeWarn).raise intMgmt).marginNote c (min r 255) (min r 255)

/-- Every domain read at the OP it runs at. -/
def State.measure (s : State) (readings : List (List Nat)) : State :=
  (List.range 14).foldl (fun s c =>
    let l := (readings[c]?).getD []
    if c < 11 then s.readAge c (s.opOf (railOf c)) l else s.reportAge c l) s

/-- AGEING_INTERVAL: 4 active hours have passed; the CORR counts are logged (R640, R666). -/
def State.ageingStep (s : State) (readings : List (List Nat)) : State :=
  if s.startup ≠ 0 ∨ s.get F.cpLpStatusState ≠ lpRun ∨ s.mgmt.down = true then s
  else
    let sums := s.mgmt.corrPer
    let s : State := { s with mgmt := { s.mgmt with hours := s.mgmt.hours + 4, corrPer := [] } }
    let s := sums.foldl (fun s e => s.note 3 (leBytes 1 (e.1 % 128) ++ leBytes 1 0 ++ [255, 255] ++ leBytes 4 e.2 ++ List.replicate 4 255)) s
    let s := s.note 8 s.mgmt.hoursData
    s.measure readings

/-! ### The end of start-up (Table 156, R659, R666) -/

/-- Whether the fence history bars a unit: fenced by the engine 3 times or more within the last 1,000 active hours. -/
def State.barred (s : State) (u : EUnit) : Bool :=
  decide ((s.mgmt.fenceHist.filter (fun e => e.1 == unitCode u && decide (s.mgmt.hours ≤ e.2 + 1000))).length ≥ 3)

/-- STARTUP_COMPLETE: units that fail their test and units that the history bars are fenced, the monitors are read at every OP, and the
engine is present; with no memory port or no stream engine that passes, PRESENT stays low. -/
def State.started (s : State) (failed : List EUnit) (age : List (List (List Nat))) : State :=
  if s.startup ≠ 2 ∨ s.testPasses failed = false then s
  else
    let s : State := { s with svc := 2 ^ 30 - 1 }
    let s := failed.foldl (fun s u => s.setFenced u true) s
    let s := (EUnit.all.filter (fun u => s.barred u && !failed.contains u)).foldl (fun s u => if s.isLast u then s else s.setFenced u true) s
    let s := (List.range 14).foldl (fun s c =>
      let l := (age[c]?).getD []
      if c < 11 then (List.range 6).foldl (fun s k => s.readAge c k ((l[k]?).getD [])) s else s.reportAge c ((l[0]?).getD [])) s
    State.opKick { s with startup := 0, present := true }

end Sys2Proof.Machine
end

