-- ==== Sys2Proof/Machine/Flash.lean ====
section
/-! DEFINITION. The external flash: boot records, firmware slots, update and trial, and the log ("Management Subsystem and Monitor",
R672–R691). -/

namespace Sys2Proof.Machine

/-! ### Bytes of the flash -/

/-- `n` bytes of the flash at `a`; an erased byte reads 0xFF. -/
def flashGet (m : List Host.Cell) (a n : Nat) : List Byte := (bytesAt m a n).map (fun b => ~~~b)

/-- Bytes programmed from `a` upwards: programming only clears bits. -/
def flashProgram (m : List Host.Cell) (a : Nat) (bs : List Byte) : List Host.Cell :=
  putBytes m a (List.zipWith (fun old new => ~~~(old &&& new)) (flashGet m a bs.length) bs)

/-- `n` bytes from `a` erased. -/
def flashErase (m : List Host.Cell) (a n : Nat) : List Host.Cell := sclear (fun k => decide (a ≤ k) && decide (k < a + n)) m

/-- The state with the flash programmed at `a`, or erased. -/
def State.flashPut (s : State) (a : Nat) (bs : List Byte) : State :=
  { s with mgmt := { s.mgmt with flash := flashProgram s.mgmt.flash a bs } }
def State.flashClear (s : State) (a n : Nat) : State := { s with mgmt := { s.mgmt with flash := flashErase s.mgmt.flash a n } }

/-- A little-endian field of the flash. -/
def State.flashNat (s : State) (a n : Nat) : Nat := leVal (flashGet s.mgmt.flash a n)

/-- The COMMIT value with which a record counts (R678). -/
def commitByte : Nat := 0x3C

/-! ### CRC-16/CCITT (R703) -/

/-- One byte more in CRC-16/CCITT. -/
def crc16Byte (crc : Nat) (b : Byte) : Nat :=
  (List.range 8).foldl (fun c _ => if bit c 15 then (2 * c % 65536) ^^^ 0x1021 else 2 * c % 65536) (crc ^^^ (b.toNat * 256))

/-- CRC-16/CCITT: polynomial 0x1021, initial value 0xFFFF, not reflected, no final XOR. -/
def crc16 (l : List Byte) : Nat := l.foldl crc16Byte 0xFFFF

/-! ### Firmware slots (R679, R680) -/

/-- The flash address of a firmware slot (Table 171). -/
def slotBase (i : Nat) : Nat := 0x10000 + 0x40000 * i

/-- What a check of a firmware image finds (Table 181): 0 OK, 2 BAD_IMAGE, 3 BAD_SIGNATURE, 4 ROLLBACK; COMMIT stands apart. -/
def State.firmwareCheck (s : State) (b : List Byte) : Nat :=
  let len := fieldOf b 0x0C 4
  let code := (b.drop 0x100).take len
  let key := fieldOf b 9 1
  if fieldOf b 0 4 ≠ 0x5746544B ∨ len < 4 ∨ 196608 < len ∨ len % 4 ≠ 0 ∨ code.length ≠ len then 2
  else if crc32 code ≠ fieldOf b 0x10 4 then 2
  else if 1 < key ∨ (key = 1 ∧ 2 ≤ s.mgmt.lifecycle) then 3
  else if ed25519 (Config.romKey key) (b.take 0x40 ++ code) ((b.drop 0x40).take 64) = false then 3
  else if 63 < fieldOf b 8 1 ∨ fieldOf b 8 1 < s.mgmt.svnFuse then 4
  else 0

/-- The bytes of a firmware slot: header and the code its LEN names. -/
def State.slotBytes (s : State) (i : Nat) : List Byte := flashGet s.mgmt.flash (slotBase i) (256 + min 196608 (s.flashNat (slotBase i + 0x0C) 4))

/-- Whether a slot is valid (R680); a flash that lacks what the engine requires of it holds no valid firmware (R676). -/
def State.slotValid (s : State) (i : Nat) : Bool :=
  s.integ.flashFit && s.flashNat (slotBase i + 0xFF) 1 == commitByte && s.firmwareCheck (s.slotBytes i) == 0

/-! ### Boot records (R681) -/

/-- The boot records that count, as (SEQ, place). -/
def State.bootRecords (s : State) : List (Nat × Nat) :=
  ((List.range 128).filter (fun i => s.flashNat (32 * i + 0x1F) 1 == commitByte)).map (fun i => (s.flashNat (32 * i) 4, i))

/-- The boot record that counts, as its place. -/
def State.bootRecord (s : State) : Option Nat :=
  (leastBy (fun (a b : Nat × Nat) => decide (a.1 > b.1)) s.bootRecords).map (fun e => e.2)

/-- The bytes of a boot record. -/
def bootBytes (seq active try_ tried : Nat) : List Byte :=
  leBytes 4 seq ++ leBytes 1 active ++ leBytes 1 try_ ++ leBytes 1 tried ++ List.replicate 24 255 ++ leBytes 1 commitByte

/-- A boot record appended; a full boot sector is erased, and the current record written first. -/
def State.bootAppend (s : State) (active try_ tried : Nat) : State :=
  let seq := match s.bootRecord with | some i => s.flashNat (32 * i) 4 + 1 | none => 0
  let rcd := bootBytes seq active try_ tried
  match (List.range 128).find? (fun i => (flashGet s.mgmt.flash (32 * i) 32).all (fun b => b == 255)) with
  | some i => s.flashPut (32 * i) rcd
  | none =>
    let old := match s.bootRecord with | some i => flashGet s.mgmt.flash (32 * i) 32 | none => []
    ((s.flashClear 0 4096).flashPut 0 old).flashPut 32 rcd

/-! ### Boot (R682) -/

/-- An FW log entry (Table 174). -/
def State.fwNote (s : State) (event slot result svn version : Nat) : State :=
  s.note 10 (leBytes 1 event ++ leBytes 1 slot ++ leBytes 1 result ++ leBytes 1 svn ++ leBytes 4 version ++ List.replicate 4 255)

/-- The firmware of a slot runs, in trial or confirmed. -/
def State.runSlot (s : State) (i : Nat) (trial : Bool) : State :=
  let b := s.slotBytes i
  { s with mgmt := { s.mgmt with running := some i, trial := trial, down := false, version := fieldOf b 4 4, svn := fieldOf b 8 1,
                                 key := fieldOf b 9 1, fwStaged := false } }

/-- A slot is started; one that fails R680 is abandoned for the other. -/
def State.startSlot (s : State) (i : Nat) (trial : Bool) : State :=
  if s.slotValid i then s.runSlot i trial
  else if s.slotValid (1 - i) then s.runSlot (1 - i) false
  else { s with mgmt := { s.mgmt with running := none, trial := false } }

/-- The choice of R682. -/
def State.chooseSlot (s : State) : State :=
  match s.bootRecord with
  | some p =>
    let active := s.flashNat (32 * p + 4) 1 % 2
    let try_ := s.flashNat (32 * p + 5) 1
    let tried := s.flashNat (32 * p + 6) 1
    if try_ ≠ 255 then
      let s := s.bootAppend active 255 try_
      let s := s.startSlot (try_ % 2) true
      if s.mgmt.trial then s.fwNote 3 (try_ % 2) 0 s.mgmt.svn s.mgmt.version else s
    else if tried ≠ 255 then
      let s := (s.bootAppend active 255 255).mark F.mbEventTrialFailed
      let s := (s.raise intMgmt).fwNote 5 (tried % 2) 0 (s.flashNat (slotBase (tried % 2) + 8) 1) (s.flashNat (slotBase (tried % 2) + 4) 4)
      s.startSlot active false
    else s.startSlot active false
  | none =>
    let v := fun (i : Nat) => s.flashNat (slotBase i + 4) 4
    s.startSlot (if s.slotValid 1 && (!s.slotValid 0 || decide (v 1 > v 0)) then 1 else 0) false

/-- FIRMWARE_BOOT: step 5 of start-up, or the reload after a management restart (R675, R682). -/
def State.firmwareBoot (s : State) : State :=
  if s.startup = 1 then
    let s : State := { s with mgmt := { s.mgmt with boots := s.mgmt.boots + 1 } }
    let s := s.chooseSlot
    match s.mgmt.running with
    | none => s
    | some i =>
      let s := s.note 1 (leBytes 1 (s.get F.rstStatusCause) ++ leBytes 1 i ++ leBytes 1 s.mgmt.lifecycle ++ [255] ++ leBytes 4 s.mgmt.version ++
        leBytes 1 s.mgmt.svn ++ List.replicate 3 255)
      { s with startup := 2 }
  else if s.mgmt.down then s.chooseSlot
  else s

/-- MGT_WATCHDOG: the processor restarts from its boot ROM (R675). -/
def State.mgtRestart (s : State) : State :=
  if s.startup ≠ 0 then s
  else
    let s : State := { s with mgmt := { s.mgmt with down := true, auth := false, nonce := none, mail := none, trace := false } }
    (((s.note 15 (leBytes 1 0 ++ List.replicate 11 255)).set F.mbStatusBusy 0).mark F.mbEventMgtRestart).raise intMgmt

/-- TRIAL_TIMEOUT (R684). -/
def State.trialLost (s : State) : State := if s.mgmt.trial ∧ s.mgmt.down = false then s.warmBegin 4 else s

/-- TRIAL_CONFIRM: the confirming record, and the SVN counter raised (R684). -/
def State.trialDone (s : State) : State :=
  match s.mgmt.running with
  | some i =>
    if s.mgmt.trial ∧ s.mgmt.down = false then
      let s := s.bootAppend i 255 255
      let s := s.fwNote 4 i 0 s.mgmt.svn s.mgmt.version
      { s with mgmt := { s.mgmt with trial := false, svnFuse := max s.mgmt.svnFuse s.mgmt.svn } }
    else s
  | none => s

/-! ### Mailbox commands (R685, R686, R709) -/

/-- A mailbox command begins with the result it will report; one that meets BUSY, or a management subsystem that restarts, is lost. -/
def State.mailbox (s : State) (cmd : Nat) (act : State → Nat × State) : State :=
  if s.mgmt.mail.isSome || s.mgmt.down then s.mark F.mbStatusLost
  else
    let (r, s) := act s
    let s : State := { s with mgmt := { s.mgmt with mail := some { cmd := cmd, result := r } } }
    s.mark F.mbStatusBusy

/-- The address that MB_ARG0 and MB_ARG1 hold. -/
def State.mailAddr (s : State) : Nat := s.get (F.mbArg 0) + 2 ^ 32 * s.get (F.mbArg 1)

/-- FW_UPDATE (R685). -/
def State.updateFirmware (s : State) (o : ReadOutcome) (flashOk : Bool) : Nat × State :=
  let a := s.mailAddr
  let n := s.get (F.mbArg 2)
  let slot := match s.mgmt.running with | some i => 1 - i | none => 0
  if s.mgmt.lifecycle = 3 then (7, s)
  else if s.mgmt.trial then (8, s)
  else if a % 256 ≠ 0 ∨ n < 260 ∨ 196864 < n then (1, s)
  else match o with
    | .abort => (6, s)
    | .unc => (2, s.readEnds .mailbox 0 a n .unc)
    | .ok =>
      let b := s.memGet a n
      let s := s.access .mailbox 0 a n false
      let r := s.firmwareCheck b
      if fieldOf b 0x0C 4 + 256 ≠ n ∧ r = 0 then (2, s)
      else if r ≠ 0 then (r, s)
      else
        let s := s.fwNote 0 slot 0 (fieldOf b 8 1) (fieldOf b 4 4)
        let s := s.flashClear (slotBase slot) 0x40000
        if !flashOk then (5, s)
        else
          let s := (s.flashPut (slotBase slot) (b.take 255)).flashPut (slotBase slot + 0x100) (b.drop 0x100)
          if s.firmwareCheck (s.slotBytes slot) ≠ 0 then (5, s)
          else
            let s := (s.flashPut (slotBase slot + 0xFF) [BitVec.ofNat 8 commitByte]).fwNote 1 slot 0 (fieldOf b 8 1) (fieldOf b 4 4)
            (0, { s with mgmt := { s.mgmt with fwStaged := true } })

/-- FW_ACTIVATE (R686): NOT_STAGED, or the TRY record and a WARM reset. -/
def State.activateFirmware (s : State) : State :=
  if s.mgmt.mail.isSome || s.mgmt.down || !s.mgmt.fwStaged then s.mailbox 2 (fun s => (9, s))
  else
    let i := s.mgmt.running.getD 0
    let slot := 1 - i
    let s := s.bootAppend i slot 255
    let s := s.fwNote 2 slot 0 (s.flashNat (slotBase slot + 8) 1) (s.flashNat (slotBase slot + 4) 4)
    (s.mark F.mbStatusBusy).warmBegin 4

/-- MAILBOX_DONE (R709). -/
def State.mailDone (s : State) : State :=
  match s.mgmt.mail with
  | some x =>
    let s := s.setAll [(F.mbStatusBusy, 0), (F.mbStatusDone, 1), (F.mbStatusResult, x.result)]
    State.raise { s with mgmt := { s.mgmt with mail := none } } intMgmt
  | none => s

/-! ### The log in flash (R687–R690, R709) -/

/-- The sectors of the log ring (Table 171). -/
def logSectors : Nat := (max 0x400000 (min 0x10000000 Config.flashBytes) - 0x90000) / 4096

/-- The flash address of log place `p`: 127 entries after each sector header. -/
def logAddr (p : Nat) : Nat := 0x90000 + p / 127 % logSectors * 4096 + 32 + 32 * (p % 127)

/-- The first 28 bytes of an entry (Table 173). -/
def entryHead (seq boot : Nat) (e : LogEntry) : List Byte :=
  leBytes 4 seq ++ leBytes 2 boot ++ leBytes 2 e.typ ++ leBytes 8 e.count ++ (e.data ++ List.replicate 12 255).take 12

/-- The 32 bytes of an entry. -/
def logEntryBytes (seq boot : Nat) (e : LogEntry) : List Byte :=
  let h := entryHead seq boot e
  h ++ leBytes 2 (crc16 h) ++ [255] ++ leBytes 1 commitByte

/-- A log sector entered: its header is programmed, and the sector ahead is erased. -/
def State.enterSector (s : State) (sector seq : Nat) : State :=
  let erases := fun (m : Mgmt) (i : Nat) => sget (fun _ => 0) m.erases i
  let s := s.flashPut (0x90000 + 4096 * sector) (leBytes 4 0x474C544B ++ leBytes 4 seq ++ leBytes 4 (erases s.mgmt sector) ++
    List.replicate 19 255 ++ leBytes 1 commitByte)
  let next := (sector + 1) % logSectors
  let a := 0x90000 + 4096 * next
  if (flashGet s.mgmt.flash a 4096).all (fun b => b == 255) then s
  else
    let s := s.flashClear a 4096
    { s with mgmt := { s.mgmt with erases := sset (fun _ => 0) s.mgmt.erases next (erases s.mgmt next + 1) } }

/-- LOG_PROGRAM: the oldest waiting entry is programmed, or a program or erase that takes too long sets FLASH_ERR and the writer skips the
sector, whose successor starts with a snapshot again (R688–R690). -/
def State.logProgram (s : State) (ok : Bool) : State :=
  match s.mgmt.logBuf with
  | [] => s
  | e :: rest =>
    let m := s.mgmt
    let p := m.logPos
    let seq := m.logSeq - m.logBuf.length
    if ok then
      let s := if p % 127 = 0 then s.enterSector (p / 127 % logSectors) seq else s
      let s := s.flashPut (logAddr p) (logEntryBytes seq m.boots e)
      let s := if m.trace then s.emit (.monData e.typ seq) else s
      { s with mgmt := { s.mgmt with logBuf := rest, logPos := p + 1 } }
    else
      let snap := if p % 127 = 0 then [] else s.snapshot
      let s := (s.mark F.mbEventFlashErr).raise intMgmt
      { s with mgmt := { m with logBuf := snap ++ m.logBuf, logSeq := m.logSeq + snap.length, logPos := (p / 127 + 1) * 127 } }

/-- The committed entries of the log, as (SEQ, bytes) with SEQ rising (R688). -/
def State.logEntries (s : State) : List (Nat × List Byte) :=
  let at' := (s.mgmt.flash.filter (fun c => decide (c.1 ≥ 0x90000) && c.1 % 32 == 31 && decide (c.1 % 4096 ≥ 32) &&
    (~~~c.2).toNat == commitByte)).map (fun c => c.1 - 31)
  let all := at'.filterMap (fun a =>
    let b := flashGet s.mgmt.flash a 32
    if crc16 (b.take 28) = fieldOf b 28 2 then some (fieldOf b 0 4, b) else none)
  all.mergeSort (fun a b => decide (a.1 ≤ b.1))

/-- LOG_COPY (R709). -/
def State.copyLog (s : State) (o : ReadOutcome) : Nat × State :=
  let a := s.mailAddr
  let n := s.get (F.mbArg 3)
  if a % 32 ≠ 0 ∨ n < 1 ∨ 4096 < n then (1, s)
  else match o with
    | .abort => (6, s)
    | _ =>
      let l := ((s.logEntries.filter (fun e => decide (e.1 ≥ s.get (F.mbArg 2)))).take n).map (fun e => e.2)
      let s := if l.isEmpty then s else (s.access .mailbox 0 a (32 * l.length) true).memPut a l.flatten
      let s := if o == .unc && !l.isEmpty then s.uncRead .mailbox a else s
      (0, s.set (F.mbArg 3) l.length)

end Sys2Proof.Machine
end

