-- ==== Sys2Proof/Machine/Mgmt.lean ====
section
/-! DEFINITION. The control loops, lifecycle, keys and telemetry of the management subsystem ("Management Subsystem and Monitor",
R692–R701). -/

namespace Sys2Proof.Machine

/-! ### Thermal loop and trip (R692–R694) -/

/-- A sensor reading in 1/16 °C. -/
def tempOf (t : Nat) : Int := signed 16 t

/-- LIMIT and TRIP in 1/16 °C: above 125 °C they act as 125 (Table 182). -/
def State.thermLimit (s : State) : Int := 16 * (min 125 (s.get F.snsThermLimit) : Nat)
def State.thermTrip (s : State) : Int := 16 * (min 125 (s.get F.snsThermTrip) : Nat)

/-- The sensors of a rail's domain (Table 175). -/
def railSensors (k : Nat) : List Nat :=
  match k with | 0 => [16, 17, 18, 19] | 1 => [0, 1, 2, 3] | 2 => [4, 5, 6, 7] | _ => [8 + (k - 3)]

/-- The reading of a sensor. -/
def State.temp (s : State) (i : Nat) : Int := tempOf (s.get (F.snsTemp i))

/-- The hottest of some sensors, the lowest index first. -/
def State.hottest (s : State) (l : List Nat) : Nat :=
  (leastBy (fun (a b : Nat) => decide (s.temp a > s.temp b) || (s.temp a == s.temp b && decide (a < b))) l).getD 0

/-- A THERM log entry (Table 174). -/
def State.thermNote (s : State) (i event : Nat) : State :=
  s.note 5 (leBytes 1 i ++ leBytes 1 event ++ leBytes 2 (s.get (F.snsTemp i)) ++ List.replicate 8 255)

/-- The thermal limit of a rail's domain moved. -/
def State.thermalTo (s : State) (k v : Nat) : State :=
  let old := (s.loop k).thermal
  if old = v then s else (s.modLoop k (fun l => { l with thermal := v })).limitMoved 0 k old v

/-- The thermal loop on one domain (R693). -/
def State.thermalStep (s : State) (k : Nat) : State :=
  let i := s.hottest (railSensors k)
  let l := s.loop k
  if s.temp i ≥ s.thermLimit then
    let s := s.modLoop k (fun l => { l with coolMs := 0 })
    if l.thermal ≥ 5 then s else (((s.capture 10 none i).thermNote i 0).thermalTo k (l.thermal + 1))
  else if s.temp i ≤ s.thermLimit - 80 then
    if l.coolMs + 1 ≥ 100 then (s.modLoop k (fun l => { l with coolMs := 0 })).thermalTo k (l.thermal - 1)
    else s.modLoop k (fun l => { l with coolMs := l.coolMs + 1 })
  else s.modLoop k (fun l => { l with coolMs := 0 })

/-- THERMAL_LOOP_TICK: every 1 ms the sensors and supply monitors are read and each domain's thermal limit moves (R692, R693); the
window of 1 s in which dips are counted slides (R696). -/
def State.thermalTick (s : State) (temps : List (BitVec 16)) : State :=
  if s.startup ≠ 0 then s
  else
    let was := fun (i : Nat) => s.temp i
    let limit := s.thermLimit
    let s := temps.zipIdx.foldl (fun s e => if e.2 < 24 then s.set (F.snsTemp e.2) e.1.toNat else s) s
    let s := s.set F.snsThermStatusHot (s.hottest (List.range 24))
    let s := (List.range 30).foldl (fun s d =>
      let (a, s) := s.draw
      let (b, s) := s.draw
      (s.set (F.snsSupplyVolt d) (Config.freeValue a).toNat).set (F.snsSupplyCurrent d) (Config.freeValue b).toNat) s
    if s.mgmt.down then s
    else
      let s := (List.range 11).foldl (fun s k => s.modLoop k (fun l =>
        { l with dips := (l.dips.map (· + 1)).filter (fun a => decide (a < 1000)) })) s
      let s := (List.range 11).foldl (fun s k => s.thermalStep k) s
      [20, 21, 22, 23].foldl (fun s i =>
        if s.temp i ≥ limit then
          let s := s.mark F.snsThermStatusLimited
          if was i < limit then s.thermNote i 3 else s
        else s) s

/-- THERMAL_TRIP: a sensor has reached TRIP (R694). -/
def State.tripped (s : State) (i : Nat) (t : BitVec 16) : State :=
  if tempOf t.toNat < s.thermTrip then s
  else
    let s := s.set (F.snsTemp i) t.toNat
    let s := s.set F.snsThermStatusHot (s.hottest (List.range 24))
    if s.mgmt.trip then s
    else
      let s : State := { s with mgmt := { s.mgmt with trip := true }, therm := true }
      let s := ((s.mark F.snsThermStatusTrip).mark F.snsThermStatusTripped).capture 10 none i
      let s := (List.range 11).foldl (fun s k => (s.modLoop k (fun l => { l with coolMs := 0 })).thermalTo k 5) (s.thermNote i 1)
      s.opKick

/-- THERMAL_TRIP_END (R694). -/
def State.tripEnd (s : State) : State :=
  if s.mgmt.trip && (List.range 24).all (fun i => decide (s.temp i < s.thermLimit - 80)) then
    let s : State := { s with mgmt := { s.mgmt with trip := false }, therm := false }
    ((s.set F.snsThermStatusTrip 0).thermNote (s.get F.snsThermStatusHot) 2).opKick
  else s

/-! ### Power cap (R695) -/

/-- The power-cap limit of a rail's domain moved. -/
def State.capTo (s : State) (k v : Nat) : State :=
  let old := (s.loop k).power
  if old = v then s else (s.modLoop k (fun l => { l with power := v })).limitMoved 1 k old v

/-- POWER_CAP_TICK: every 10 ms, with the power estimate (R692, R695). -/
def State.capTick (s : State) (mw : Nat) : State :=
  if s.startup ≠ 0 then s
  else
    let s := s.set F.snsPower (min mw 0xFFFF)
    let cap := s.get F.snsPcap
    let rails := (List.range 11).drop 1
    let cool := fun (s : State) (n : Nat) => ({ s with mgmt := { s.mgmt with capCool := n } } : State)
    if s.mgmt.down then s
    else if cap = 0 then cool s 0
    else if mw > cap then
      rails.foldl (fun s k => if (s.loop k).power ≥ 5 || s.opOf k ≥ 5 then s else s.capTo k ((s.loop k).power + 1)) (cool s 0)
    else if 10 * mw ≤ 9 * cap then
      if s.mgmt.capCool + 1 ≥ 10 then rails.foldl (fun s k => s.capTo k ((s.loop k).power - 1)) (cool s 0)
      else cool s (s.mgmt.capCool + 1)
    else cool s 0

/-! ### Lifecycle and keys (R698–R700) -/

/-- Whether a lifecycle transition is accepted (Table 176). -/
def State.lcyAccepts (s : State) (target : Nat) : Bool :=
  let m := s.mgmt
  decide (target > m.lifecycle) &&
  (match target with
  | 1 => m.lifecycle == 0
  | 2 => m.keys.any (fun k => k.state == 2) && m.running.isSome && m.key == 0
  | 3 => true
  | _ => false)

/-- LCY_REQ written: accepted or refused, and logged (R699). -/
def State.lcyRequest (s : State) (target : Nat) : State :=
  if s.mgmt.lcyTarget.isSome then s
  else
    let ok := s.lcyAccepts target
    let r := if ok then 1 else 2
    let s := s.note 11 (leBytes 1 s.mgmt.lifecycle ++ leBytes 1 target ++ leBytes 1 r ++ List.replicate 9 255)
    let s : State := { s with mgmt := { s.mgmt with lcyTarget := if ok then some target else none } }
    s.set F.lcyStatus r

/-- LIFECYCLE_COMMIT: the fuses are changed, and the LIFECYCLE reset follows (R699). -/
def State.lcyCommit (s : State) : State :=
  match s.mgmt.lcyTarget with
  | some t =>
    let s : State := { s with mgmt := { s.mgmt with lifecycle := t, lcyTarget := none, auth := false } }
    s.warmBegin 5
  | none => s

/-- The bytes of MB_KEY_DATA. -/
def State.keyData (s : State) : List Byte := (List.range 8).flatMap (fun w => leBytes 4 (s.get (F.mbKeyData w)))

/-- MB_KEY_CMD written with a command: it runs, unless one runs already. -/
def State.keyCommand (s : State) (cmd slot : Nat) : State :=
  if s.mgmt.keyOp.isSome || cmd = 0 then s
  else State.set { s with mgmt := { s.mgmt with keyOp := some (slot, cmd) } } F.mbKeyStatus 1

/-- A key slot. -/
def Mgmt.keySlot (m : Mgmt) (slot : Nat) : KeySlot := (m.keys[slot]?).getD KeySlot.init

/-- Whether a key command may act (R700). -/
def Mgmt.keyAccepts (m : Mgmt) (cmd slot : Nat) : Bool :=
  let k := m.keySlot slot
  match cmd with
  | 1 => k.state == 0 && decide (m.lifecycle ≤ 1)
  | 2 => k.state == 0 && decide (m.lifecycle ≤ 1)
  | 3 => decide (m.lifecycle < 3) && !(m.lifecycle == 2 && k.state == 2 && (m.keys.filter (fun x => x.state == 2)).length == 1)
  | _ => false

/-- KEY_COMMAND_DONE: the command acts or is refused; KEY_DONE (R700). -/
def State.keyDone (s : State) : State :=
  match s.mgmt.keyOp with
  | none => s
  | some (slot, cmd) =>
    let m := s.mgmt
    let ok := m.keyAccepts cmd slot
    let n : KeySlot := if cmd = 3 then { m.keySlot slot with state := 3 } else { state := cmd, key := s.keyData }
    let keys := if ok then modifyAt (fun _ => n) slot m.keys else m.keys
    let r := if ok then 2 else 3
    let s : State := { s with mgmt := { m with keys := keys, keyOp := none } }
    let s := s.note 12 (leBytes 1 slot ++ leBytes 1 cmd ++ leBytes 1 r ++ List.replicate 9 255)
    ((s.set F.mbKeyStatus r).mark F.mbEventKeyDone).raise intMgmt

/-! ### Telemetry (R701) -/

/-- The telemetry record (Table 177). -/
def State.telemRecord (s : State) : List Byte :=
  let sf := popCount 32 (s.get F.rasFencedSfLo) + popCount 32 (s.get F.rasFencedSfHi)
  let hot := s.get F.snsThermStatusHot
  let core := s.get F.cpOpCoreMxaOp + 16 * s.get F.cpOpCoreMxbOp + 256 * s.get F.cpOpCoreSrtOp + 2 ^ 31 * s.get F.cpOpCoreChanging
  let a := s.get F.rasFencedALc + 65536 * s.get F.rasFencedASe
  let b := s.get F.rasFencedBQuad + 256 * s.get F.rasFencedBPlk + 65536 * s.get F.rasFencedBMp
  leBytes 2 (s.get F.plkNode) ++ leBytes 2 (s.get F.rasStatusRecovering + 2 * boolNat s.mgmt.trip) ++ leBytes 4 s.mgmt.records ++
  leBytes 8 s.mgmt.count ++ leBytes 4 (s.get F.snsPower) ++ leBytes 2 (s.get (F.snsTemp hot)) ++ leBytes 1 hot ++
  leBytes 1 s.mgmt.lifecycle ++ leBytes 4 core ++ leBytes 4 (s.get F.cpOpTg) ++ leBytes 4 (s.get F.rasFencedTc) ++ leBytes 4 a ++
  leBytes 4 b ++ leBytes 1 sf ++ leBytes 3 0 ++ leBytes 4 s.mgmt.corrTotal ++ leBytes 4 s.mgmt.otherTotal ++ leBytes 4 s.mgmt.hours ++
  leBytes 4 0

/-- The record sent to a node; records sent are counted. -/
def State.sendTelem (s : State) (node : Nat) : State :=
  let s := s.plkPost node ptTelem tcMgmt true 0 0 s.telemRecord
  { s with mgmt := { s.mgmt with records := s.mgmt.records + 1 } }

/-- TELEMETRY_PUSH. -/
def State.telemPush (s : State) : State :=
  if s.get F.mbTlm = 0 ∨ s.mgmt.down = true ∨ s.startup ≠ 0 then s else s.plk.subscribers.foldl (fun s n => s.sendTelem n) s

/-- TELEM_REQ consumed. -/
def State.telemAsked (s : State) (k : Packet) : State := if s.mgmt.down then s else s.sendTelem k.src.toNat

end Sys2Proof.Machine
end

