-- ==== Sys2Proof/Machine/Owner.lean ====
section
/-! DEFINITION. Ownership: claims and their window, handover, release, heartbeat ("Dispatch, Service Classes and Ownership",
"Ownership"). -/

namespace Sys2Proof.Machine

/-- Whether master `m` is the owner (R133). -/
def State.isOwner (s : State) (m : Nat) : Bool := s.flag F.ownStatusOwned && s.get F.ownStatusOwnerId == m

/-- Whether master `m` is configured (R133). -/
def State.hasMaster (s : State) (m : Nat) : Bool := bit s.integ.masters m

/-- Ownership changes: the guard closes and the change is counted (R581, Table 42). -/
def State.ownChanged (s : State) : State := (s.set F.keyUnlocked 0).bump F.ownChanges 1

/-- Ownership is granted to `m`, and the heartbeat timer starts afresh (R136, R137, R138). -/
def State.grant (s : State) (m : Nat) : State :=
  { (s.setAll [(F.ownStatusOwned, 1), (F.ownStatusOwnerId, m), (F.ownEventGranted, 1)]).ownChanged with hb := 0 }

/-- A write that R134 does not allow: ignored, DENIED set, the first one captured (R135). -/
def State.deny (s : State) (m addr : Nat) : State :=
  if s.flag F.ownEventDenied then s
  else s.setAll [(F.ownEventDenied, 1), (F.ownDeniedMaster, m), (F.ownDeniedOffset, addr)]

/-- A claim of master `m` for `id` (R136). -/
def State.claim (s : State) (m id : Nat) : State :=
  if id ≠ m then s.deny m 0x01004
  else if s.flag F.ownStatusOwned then s
  else { s with claimOpen := true, claims := withBit s.claims m true }

/-- The claim window ends: the lowest claimant owns the engine (R136). -/
def State.claimEnd (s : State) : State :=
  if !s.claimOpen then s
  else
    let l := lowestBit 4 s.claims
    let s := { s with claimOpen := false, claims := 0 }
    match l with
    | some m => if s.flag F.ownStatusOwned then s else s.grant m
    | none => s

/-- OWN_HANDOVER written by the owner `m`: to a successor, or released (R137). -/
def State.handover (s : State) (m succ : Nat) (release : Bool) : State :=
  if release then { (s.setAll [(F.ownStatusOwned, 0), (F.ownEventReleased, 1)]).ownChanged with hb := 0 }
  else if succ = m ∨ s.hasMaster succ = false then s
  else s.grant succ

/-- OWN_HEARTBEAT written by the owner (R138). -/
def State.heartbeat (s : State) : State := { s with hb := 0 }

/-- TIMEOUT_MS passed without a heartbeat (R138). -/
def State.heartbeatLost (s : State) : State :=
  if s.flag F.ownStatusOwned ∧ s.get F.ownHbTimeout ≠ 0 then
    (s.setAll [(F.ownStatusOwned, 0), (F.ownEventTimedOut, 1)]).ownChanged
  else s

end Sys2Proof.Machine
end

