-- ==== Sys2Proof/Machine/RegOps.lean ====
section
/-! DEFINITION. The host register port: what a read shows, what a write may do, the write buffer and the engine epoch ("Register
Interface and Global Registers"). -/

namespace Sys2Proof.Machine

/-! ### What a read shows -/

/-- The bits of the indices below `n` for which `p` holds. -/
def maskBelow (n : Nat) (p : Nat → Bool) : Nat := ((List.range n).filter p).foldl (fun m i => withBit m i true) 0

/-- The interrupt lines that a level source of Table 145 holds, and those of R139, R709, R710 and R749. -/
def State.intSources (s : State) : Nat :=
  let l0 := s.flag F.donePend || s.flag F.seDonePend || s.flag F.ldrStateLoadEnd || s.flag F.ldrStateActDone || s.flag F.ldrStateTimeout
  let l1 := (List.range 4).any (fun c => s.flag (F.doneLostLoValid c)) || (List.range 16).any (fun i => s.flag (F.lcFailInfoValid i)) ||
    (List.range 8).any (fun g => s.flag (F.tgFailInfoValid g)) || s.flag F.qryFailInfoValid || (List.range 2).any (fun a => s.flag (F.mxFailInfoValid a))
  let l2 := (List.range 16).any (fun i => s.flag (F.fltInfoOpen i)) || !s.hotFifo.isEmpty
  let l3 := s.flag F.rasCapValid || s.flag F.rasCfgParValid
  let l4 := s.flag F.mbStatusDone || [F.mbEventFlashErr, F.mbEventLogDrop, F.mbEventAgeWarn, F.mbEventTrialFailed, F.mbEventMgtRestart, F.mbEventKeyDone].any s.flag
  let l5 := [F.plkEventDupNode, F.plkEventSubFull, F.plkEventUnreach, F.plkEventNotice, F.plkEventGoodbye, F.plkEventLost].any s.flag
  let l6 := [F.snsThermStatusTrip, F.snsThermStatusTripped, F.snsThermStatusLimited, F.snsThermStatusCapped, F.snsThermStatusBrownout].any s.flag
  let l7 := !s.flag F.ownStatusOwned || [F.ownEventDenied, F.ownEventTimedOut, F.ownEventReleased, F.ownEventGranted].any s.flag
  boolNat l0 + 2 * boolNat l1 + 4 * boolNat l2 + 8 * boolNat l3 + 16 * boolNat l4 + 32 * boolNat l5 + 64 * boolNat l6 + 128 * boolNat l7

/-- The asserted interrupt lines (R583). -/
def State.intLevel (s : State) : Nat := s.get F.intEnable &&& (s.get F.intStatus ||| s.intSources)

/-- The domain that RAS_AGE_SEL shows (R671). -/
def State.ageShown (s : State) : Ageing := let d := s.get F.rasAgeSel; s.age (if d < 14 then d else 0)

/-- The state of a stream engine (SE_STATUS): what it waits on, STALL_RECOVERY while work it took over from a fenced engine has issued nothing
(R487), its transfers outstanding and the claims of its slots. -/
def State.seShown (s : State) (n : Nat) : List (Nat × Nat) :=
  let t := s.se n
  let claimed := fun (x : SSlot) => match x with | .free => 0 | _ => 1
  let takenOver := t.taken || (match t.active with | .run r => r.taken | _ => false)
  [(16, if takenOver then 6 else t.wait), (8, s.seOutstanding n), (2, claimed t.shadow), (1, claimed t.active), (0, boolNat (s.inService (seUnit n)))]

/-- The queries taken and not yet ended or placed in a block (QRY_STATUS). -/
def State.queriesActive (s : State) : Nat :=
  (s.rays.filter (fun r => r.query && r.guest.isNone && r.loc != .ended && r.loc != .settled)).length

/-- Whether quadrant `q` of array `arr` holds a batch (MX_STATUS): one of a MATMUL stage, held back or not, of neural samples, or a block
whose queries it scores. -/
def State.quadHolds (s : State) (arr q : Nat) : Bool :=
  s.mbatches.any (fun b => b.arr == arr && (match s.batchStage b with | some t => (s.mxGroup t arr (s.batchCls b)).contains q | none => false)) ||
  s.nbatches.any (fun b => b.quad == some (4 * arr + q)) || s.gblocks.any (fun b => b.quad == some (4 * arr + q))

/-- The fields of the register at `a` that show what stands elsewhere in the engine, as (lowest bit, value). -/
def State.liveAt (s : State) (a : Nat) : List (Nat × Nat) :=
  if a < 0x1000 then
    match a with
    | 0x00008 => [(16, s.integ.memPorts), (8, s.integ.plkPorts), (0, s.integ.masters)]
    | 0x0000C => [(0, s.integ.streamId)]
    | 0x00014 => [(31, boolNat (s.active.isSome && !s.firstImage)), (0, s.wbuf.length)]
    | 0x00028 => [(0, s.intLevel)]
    | _ => []
  else if a = 0x01000 then [(16, s.integ.masters)]
  else if a < 0x2400 then
    if 0x2000 ≤ a && a % 256 == 0x18 then
      let c := (a - 0x2000) / 256
      [(16, (s.running c).length), (0, s.pendingRecs c)]
    else []
  else if a = 0x08014 then [(0, maskBelow 30 s.domOn)]
  else if a = 0x08030 then
    [(0, maskBelow 30 (fun d => bit (s.get F.cpSupStretch) d || (match railOfDomain d with | some k => (s.age (ageOf k)).cap == 6 | none => false)))]
  else if a = 0x0A010 then [(0, s.mgmt.lifecycle)]
  else if a = 0x0C084 then [(0, (s.ageShown.vadj.zipIdx).foldl (fun n e => n + e.1 % 16 * 16 ^ e.2) 0)]
  else if a = 0x0C088 then [(31, boolNat s.ageShown.warn), (28, s.ageShown.cap), (16, s.ageShown.slack), (0, s.ageShown.changes)]
  else if a = 0x0C08C then [(0, s.mgmt.hours)]
  else if 0x10000 ≤ a && a < 0x18000 then
    let g := (a - 0x10000) / 0x1000
    match a % 0x1000 with
    | 0 => [(4, maskBelow 2 (fun j => s.inService (lcUnit (2 * g + j)))), (0, maskBelow 4 (fun j => s.inService (tcUnit (4 * g + j))))]
    | 8 => [(0, (List.range 4).foldl (fun n j => max n (s.suspendedIn (4 * g + j))) 0)]
    | _ => []
  else if a = 0x18000 then [(16, s.descsTaken), (0, s.fetches)]
  else if a = 0x18004 then [(0, s.segFree)]
  else if a = 0x18014 then [(0, s.segSpilled)]
  else if a = 0x18104 then (List.range 4).map (fun ch => (8 * ch, (s.hrBuffer ch).length))
  else if a = 0x18110 then [(0, s.hold.length)]
  else if a = 0x1A000 then [(16, min 0xFFFF s.queriesActive), (0, s.gblocks.length)]
  else if a = 0x20000 || a = 0x24000 then
    let arr := (a - 0x20000) / 0x4000
    [(8, maskBelow 4 (fun q => s.quadHolds arr q)), (0, maskBelow 4 (fun q => s.inService (quadUnit arr q)))]
  else if 0x28000 ≤ a && a < 0x2C000 then
    let l := (a - 0x28000) / 0x400
    let gs := s.resident l
    match a % 0x400 with
    | 0 => [(24, (s.lcore l).split), (12, 2048 - gs.foldl (fun n g => n + (s.progOf g.prog).regs) 0), (8, boolNat (s.inService (lcUnit l))), (0, gs.length)]
    | 8 => [(0, (s.callouts.filter (fun c => c.lc == l)).length)]
    | _ => []
  else if 0x30000 ≤ a && a < 0x34000 then (if a % 0x400 = 0 then s.seShown ((a - 0x30000) / 0x400) else [])
  else if a = 0x34000 then
    [(16, maskBelow 16 (fun p => s.portsUp.any (fun q => q.val == p))), (9, boolNat (s.integ.plkPorts == 0)), (8, boolNat s.tagLimited), (0, s.integ.memPorts)]
  else if a = 0x38000 then
    [(16, s.xreqs.length), (8, s.invals.length), (5, boolNat (!s.hotFifo.isEmpty)), (0, ((List.range 16).filter (fun i => s.flag (F.fltInfoOpen i))).length)]
  else if a = 0x3800C then [(0, maskBelow 16 (fun i => s.flag (F.fltInfoOpen i)))]
  else if 0x38048 ≤ a && a ≤ 0x38050 then
    match s.hotFifo.head? with
    | some (region, n) => if a = 0x38048 then [(0, region)] else if a = 0x3804C then [(31, 1), (0, region / 2 ^ 32)] else [(0, n)]
    | none => []
  else if 0x40000 ≤ a && a < 0x41000 then
    match a with
    | 0x40014 => [(31, boolNat (s.flag F.mbStatusBusy || s.mgmt.down))]
    | 0x40018 => [(24, s.mgmt.svnFuse), (16, s.mgmt.svn), (8, boolNat s.mgmt.trial), (0, s.mgmt.running.getD 0)]
    | 0x4001C => [(0, s.mgmt.version)]
    | 0x40020 => [(0, s.mgmt.logSeq)]
    | 0x40028 => [(0, (s.mgmt.keys.zipIdx).foldl (fun n e => n + e.1.state % 4 * 4 ^ e.2) 0)]
    | 0x40064 => [(31, boolNat s.mgmt.auth), (16, s.integ.monMaster)]
    | 0x40068 => [(0, s.integ.serial)]
    | 0x4006C => [(0, s.integ.serial / 2 ^ 32)]
    | _ => []
  else []

/-- Whether the register at `a` belongs to a port that the integration does not provide (R564). -/
def State.notIntegrated (s : State) (a : Nat) : Bool :=
  (0x34100 ≤ a && a < 0x34200 && decide ((a - 0x34100) / 16 ≥ s.integ.memPorts)) ||
  (0x34200 ≤ a && a < 0x34240 && decide ((a - 0x34200) / 4 ≥ s.integ.memPorts)) ||
  (0x44010 ≤ a && a < 0x44030 && decide ((a - 0x44010) / 4 ≥ s.integ.plkPorts)) ||
  (0x44100 ≤ a && a < 0x44200 && decide ((a - 0x44100) / 32 ≥ s.integ.plkPorts))

/-- The register at `a` of an existing unit (R564). -/
def State.regAt (s : State) (a : Nat) : Option RegRow := if s.notIntegrated a then none else regRowAt a

/-- Whether the power domain of the register at `a` is on (R566); a matrix array's block stands while one of its quadrants is on. -/
def State.regOn (s : State) (a : Nat) : Bool :=
  if 0x20000 ≤ a ∧ a < 0x28000 then (List.range 4).any (fun q => s.domOn (domainOfAddr a + q)) else s.domOn (domainOfAddr a)

/-- Whether the port serves the block at `a` now: not before start-up ends (R615), of a SOFT reset only the blocks of PD_AON and PD_MGT
(R614), in SLEEP only those of Table 157. -/
def State.portServes (s : State) (a : Nat) : Bool :=
  s.startup == 0 && !((match s.resetting with | some r => r.cause == 6 | none => false) && softReaches a) &&
  (s.present || (s.resetting.isSome && s.get F.cpLpStatusState != lpSleep) || (0x8000 ≤ a && a < 0xC000))

/-- The word of a register of the map: write-only fields and reserved bits read 0. -/
def State.readWord (s : State) (a : Nat) : Nat :=
  match s.regAt a with
  | none => 0
  | some row =>
    let live := s.liveAt a
    row.fields.foldl (fun w f =>
      if f.acc = .wo then w
      else w + 2 ^ f.lo * (match live.find? (fun e => e.1 == f.lo) with
        | some e => e.2 % 2 ^ f.width
        | none => s.get ⟨a, f.lo, f.width⟩)) 0

/-- What the port returns for a read of 4 B at `a` (R561, R564, R566). -/
def State.portRead (s : State) (a : Nat) : Nat := if s.portServes a && s.regOn a then s.readWord a else 0

/-- What a read does to the register: an RC counter is cleared (R13); the owner's read of DONE_LOST_HI releases the queue (R587). -/
def State.readEffect (s : State) (m a : Nat) : State :=
  if !(s.portServes a && s.regOn a) then s
  else match s.regAt a with
    | none => s
    | some row =>
      let s := row.fields.foldl (fun s f => if f.acc = .rc then s.set ⟨a, f.lo, f.width⟩ 0 else s) s
      if a = 0x2024 ∨ a = 0x2124 ∨ a = 0x2224 ∨ a = 0x2324 then
        if s.isOwner m then s.doneLostRead (clsOf ((a - 0x2024) / 256)) else s
      else s

/-- A read by master `m` (R134, R561). -/
def State.hostRead (s : State) (m addr : Nat) : State :=
  let a := addr / 4 * 4
  if s.hasMaster m then State.emit (s.readEffect m a) (.regRead m a (s.portRead a)) else s

/-! ### Plain fields -/

/-- The bits of `w` that a masked write changes: bit `n` where bit `n + 16` of the word is 1 (R567). -/
def maskedBits (old w lo width : Nat) : Nat :=
  (List.range width).foldl (fun v i => if bit w (lo + i + 16) then withBit v i (bit w (lo + i)) else v) old

/-- A write of the plain kinds of field: RW takes the value, W1C bits written 1 clear, MW fields change where the mask is 1. -/
def State.writeFields (s : State) (row : RegRow) (a v : Nat) : State :=
  row.fields.foldl (fun s f =>
    let r : RField := ⟨a, f.lo, f.width⟩
    match f.acc with
    | .rw => s.set r (bits v f.lo f.width)
    | .w1c => s.set r (s.get r - (s.get r &&& bits v f.lo f.width))
    | .mw => s.set r (maskedBits (s.get r) v f.lo f.width)
    | _ => s) s

/-- Whether a masked write sets the bit `i`. -/
def maskSets (v i : Nat) : Bool := bit v (i + 16) && bit v i

/-! ### Registers that act when written -/

/-- KEY_UNLOCK (R581, R582). -/
def State.keyWrite (s : State) (v : Nat) : State :=
  if v = 0x5A17C0DE then s.set F.keyUnlocked 1 else (s.set F.keyUnlocked 0).mark F.glbStatusKeyBad

/-- DISCARD in GLB_CTRL: every pending write is dropped and the hold ends, unless a DOMAIN reset or a wipe still waits (R576, R616, R630). -/
def State.discardWrites (s : State) : State :=
  let s : State := { s with wbuf := [] }
  s.setAll [(F.glbStatusHold, boolNat (s.flag F.glbStatusHold && s.epochWork)), (F.glbStatusEpochWait, 0)]

/-- CP_LP_CTRL: the wake enables, and REQ where the mask covers it (R619, R622). -/
def State.lpCtrl (s : State) (v : Nat) : State :=
  let s := s.setAll [(F.cpLpCtrlPeer, maskedBits (s.get F.cpLpCtrlPeer) v 6 1), (F.cpLpCtrlFrame, maskedBits (s.get F.cpLpCtrlFrame) v 5 1),
    (F.cpLpCtrlTail, maskedBits (s.get F.cpLpCtrlTail) v 4 1)]
  if bits v 16 2 = 0 then s
  else
    let r := maskedBits (s.get F.cpLpCtrlReq) v 0 2
    if r = 1 ∨ r = 2 then s.lpRequest r else s.lpCancel

/-- RST_CTRL (R612). -/
def State.rstCtrl (s : State) (v : Nat) : State :=
  if maskSets v 14 then (s.mark F.rstCtrlWarm).warmBegin 3
  else if maskSets v 15 then s.softBegin
  else s

/-- RST_DOMAIN: while GO is 1 the command in progress stands (Table 144, R616). -/
def State.rstDomain (s : State) (v : Nat) : State :=
  if s.flag F.rstDomainGo then s
  else
    let s := s.set F.rstDomainDomain (maskedBits (s.get F.rstDomainDomain) v 0 5)
    if maskSets v 15 then s.domainRequest else s

/-- WIPE_CTRL (R630). -/
def State.wipeCtrl (s : State) (v : Nat) : State :=
  if s.flag F.wipeCtrlGo then s
  else
    let s := s.set F.wipeCtrlSet (maskedBits (s.get F.wipeCtrlSet) v 0 6)
    if maskSets v 15 then s.wipeRequest else s

/-- RAS_FENCE (R592). -/
def State.rasFence (s : State) (v : Nat) : State :=
  if s.flag F.rasFenceGo then s
  else
    let s := s.setAll [(F.rasFenceOp, maskedBits (s.get F.rasFenceOp) v 12 2), (F.rasFenceUnitKind, maskedBits (s.get F.rasFenceUnitKind) v 8 4),
      (F.rasFenceUnitIndex, maskedBits (s.get F.rasFenceUnitIndex) v 0 6)]
    if maskSets v 15 then s.fenceCommand (s.get F.rasFenceOp) (s.get F.rasFenceUnitKind) (s.get F.rasFenceUnitIndex) else s

/-- CM_CMD: the data bits under the mask, and an operation where GO is set (R551). -/
def State.cmCommand (s : State) (v : Nat) : State :=
  let old := s.get F.cmCmdCluster + 256 * s.get F.cmCmdAllClusters + 512 * s.get F.cmCmdCache + 1024 * s.get F.cmCmdOp + 4096 * s.get F.cmCmdScope
  let w := maskedBits old v 0 15
  if maskSets v 15 then s.cmStart w
  else s.setAll [(F.cmCmdScope, bits w 12 2), (F.cmCmdOp, bits w 10 2), (F.cmCmdCache, bits w 9 1), (F.cmCmdAllClusters, bits w 8 1), (F.cmCmdCluster, w)]

/-- SE_CMD (Table 126). -/
def State.seCommand (s : State) (n v : Nat) : State :=
  match v % 16 with
  | 1 => s.seArm n (bits v 4 2)
  | 2 => s.seAbort n
  | 3 => s.seClearShadow n
  | _ => s

/-- CLEAR and FREEZE in PC_CTRL (Table 152b). -/
def State.pcCtrl (s : State) (v : Nat) : State :=
  let s := s.set F.pcCtrlFreeze (maskedBits (s.get F.pcCtrlFreeze) v 14 1)
  if maskSets v 15 then
    ((List.range 16).foldl (fun s i => s.setAll [(F.pcCntLo i, 0), (F.pcCntHi i, 0)]) s).set F.pcOvf 0
  else s

/-- How a read of memory ends where the command that starts it does not say: a free choice of the three. -/
def State.freeOutcome (s : State) : ReadOutcome × State :=
  let (n, s) := s.draw
  ((match Config.pick n 3 % 3 with | 0 => .ok | 1 => .abort | _ => .unc), s)

/-- The readings of a measurement that the command does not give: free values, 13 for each domain. -/
def State.freeReadings (s : State) : List (List Nat) × State :=
  let (n, s) := s.draw
  ((List.range 14).map (fun c => (List.range 13).map (fun k => Config.openVal 0x690 [n, c, k])), s)

/-- MB_CMD (Table 181). -/
def State.mbCommand (s : State) (cmd : Nat) (o : ReadOutcome) (flashOk : Bool) : State :=
  match cmd with
  | 1 => s.mailbox 1 (fun (s : State) => s.updateFirmware o flashOk)
  | 2 => s.activateFirmware
  | 3 => s.mailbox 3 (fun (s : State) => s.copyLog o)
  | _ => s

/-- A write to MB_CMD whose reads of memory and flash end as they may. -/
def State.mbWrite (s : State) (v : Nat) : State :=
  let (o, s) := s.freeOutcome
  let (n, s) := s.draw
  s.mbCommand (v % 256) o (Config.pick n 2 % 2 == 0)

/-- RAS_AGE_CMD (Table 169, R666). -/
def State.ageCommand (s : State) (v : Nat) (readings : List (List Nat)) : State := if bit v 0 then s.measure readings else s

/-- A write to DONE_PEND: the bits written 1 clear, and the records of a class whose bit clears are counted from 0 again (R114). -/
def State.clearDone (s : State) (row : RegRow) (v : Nat) : State :=
  let old := s.get F.donePend
  State.writeFields { s with queues := s.queues.zipIdx.map (fun (e : QState × Nat) =>
    if bit v e.2 && bit old e.2 then { e.1 with sinceDone := 0 } else e.1) } row 0x2400 v

/-- A write by `m` to a register below 0x8000 that acts. -/
def State.writeLow (s : State) (row : RegRow) (m a v : Nat) : State :=
  if a = 0x10 then s.keyWrite v
  else if a = 0x18 then (if maskSets v 15 then s.discardWrites else s)
  else if a = 0x1004 then s.claim m (v % 4)
  else if a = 0x1008 then State.handover { s with hb := 0 } m (v % 4) (bit v 2)
  else if a = 0x100C then s.heartbeat
  else if a = 0x2400 then s.clearDone row v
  else if a = 0x4000 then s.ldrCommand (v % 16)
  else if 0x2000 ≤ a ∧ a < 0x2400 ∧ a % 256 = 0x0C then s.dqTail ((a - 0x2000) / 256) v
  else if 0x2000 ≤ a ∧ a < 0x2400 ∧ a % 256 = 0x14 then s.dqCommand ((a - 0x2000) / 256) (v % 16)
  else s.writeFields row a v

/-- A write to a register of the clock, reset and RAS blocks. -/
def State.writeMid (s : State) (row : RegRow) (a v : Nat) : State :=
  match a with
  | 0x8000 => s.opRequested v
  | 0x8004 => s.opOverridden v
  | 0x8020 => s.lpCtrl v
  | 0x8028 => s.set F.cpNapRet (v &&& 0x1FFFFF80)
  | 0xA000 => s.rstCtrl v
  | 0xA004 => s.rstDomain v
  | 0xA014 => s.lcyRequest (v % 4)
  | 0xA020 => s.wipeCtrl v
  | 0xC020 => s.rasFence v
  | 0xC090 => if s.get F.rasAgeCfg ≤ v % 256 then s.writeFields row a v else s
  | 0xC094 => if bit v 0 then (let (l, s) := s.freeReadings; s.ageCommand v l) else s
  | _ => s.writeFields row a v

/-- A write to a register of the blocks from 0x30000 on. -/
def State.writeHigh (s : State) (row : RegRow) (a v : Nat) : State :=
  if 0x30000 ≤ a ∧ a < 0x34000 ∧ a % 0x400 = 0x0C then s.seCommand ((a - 0x30000) / 0x400) v
  else if 0x38100 ≤ a ∧ a < 0x38300 ∧ a % 32 = 0x14 then s.answerFault ((a - 0x38100) / 32) v
  else match a with
    | 0x38054 => s.hotPop v
    | 0x3C000 => s.cmCommand v
    | 0x40000 => s.mbWrite v
    | 0x4002C => s.keyCommand (bits v 4 2) (v % 4)
    | 0x40408 => s.schedEnable v
    | 0x44000 => if (List.range 8).any (fun p => s.plkState p == psInit || s.plkState p == psUp) then s else s.writeFields row a v
    | 0x44008 => s.portEnable (v % 256)
    | 0x44040 => s.evtSend v
    | 0x48000 => s.pcCtrl v
    | _ => s.writeFields row a v

/-- An immediate write to a register of the map. -/
def State.writeReg (s : State) (row : RegRow) (m a v : Nat) : State :=
  if a < 0x8000 then s.writeLow row m a v
  else if a < 0x10000 then s.writeMid row a v
  else if a < 0x30000 then s.writeFields row a v
  else s.writeHigh row a v

/-! ### The write buffer (R572–R576) -/

/-- Whether writes of a register are buffered (R571). -/
def RegRow.buffered (row : RegRow) : Bool := row.fields.any (fun f => f.buffered)

/-- A buffered write enters the buffer, or finds it full (R572, R117). -/
def State.bufferWrite (s : State) (a v : Nat) : State :=
  if s.wbuf.length ≥ 64 then s.mark F.glbStatusBufOvf
  else State.beginHold { s with wbuf := s.wbuf ++ [{ addr := a, value := v, bad := false }] }

/-- A register fails parity, or a buffer entry for it: the address is captured and the fault raised (R579, R580, R234). -/
def State.parityFault (s : State) (a : Nat) (buffer : Bool) : State :=
  let s := if s.flag F.rasCfgParValid then s
    else s.setAll [(F.rasCfgParValid, 1), (F.rasCfgParAddr, a / 4), (F.rasCfgParBuffer, boolNat buffer)]
  s.capture 4 none (a + 2 * boolNat buffer)

/-- A change of PASID or PASID_EN empties every micro-TLB and every lane core's cache part (R503). -/
def State.pasidWrite (s : State) (row : RegRow) (a v : Nat) : State :=
  let t := s.writeFields row a v
  if t.get F.xlatPasidPasid = s.get F.xlatPasidPasid ∧ t.get F.xlatPasidPasidEn = s.get F.xlatPasidPasidEn then t
  else { t with tlbs := State.reset.tlbs, lcs := t.lcs.map (fun l => { l with cache := [] }) }

/-- One pending write takes effect at the engine epoch. -/
def State.applyOne (s : State) (w : WEntry) : State :=
  let a := w.addr
  if w.bad then (s.mark F.glbStatusPendDrop).parityFault a true
  else if !s.regOn a then s.mark F.glbStatusPendDrop
  else match regRowAt a with
    | none => s
    | some row =>
      if 0x2000 ≤ a ∧ a < 0x2400 then
        let c := (a - 0x2000) / 256
        if s.pendingRecs c = 0 then s.writeFields row a w.value else s.mark (F.dqStatusCfgRej c)
      else match a with
        | 0x8010 => State.switchDomains (s.set F.cpPdReq (w.value ||| (2 ^ 30 - 1 - maskBelow 30 switchable)))
        | 0x38004 => s.pasidWrite row a w.value
        | 0x3C014 => (s.set F.cmNcEn w.value).set F.cmNcOn w.value
        | 0x3C018 => (s.set F.cmSpcEn w.value).set F.cmSpcOn w.value
        | _ => s.writeFields row a w.value

/-- The five allocation masks of the spill caches. -/
def State.spcMasks (s : State) : List Nat := (List.range 5).map s.spcMask

/-- Every pending write takes effect in the order written; a set of allocation masks that breaks R542 leaves the masks as they were. -/
def State.applyWrites (s : State) : State :=
  let old := s.spcMasks
  let t := s.wbuf.foldl (fun s w => s.applyOne w) { s with wbuf := [] }
  if spcMasksOk t.spcMasks then t
  else (old.zipIdx.foldl (fun s e => s.setAll [(F.spcMaskLo e.2, e.1), (F.spcMaskHi e.2, e.1 / 2 ^ 32)]) t).mark F.cmStatusMaskErr

/-- What an engine epoch does with what waits for it: pending writes, then a DOMAIN reset, a wipe, the return of a bank; the hold ends
(R117, R572, R616, R630, R658). -/
def State.atEpoch (s : State) : State :=
  let s := (((s.applyWrites).domainBegin).wipeBegin).returnBank
  s.setAll [(F.glbStatusHold, boolNat (s.flag F.glbStatusHold && s.epochWork)), (F.glbStatusEpochWait, 0)]

/-- In NAP no dispatch runs, so that a buffered write takes effect in the retained register when it comes (R575, R621); a DOMAIN reset and a
wipe wait for the first epoch after the wake (R625). -/
def State.napWrites (s : State) : State :=
  let s := s.applyWrites
  s.setAll [(F.glbStatusHold, boolNat (s.flag F.glbStatusHold && s.epochWork)), (F.glbStatusEpochWait, 0)]

/-- ENGINE_EPOCH. -/
def State.engineEpoch (s : State) : State :=
  if s.epochNow then s.atEpoch
  else if s.quiet && s.resetting.isNone && s.get F.cpLpStatusState == lpNap then s.napWrites else s

/-- EPOCH_HOLD_TIMEOUT: no epoch came within LDR_ACT_TIMEOUT µs (R117). -/
def State.holdTimeout (s : State) : State :=
  if s.flag F.glbStatusHold ∧ s.get F.ldrActTimeout ≠ 0 then s.setAll [(F.glbStatusHold, 0), (F.glbStatusEpochWait, 1)] else s

/-- LP_ENTRY: pending buffered writes are applied first (R619). -/
def State.lpEntry (s : State) : State := if s.lpReady && s.epochNow then (s.atEpoch).lpGo else s

/-! ### A write on the port -/

/-- A flag of GLB_STATUS set, where PD_HIF holds it. -/
def State.markHif (s : State) (f : RField) : State := if s.portServes f.addr && s.domOn 2 then s.mark f else s

/-- Whether R134 lets master `m` write the register at `a`. -/
def State.mayWrite (s : State) (m a : Nat) : Bool := a == 0x1004 || s.isOwner m

/-- A write that R134 allows: where it goes by R564, R566, R570 and R581; `act` is the register's own effect. -/
def State.portWrite (s : State) (a v : Nat) (act : RegRow → State → State) : State :=
  if !s.portServes a then s
  else match s.regAt a with
    | none => s
    | some row =>
      if row.buffered then s.bufferWrite a v
      else if !s.regOn a then s
      else if row.guarded then
        if s.flag F.keyUnlocked then act row (s.set F.keyUnlocked 0) else s.markHif F.glbStatusGuardDenied
      else act row s

/-- A write of `size` bytes by master `m` at a window address, with what the register does given by `act` (R134, R135, R561, R615). -/
def State.hostWriteBy (s : State) (m addr size v : Nat) (act : RegRow → State → State) : State :=
  let a := addr / 4 * 4
  if !s.hasMaster m || s.startup != 0 then s
  else if size < 4 then
    let s := s.markHif F.glbStatusSizeErr
    if s.mayWrite m a then s else s.deny m a
  else if !s.mayWrite m a then s.deny m a
  else s.portWrite a (v % 2 ^ 32) act

/-- A write on the host register port. -/
def State.hostWrite (s : State) (m addr size v : Nat) : State :=
  s.hostWriteBy m addr size v (fun row s => s.writeReg row m (addr / 4 * 4) (v % 2 ^ 32))

/-- Whether a register is a performance counter: counters carry no parity (R578). -/
def pcCounter (a : Nat) : Bool := 0x48104 ≤ a && a < 0x48210 && a % 16 != 0

/-- CFG_PARITY_SCAN: a register that carries parity fails it and takes its reset value; or a buffer entry for it fails (R578–R580). -/
def State.parityScan (s : State) (addr : Nat) (buffer : Bool) : State :=
  let a := addr / 4 * 4
  if buffer then
    { s with wbuf := (s.wbuf.foldl (fun (x : Bool × List WEntry) w =>
        if !x.1 && w.addr == a && !w.bad then (true, x.2 ++ [{ w with bad := true }]) else (x.1, x.2 ++ [w])) (false, [])).2 }
  else match s.regAt a with
    | none => s
    | some row =>
      if !s.portServes a || !s.regOn a || !row.fields.any (fun f => f.acc == .rw || f.acc == .mw) || pcCounter a then s
      else
        let s := s.resetRegs (fun k => k == a)
        let s := match a with
          | 0x8000 => s.opKick
          | 0x8004 => s.opKick
          | 0x8020 => if s.get F.cpLpStatusState = lpEntering then s.lpCancel else s
          | 0x3C014 => s.set F.cmNcOn (s.get F.cmNcEn)
          | 0x3C018 => s.set F.cmSpcOn (s.get F.cmSpcEn)
          | 0x38004 => { s with tlbs := State.reset.tlbs, lcs := s.lcs.map (fun (l : LaneCore) => { l with cache := [] }) }
          | 0x44000 => s.set F.plkNode s.strap
          | 0x44008 => s.portEnable s.integ.plkEnReset
          | _ => s
        s.parityFault a false

end Sys2Proof.Machine
end

