-- ==== Sys2Proof/Machine/CacheCommands.lean ====
section
/-! DEFINITION. Meanings of the events of the node and spill caches and their maintenance ("Node and Spill Caches"), one definition for each command. -/

namespace Sys2Proof.Machine

/-- R534. A node-cache line fill from the Treelet Store completes, and the blocked requester resumes. -/
def execNcFillDone (tc : Fin 32) (r : Fin 5) (s : State) : Done :=
  .next (s.ncFillDone tc.val r.val)

/-- R538. A spill-cache line fill from the Shared Field completes, and the blocked requester resumes. -/
def execSpcFillDone (tc : Fin 32) (r : Fin 5) (s : State) : Done :=
  .next (s.spcFillDone tc.val r.val)

/-- R543. An eviction-buffer line has been written to the Shared Field and its entry frees. -/
def execEvictWriteDone (tc : Fin 32) (s : State) : Done :=
  .next (s.evictOne tc.val)

/-- R545. Cache maintenance CLEAN writes dirty spill lines in scope to the Shared Field. -/
def execCmClean (m : Master) (w : Word) (s : State) : Done :=
  .next (s.hostWrite m.val 0x3C000 4 (0xFFFF8400 ||| (w &&& 0x33FF)).toNat)

/-- R546. Cache maintenance INV invalidates lines in scope, and is refused as BUSY for a spill cache that holds items. -/
def execCmInv (m : Master) (w : Word) (s : State) : Done :=
  .next (s.hostWrite m.val 0x3C000 4 (0xFFFF8800 ||| (w &&& 0x33FF)).toNat)

/-- R545. Cache maintenance CLEAN_INV cleans and then invalidates the lines in scope. -/
def execCmCleanInv (m : Master) (w : Word) (s : State) : Done :=
  .next (s.hostWrite m.val 0x3C000 4 (0xFFFF8C00 ||| (w &&& 0x33FF)).toNat)

/-- R547. A maintenance operation completes; GO clears and DONE sets with RESULT. -/
def execCmOpDone (s : State) : Done :=
  .next s.cmDone

end Sys2Proof.Machine
end

