-- ==== Sys2Proof/Machine/GroupCommands.lean ====
section
/-! DEFINITION. Meanings of the events of group formation, admission and code fetch ("Lane Core Execution Model"), one definition for each command. -/

namespace Sys2Proof.Machine

/-- R365. A forming thread group closes when GATHER clocks have passed since its first thread was assigned. -/
def execGroupCloseTimeout (lc : Fin 16) (form : Nat) (s : State) : Done :=
  .next (s.groupTimeout lc.val form)

/-- R374. A lane core admits a waiting group when its slots, registers, local store and callout reserve allow. -/
def execGroupAdmit (lc : Fin 16) (form : Nat) (s : State) : Done :=
  .next (s.groupAdmitted lc.val form)

/-- R422. A 128-byte code line arrives in the code buffer and the waiting group becomes ready. -/
def execCodeLineArrive (lc : Fin 16) (addr : DWord) (r : ReadOutcome) (s : State) : Done :=
  .next (s.codeArrives lc addr.toNat r)

end Sys2Proof.Machine
end

