-- ==== Sys2Proof/Machine/ImageCommands.lean ====
section
/-! DEFINITION. Meanings of the commands of the image loader (Table 28, R85–R93), one definition for each command. -/

namespace Sys2Proof.Machine

/-- R85. The owner's LOAD command starts validation of the image at LDR_ADDR, or is rejected with LOAD_BUSY or
STAGE_BUSY when the loader is busy. -/
def execLdrLoad (m : Master) (s : State) : Done :=
  .next (s.hostWrite m.val 0x04000 4 1)

/-- R85. Validation finishes: the image is staged and the loader enters HOLDING, or the first failed check is reported
and the loader returns to IDLE. -/
def execValidationEnd (r : LoadRead) (s : State) : Done :=
  .next (s.validationEnd r)

/-- R93. ACTIVATE re-enters HOLDING for an image in STAGED and has no effect in any other state. -/
def execLdrActivate (m : Master) (s : State) : Done :=
  .next (s.hostWrite m.val 0x04000 4 2)

/-- R93. DISCARD abandons validation or discards the staged image, releases any hold and reports DISCARDED. -/
def execLdrDiscard (m : Master) (s : State) : Done :=
  .next (s.hostWrite m.val 0x04000 4 3)

/-- R89. The first engine epoch in HOLDING starts SWITCHING, which copies the configuration, invalidates the stores and
clears the ZERO_ON_ACTIVATE regions. -/
def execImageEpoch (s : State) : Done :=
  .next s.imageEpoch

/-- R89. The end of SWITCHING releases the hold, sets IDLE, reports the new IMAGE_ID, raises INT_DONE and begins
fetching resident weights. -/
def execSwitchingEnd (s : State) : Done :=
  if s.get F.ldrStateState = ldrSwitching then .next (s.switchOver s.fetchesOwn).mcBegin else .next s

/-- R92. When LDR_ACT_TIMEOUT expires in HOLDING, the hold is released, the loader enters STAGED and ACT_TIMEOUT is
reported. -/
def execActTimeout (s : State) : Done :=
  .next s.actTimeout

end Sys2Proof.Machine
end

