-- ==== Sys2Proof/Machine/LaneFloat.lean ====
section
/-! DEFINITION. Floating-point and conversion instructions ("Lane Core Instructions", R433–R438). -/

namespace Sys2Proof.Machine

/-- A floating-point instruction of A and B. -/
def State.fp2 (s : State) (g : Group) (w : Nat) (f : Nat → Nat → Nat) : State :=
  s.writesD g w (fun l => f (g.fA w l sign32) (g.fB w l sign32))

/-- The rounding direction MOD[1:0]. -/
def wRound (w : Nat) : Nat := wMod w % 4

/-- FADD (R433). -/
def execFadd (lc : Fin 16) (slot : Fin 64) (s : State) : Done :=
  .next (s.issue lc slot [0x28] (fun s g w => s.fp2 g w (fAdd fp32 (wRound w))))

/-- FMUL (R433). -/
def execFmul (lc : Fin 16) (slot : Fin 64) (s : State) : Done :=
  .next (s.issue lc slot [0x29] (fun s g w => s.fp2 g w (fMul fp32 (wRound w))))

/-- FFMA, one rounding (R433). -/
def execFfma (lc : Fin 16) (slot : Fin 64) (s : State) : Done :=
  .next (s.issue lc slot [0x2A] (fun s g w => s.writesD g w (fun l =>
    fFma fp32 (wRound w) (g.fA w l sign32) (g.fB w l sign32) (g.fC w l sign32))))

/-- FMIN (R435). -/
def execFmin (lc : Fin 16) (slot : Fin 64) (s : State) : Done :=
  .next (s.issue lc slot [0x2B] (fun s g w => s.fp2 g w (fMin fp32)))

/-- FMAX (R435). -/
def execFmax (lc : Fin 16) (slot : Fin 64) (s : State) : Done :=
  .next (s.issue lc slot [0x2C] (fun s g w => s.fp2 g w (fMax fp32)))

/-- FSETP: predicate D[2:0] = A cond B (R430). -/
def execFsetp (lc : Fin 16) (slot : Fin 64) (s : State) : Done :=
  .next (s.issue lc slot [0x2D] (fun s g w => s.writesP g w (fun l =>
    condFp (wMod w % 8) (g.fA w l sign32) (g.fB w l sign32))))

/-- FDIV (R433). -/
def execFdiv (lc : Fin 16) (slot : Fin 64) (s : State) : Done :=
  .next (s.issue lc slot [0x2F] (fun s g w => s.fp2 g w (fDiv fp32 (wRound w))))

/-- MUFU: the function SUB[11:8] of A, correctly rounded (R436). -/
def execMufu (lc : Fin 16) (slot : Fin 64) (s : State) : Done :=
  .next (s.issue lc slot [0x30] (fun s g w => s.writesD g w (fun l => mufu (bits (wSub w) 8 4) (g.fA w l sign32))))

/-- An operation on each 16-bit half. -/
def onHalves (f : Nat → Nat → Nat → Nat) (a b c : Nat) : Nat :=
  f (a % 65536) (b % 65536) (c % 65536) + 65536 * f (a / 65536) (b / 65536) (c / 65536)

/-- The format of a pair of halves by MOD[0]. -/
def halfFmt (w : Nat) : FFmt := if bit (wMod w) 0 then bf16 else fp16

/-- An operation on each half of A, B and C. -/
def State.halves (s : State) (g : Group) (w : Nat) (f : Nat → Nat → Nat → Nat) : State :=
  s.writesD g w (fun l => onHalves f (g.fA w l signHalves) (g.fB w l signHalves) (g.fC w l signHalves))

/-- HADD2 (R433). -/
def execHadd2 (lc : Fin 16) (slot : Fin 64) (s : State) : Done :=
  .next (s.issue lc slot [0x31] (fun s g w => s.halves g w (fun a b _ => fAdd (halfFmt w) 0 a b)))

/-- HMUL2 (R433). -/
def execHmul2 (lc : Fin 16) (slot : Fin 64) (s : State) : Done :=
  .next (s.issue lc slot [0x32] (fun s g w => s.halves g w (fun a b _ => fMul (halfFmt w) 0 a b)))

/-- HFMA2, one rounding in each half (R433). -/
def execHfma2 (lc : Fin 16) (slot : Fin 64) (s : State) : Done :=
  .next (s.issue lc slot [0x33] (fun s g w => s.halves g w (fFma (halfFmt w) 0)))

/-- FMULI: D = A × IMM (R433). -/
def execFmuli (lc : Fin 16) (slot : Fin 64) (s : State) : Done :=
  .next (s.issue lc slot [0x34] (fun s g w => s.writesD g w (fun l => fMul fp32 (wRound w) (g.reg l (wA w)) (wImm w))))

/-- FADDI: D = A + IMM (R433). -/
def execFaddi (lc : Fin 16) (slot : Fin 64) (s : State) : Done :=
  .next (s.issue lc slot [0x35] (fun s g w => s.writesD g w (fun l => fAdd fp32 (wRound w) (g.reg l (wA w)) (wImm w))))

/-- F2I: FP32 to an integer; NaN gives 0 and a value beyond the range its nearest end (R438). -/
def execF2i (lc : Fin 16) (slot : Fin 64) (s : State) : Done :=
  .next (s.issue lc slot [0x40] (fun s g w => s.writesD g w (fun l => f2i (wRound w) (bit (wMod w) 3) (g.reg l (wA w)))))

/-- I2F: an integer to FP32 (R438). -/
def execI2f (lc : Fin 16) (slot : Fin 64) (s : State) : Done :=
  .next (s.issue lc slot [0x41] (fun s g w => s.writesD g w (fun l =>
    let a := g.reg l (wA w)
    fOfInt (wRound w) (if bit (wMod w) 3 then (a : Int) else signed 32 a))))

/-- F2F: FP32 A converted and written into an element lane of D, whose other bits are kept (R437). -/
def execF2f (lc : Fin 16) (slot : Fin 64) (s : State) : Done :=
  .next (s.issue lc slot [0x42] (fun s g w => s.writesD g w (fun l =>
    let (f, sat) := convFmt w
    let (lo, n) := convLane w
    let d := g.reg l (wD w)
    let x := convF f (wRound w) sat (decF fp32 (g.reg l (wA w)))
    d - bits d lo n * 2 ^ lo + x * 2 ^ lo)))

/-- X2F: an element lane of A converted to FP32 exactly (R437). -/
def execX2f (lc : Fin 16) (slot : Fin 64) (s : State) : Done :=
  .next (s.issue lc slot [0x43] (fun s g w => s.writesD g w (fun l =>
    let (lo, n) := convLane w
    convF fp32 0 false (decF (convFmt w).1 (bits (g.reg l (wA w)) lo n)))))

end Sys2Proof.Machine
end

