-- ==== Sys2Proof/Machine/ManagementCommands.lean ====
section
/-! DEFINITION. Meanings of firmware, mailbox, keys, lifecycle, log and control loops ("Management Subsystem and Monitor"), one definition for each command. -/

namespace Sys2Proof.Machine

/-- R699. A guarded LCY_REQ write is checked against Table 176 and is accepted or refused. -/
def execLifecycleRequest (m : Master) (v : Word) (s : State) : Done :=
  .next (s.hostWrite m.val 0x0A014 4 v.toNat)

/-- R699. The fuse change ends and the LIFECYCLE reset follows. -/
def execLifecycleCommit (s : State) : Done :=
  .next s.lcyCommit

/-- R675. The 1 s management watchdog expires and restarts the processor from its boot ROM. -/
def execMgtWatchdog (s : State) : Done :=
  .next s.mgtRestart

/-- R682. The boot code chooses, verifies and starts a firmware slot from the boot records. -/
def execFirmwareBoot (s : State) : Done :=
  .next s.firmwareBoot

/-- R684. Trial firmware that has not confirmed within 2 s causes a WARM reset. -/
def execTrialTimeout (s : State) : Done :=
  .next s.trialLost

/-- R684. Trial firmware writes its confirming record, and the SVN counter is raised. -/
def execTrialConfirm (s : State) : Done :=
  .next s.trialDone

/-- R685. The mailbox command checks an image and writes it into the slot that is not running. -/
def execFwUpdate (m : Master) (r : ReadOutcome) (flashOk : Bool) (s : State) : Done :=
  .next (s.hostWriteBy m.val 0x40000 4 1 (fun _ s => s.mbCommand 1 r flashOk))

/-- R686. The mailbox command appends a TRY record and performs a WARM reset, or ends NOT_STAGED. -/
def execFwActivate (m : Master) (s : State) : Done :=
  .next (s.hostWriteBy m.val 0x40000 4 2 (fun _ s => s.mbCommand 2 .ok true))

/-- R709. The mailbox command copies committed log entries to memory. -/
def execLogCopy (m : Master) (r : ReadOutcome) (s : State) : Done :=
  .next (s.hostWriteBy m.val 0x40000 4 3 (fun _ s => s.mbCommand 3 r true))

/-- R709. A mailbox command ends: BUSY clears, DONE sets with RESULT, and INT_MGMT is raised. -/
def execMailboxDone (s : State) : Done :=
  .next s.mailDone

/-- R700. The key command installs a development public key in an EMPTY slot. -/
def execInstallDev (m : Master) (slot : Fin 4) (s : State) : Done :=
  .next (s.hostWrite m.val 0x4002C 4 (0x10 + slot.val))

/-- R700. The key command installs a production public key in an EMPTY slot. -/
def execInstallProd (m : Master) (slot : Fin 4) (s : State) : Done :=
  .next (s.hostWrite m.val 0x4002C 4 (0x20 + slot.val))

/-- R700. The key command makes a slot REVOKED, unless refused. -/
def execRevoke (m : Master) (slot : Fin 4) (s : State) : Done :=
  .next (s.hostWrite m.val 0x4002C 4 (0x30 + slot.val))

/-- R700. A key command ends with its result and sets KEY_DONE. -/
def execKeyCommandDone (s : State) : Done :=
  .next s.keyDone

/-- R688. A buffered log entry is programmed to flash, with sector erase ahead of the cursor. -/
def execLogProgram (ok : Bool) (s : State) : Done :=
  .next (s.logProgram ok)

/-- R693. Every 1 ms the thermal loop moves each domain's thermal limit by one OP as its hottest sensor requires. -/
def execThermalLoopTick (temps : List (BitVec 16)) (s : State) : Done :=
  .next (s.thermalTick temps)

/-- R694. A sensor reaching TRIP starts a change of every domain to OP5 and asserts THERM_ALERT. -/
def execThermalTrip (sensor : Fin 24) (temp : BitVec 16) (s : State) : Done :=
  .next (s.tripped sensor.val temp)

/-- R694. After 100 ms below LIMIT − 5 °C the trip ends and THERM_ALERT falls. -/
def execThermalTripEnd (s : State) : Done :=
  .next s.tripEnd

/-- R695. The power-cap loop lowers or raises array and traversal-group limits by one OP. -/
def execPowerCapTick (mw : Nat) (s : State) : Done :=
  .next (s.capTick mw)

/-- R696. After 10 s without a dip the brown-out limit rises by one OP. -/
def execBrownoutRecover (dom : Fin 30) (s : State) : Done :=
  .next (s.brownRecover dom.val)

/-- R701. Every PERIOD_MS the telemetry record is sent to each subscribed peer. -/
def execTelemetryPush (s : State) : Done :=
  .next s.telemPush

end Sys2Proof.Machine
end

