-- ==== Sys2Proof/Machine/MatrixCommands.lean ====
section
/-! DEFINITION. Meanings of the events of the matrix arrays ("Matrix Arrays and Weight Store"), one definition for each command. -/

namespace Sys2Proof.Machine

/-- R345. A batch of VB vectors is given to the array group that is free first. -/
def execMatmulBatchAssign (d : Nat) (stage : Nat) (arr : Fin 2) (s : State) : Done :=
  .next (s.matmulAssign d stage arr.val)

/-- R314. A quadrant tile finishes loading into a quadrant's idle weight half. -/
def execWeightHalfLoaded (arr : Fin 2) (q : Fin 4) (kslice : Nat) (nblk : Nat) (r : ReadOutcome) (s : State) : Done :=
  .next (s.weightLoaded arr q.val kslice nblk r)

/-- R315. A SWAP step exchanges a quadrant's active and idle halves once the idle half has finished loading. -/
def execSwap (arr : Fin 2) (q : Fin 4) (s : State) : Done :=
  .next (s.swapHalves arr.val q.val)

/-- R316. A quadrant applies one quadrant tile to a run of vectors and accumulates each slice sum into the accumulator
store. -/
def execTileStep (arr : Fin 2) (q : Fin 4) (first : Nat) (count : Nat) (bad : List Nat) (s : State) : Done :=
  .next (s.tileStep arr.val q.val first count bad)

/-- R352. The post-unit scales, biases, activates and converts a finished N-block and writes the output tiles. -/
def execPostUnit (arr : Fin 2) (nblk : Nat) (r : ReadOutcome) (s : State) : Done :=
  .next (s.postUnit arr nblk r)

end Sys2Proof.Machine
end

