-- ==== Sys2Proof/Machine/Monitor.lean ====
section
/-! DEFINITION. The Sorrel monitor: its lines, the access rules of Table 179 and the commands of Table 178 ("Management Subsystem and
Monitor", R702–R708). -/

namespace Sys2Proof.Machine

/-! ### Lines -/

/-- The bytes of an ASCII text. -/
def ascii (t : String) : List Byte := t.toList.map (fun c => BitVec.ofNat 8 c.toNat)

/-- A digit as an uppercase hexadecimal character. -/
def hexDigit (d : Nat) : Byte := BitVec.ofNat 8 (if d < 10 then 48 + d else 55 + d)

/-- A number as `n` hexadecimal digits, the most significant first. -/
def hexText (n v : Nat) : List Byte := (List.range n).map (fun i => hexDigit (v / 16 ^ (n - 1 - i) % 16))

/-- A response line: its text, a space, an asterisk, the CRC-16 of the text, CR LF (R703). -/
def monText (t : List Byte) : List Byte := t ++ ascii " *" ++ hexText 4 (crc16 t) ++ [13, 10]

/-- The errors of Table 179. -/
inductive MonErr
  | syntax_ | denied | notOwner | range | busy | auth
deriving DecidableEq, Repr

/-- The text of an error's final line. -/
def MonErr.text : MonErr → List Byte
  | .syntax_ => ascii "ERR SYNTAX"
  | .denied => ascii "ERR DENIED"
  | .notOwner => ascii "ERR NOT_OWNER"
  | .range => ascii "ERR RANGE"
  | .busy => ascii "ERR BUSY"
  | .auth => ascii "ERR AUTH"

/-- The final line of a response; after input was discarded it is ERR OVERRUN (R704). -/
def State.monFinal (s : State) (t : List Byte) : State :=
  if s.mgmt.overrun then
    State.emit { s with mgmt := { s.mgmt with overrun := false } } (.uart (monText (ascii "ERR OVERRUN")))
  else s.emit (.uart (monText t))

/-- A command ends with OK. -/
def State.monOk (s : State) : State := s.monFinal (ascii "OK")

/-- A command is answered with an error. -/
def State.monFail (s : State) (e : MonErr) : State := s.monFinal e.text

/-- A data line that gives a value under a key: the manual gives its text no form. -/
def State.monItem (s : State) (key value : Nat) : State := s.emit (.monData key value)

/-! ### Access (Table 179) -/

/-- The kinds of command. -/
inductive MonKind
  | basic | read | write | auth
deriving DecidableEq, Repr

/-- Whether the lifecycle and the unlock allow a command: `basic` are stat, log, sens and help. -/
def State.monAllows (s : State) (k : MonKind) : Bool :=
  match k with
  | .basic => true
  | .read => s.mgmt.lifecycle != 3
  | .write => decide (s.mgmt.lifecycle ≤ 1) || (s.mgmt.lifecycle == 2 && s.mgmt.auth)
  | .auth => s.mgmt.lifecycle != 3

/-- Whether the management subsystem restarts or changes fuses.  A restart that found no valid slot has ended: the monitor runs from the boot
ROM (R682). -/
def State.monBusy (s : State) : Bool := (s.mgmt.down && s.mgmt.running.isSome) || s.mgmt.lcyTarget.isSome || s.mgmt.keyOp.isSome

/-- The checks of a command, in the order BUSY, DENIED, NOT_OWNER, RANGE, then its action.  `rom` holds of stat and help, which the boot
ROM offers when no firmware runs. -/
def State.monRun (s : State) (k : MonKind) (rom owner inRange : Bool) (act : State → State) : State :=
  if s.monBusy then s.monFail .busy
  else if (s.mgmt.running.isNone && !rom) || !s.monAllows k then s.monFail .denied
  else if owner && !s.isOwner s.integ.monMaster then s.monFail .notOwner
  else if !inRange then s.monFail .range
  else act s

/-- A write of the monitor on the register port, logged as MON with its command code (R706). -/
def State.monWrite (s : State) (code a v : Nat) : State :=
  let s := s.note 17 (leBytes 1 code ++ leBytes 1 s.integ.monMaster ++ [255, 255] ++ leBytes 4 a ++ leBytes 4 v)
  s.hostWrite s.integ.monMaster a 4 v

/-! ### Commands (Table 178) -/

/-- peek: one data line a word. -/
def State.monPeekN (s : State) (a : Nat) : Nat → State
  | 0 => s
  | n + 1 =>
    let v := s.portRead a
    ((s.readEffect s.integ.monMaster a).monItem a v).monPeekN (a + 4) n

def State.monPeek (s : State) (addr n : Nat) : State :=
  let a := addr / 4 * 4
  s.monRun .read false false (decide (1 ≤ n ∧ n ≤ 64 ∧ a + 4 * n ≤ 2 ^ 20)) (fun s => (s.monPeekN a n).monOk)

/-- poke. -/
def State.monPoke (s : State) (addr v : Nat) : State :=
  s.monRun .write false true true (fun s => (s.monWrite 0 addr v).monOk)

/-- stat: lifecycle, owner, OPs, loop limits, fences, running firmware. -/
def State.monStat (s : State) : State :=
  s.monRun .basic true false true (fun s =>
    let fenced := EUnit.all.filter s.fenced
    let items := [(0, s.mgmt.lifecycle), (1, if s.flag F.ownStatusOwned then 1 + s.get F.ownStatusOwnerId else 0)] ++
      (List.range 11).map (fun k => (16 + k, s.opOf k)) ++ (List.range 11).map (fun k => (32 + k, s.loopLimit k)) ++
      fenced.map (fun u => (2, unitCode u)) ++
      (match s.mgmt.running with | some i => [(3, i), (4, s.mgmt.version), (5, s.mgmt.svn)] | none => [])
    (items.foldl (fun s e => s.monItem e.1 e.2) s).monOk)

/-- log: the last `n` committed entries, one line each. -/
def State.monLog (s : State) (n : Nat) : State :=
  s.monRun .basic false false (decide (1 ≤ n ∧ n ≤ 1024)) (fun s =>
    let l := s.logEntries
    ((l.drop (l.length - n)).foldl (fun s e => s.monItem e.1 (leVal e.2)) s).monOk)

/-- sens: every sensor, supply and the power estimate. -/
def State.monSens (s : State) : State :=
  s.monRun .basic false false true (fun s =>
    let as := (List.range 24).map (fun i => 0x4C000 + 4 * i) ++ (List.range 30).map (fun d => 0x4C080 + 4 * d) ++ [0x4C100]
    (as.foldl (fun s a => s.monItem a (s.readWord a)) s).monOk)

/-- fence, fence return: KEY_UNLOCK, RAS_FENCE, and RESULT as it then stands. -/
def State.monFence (s : State) (op kind index : Nat) : State :=
  s.monRun .write false true (decide (kind < 16 ∧ index < 64)) (fun s =>
    let s := (s.hostWrite s.integ.monMaster 0x10 4 0x5A17C0DE).monWrite 1 0x0C020 (0xFFFF8000 + 4096 * op + 256 * kind + index)
    (s.monItem 0x0C024 (s.get F.rasFenceStatus)).monOk)

/-- trace on, trace off. -/
def State.monTrace (s : State) (on : Bool) : State :=
  s.monRun .read false false true (fun s => State.monOk { s with mgmt := { s.mgmt with trace := on } })

/-- own: the owner. -/
def State.monOwn (s : State) : State :=
  s.monRun .read false false true (fun s => (s.monItem 0x01000 (s.readWord 0x01000)).monOk)

/-- own claim, own release, own hb: a write to one of the ownership registers. -/
def State.monOwnWrite (s : State) (owner : Bool) (a v : Nat) : State :=
  s.monRun .write false owner true (fun s => (s.monWrite 3 a v).monOk)

/-- own auth: a fresh nonce (R708). -/
def State.monAuth (s : State) : State :=
  s.monRun .auth false false true (fun s =>
    let (n, s) := s.draw
    let nonce := leBytes 16 (Config.freeValue n).toNat
    let s : State := { s with mgmt := { s.mgmt with nonce := some nonce } }
    (s.emit (.uart (monText (ascii "CHAL " ++ nonce.flatMap (fun b => hexText 2 b.toNat))))).monOk)

/-- own auth sig: the signature over KTMON, the serial and the nonce; a nonce answers one attempt (R708). -/
def State.monAuthSig (s : State) (sig : List Byte) : State :=
  if sig.length ≠ 64 then s.monFail .syntax_
  else
    s.monRun .auth false false true (fun s =>
      let nonce := s.mgmt.nonce
      let s : State := { s with mgmt := { s.mgmt with nonce := none } }
      match nonce with
      | some n =>
        if ed25519 (Config.romKey 2) (ascii "KTMON" ++ leBytes 8 s.integ.serial ++ n) sig then
          State.monOk { s with mgmt := { s.mgmt with auth := true } }
        else s.monFail .auth
      | none => s.monFail .auth)

/-- own lock. -/
def State.monLock (s : State) : State :=
  s.monRun .auth false false true (fun s => State.monOk { s with mgmt := { s.mgmt with auth := false, nonce := none } })

/-- op. -/
def State.monOp (s : State) (n : Nat) : State :=
  s.monRun .write false true true (fun s => (s.monWrite 2 0x08000 n).monOk)

/-- help: the commands allowed now, by their place in Table 178 (own auth and its forms stand as 20). -/
def State.monHelp (s : State) : State :=
  s.monRun .basic true false true (fun s =>
    let basic := if s.mgmt.running.isSome then [2, 3, 4, 10] else [2, 10]
    let more := if s.mgmt.running.isNone then [] else
      (if s.monAllows .read then [0, 6, 7] else []) ++ (if s.monAllows .write then [1, 5, 8, 9] else []) ++ (if s.monAllows .auth then [20] else [])
    ((basic ++ more).foldl (fun s i => s.monItem i 1) s).monOk)

/-! ### Input lines (R703, R704) -/

/-- The tokens of a line. -/
def tokens (l : List Byte) : List (List Byte) :=
  (l.foldr (fun (b : Byte) (acc : List (List Byte)) =>
    if b = 32 then [] :: acc
    else match acc with
      | t :: rest => (b :: t) :: rest
      | [] => [[b]]) [[]]).filter (fun t => !t.isEmpty)

/-- Whether a token is a number: hexadecimal with 0x, or decimal. -/
def isNumber (t : List Byte) : Bool :=
  let dec := fun (b : Byte) => decide (48 ≤ b.toNat ∧ b.toNat ≤ 57)
  let hex := fun (b : Byte) => dec b || decide (65 ≤ b.toNat ∧ b.toNat ≤ 70) || decide (97 ≤ b.toNat ∧ b.toNat ≤ 102)
  match t with
  | [] => false
  | [b] => dec b
  | b :: c :: rest => if b = 48 ∧ (c = 120 ∨ c = 88) then !rest.isEmpty && rest.all hex else t.all dec

/-- Whether a token is 64 B in hexadecimal. -/
def isSignature (t : List Byte) : Bool := t.length == 128 && isNumber (ascii "0x" ++ t)

/-- Whether a line has the form of a command of Table 178. -/
def knownLine (text : List Byte) : Bool :=
  match tokens text with
  | [] => false
  | name :: args =>
    let is := fun (t : String) => name == ascii t
    let arg := fun (t : String) => args == [ascii t]
    let nums := args.all isNumber
    (is "peek" && nums && (args.length == 1 || args.length == 2)) || (is "poke" && nums && args.length == 2) ||
    ((is "stat" || is "sens" || is "help") && args.isEmpty) || (is "log" && nums && args.length ≤ 1) ||
    (is "fence" && ((nums && args.length == 2) ||
      (match args with | r :: rest => r == ascii "return" && rest.all isNumber && rest.length == 2 | [] => false))) ||
    (is "trace" && (arg "on" || arg "off")) || (is "op" && nums && args.length == 1) ||
    (is "own" && (args.isEmpty || arg "claim" || arg "release" || arg "hb" || arg "auth" || arg "lock" ||
      (match args with | [a, g] => a == ascii "auth" && isSignature g | _ => false)))

/-- MON_LINE: a line with what became of it beyond 256 B of held input.  A line that is no command is answered here; a command line is
carried out by its own row. -/
def State.monLine (s : State) (text : List Byte) (lost : Bool) : State :=
  let s : State := if lost then { s with mgmt := { s.mgmt with overrun := true } } else s
  if text.length > 200 ∨ knownLine text = false then s.monFail .syntax_ else s

end Sys2Proof.Machine
end

