-- ==== Sys2Proof/Machine/MonitorCommands.lean ====
section
/-! DEFINITION. Meanings of the commands of the Sorrel monitor (Table 178), one definition for each command. -/

namespace Sys2Proof.Machine

/-- R703. The monitor receives an input line, held up to 256 B, and answers an overrun or a line too long with an error. -/
def execMonLine (text : List Byte) (lost : Bool) (s : State) : Done :=
  .next (s.monLine text lost)

/-- R706. Monitor peek reads up to 64 words. -/
def execMonPeek (addr : BitVec 20) (n : Nat) (s : State) : Done :=
  .next (s.monPeek addr.toNat n)

/-- R706. Monitor poke writes one word as MON_MASTER. -/
def execMonPoke (addr : BitVec 20) (v : Word) (s : State) : Done :=
  .next (s.monPoke addr.toNat v.toNat)

/-- R706. Monitor stat reports lifecycle, owner, OPs, limits, fences and firmware. -/
def execMonStat (s : State) : Done :=
  .next s.monStat

/-- R706. Monitor log prints the last n committed entries. -/
def execMonLog (n : Nat) (s : State) : Done :=
  .next (s.monLog n)

/-- R706. Monitor sens prints every sensor, supply and the power estimate. -/
def execMonSens (s : State) : Done :=
  .next s.monSens

/-- R706. Monitor fence writes KEY_UNLOCK and RAS_FENCE and reports RESULT. -/
def execMonFence (kind : Nat) (index : Nat) (s : State) : Done :=
  .next (s.monFence 1 kind index)

/-- R706. Monitor fence return writes KEY_UNLOCK and a RETURN command. -/
def execMonFenceReturn (kind : Nat) (index : Nat) (s : State) : Done :=
  .next (s.monFence 2 kind index)

/-- R706. Monitor trace on prints each log entry as it is written. -/
def execMonTraceOn (s : State) : Done :=
  .next (s.monTrace true)

/-- R706. Monitor trace off stops the tracing of log entries. -/
def execMonTraceOff (s : State) : Done :=
  .next (s.monTrace false)

/-- R706. Monitor own shows ownership. -/
def execMonOwn (s : State) : Done :=
  .next s.monOwn

/-- R706. Monitor own claim writes OWN_CLAIM as MON_MASTER. -/
def execMonOwnClaim (s : State) : Done :=
  .next (s.monOwnWrite false 0x01004 s.integ.monMaster)

/-- R706. Monitor own release writes OWN_HANDOVER with RELEASE 1. -/
def execMonOwnRelease (s : State) : Done :=
  .next (s.monOwnWrite true 0x01008 4)

/-- R706. Monitor own hb writes OWN_HEARTBEAT. -/
def execMonOwnHb (s : State) : Done :=
  .next (s.monOwnWrite true 0x0100C 0)

/-- R708. Monitor own auth answers CHAL with a fresh nonce. -/
def execMonOwnAuth (s : State) : Done :=
  .next s.monAuth

/-- R708. Monitor own auth sig verifies the signature and unlocks the monitor. -/
def execMonOwnAuthSig (sig : List Byte) (s : State) : Done :=
  .next (s.monAuthSig sig)

/-- R708. Monitor own lock ends the unlock. -/
def execMonOwnLock (s : State) : Done :=
  .next s.monLock

/-- R706. Monitor op writes CP_OP_REQ. -/
def execMonOp (n : Nat) (s : State) : Done :=
  .next (s.monOp n)

/-- R706. Monitor help lists the commands allowed now. -/
def execMonHelp (s : State) : Done :=
  .next s.monHelp

end Sys2Proof.Machine
end

