-- ==== Sys2Proof/Machine/PeerMore.lean ====
section
/-! DEFINITION. Packets by their type, packets of no listed type, and packets that a port discards ("Peer Link and
Multi-Engine Systems", R714, R721). -/

namespace Sys2Proof.Machine

/-- The types of Table 184. -/
def listedType (t : Nat) : Bool :=
  linkType t || decide (0x10 ≤ t ∧ t ≤ 0x15) || t == 0x20 || t == 0x21 || decide (0x30 ≤ t ∧ t ≤ 0x32) || t == 0x40 || decide (0x41 ≤ t ∧ t ≤ 0x44)

/-- A sequenced packet of one type, consumed by `take` at the node it names. -/
def State.receiveTyped (s : State) (p typ : Nat) (k : Packet) (take : State → State) : State :=
  if k.typ.toNat ≠ typ then s else s.receive p k take

/-- PLK_UNKNOWN_TYPE: a good packet of a TYPE not listed is discarded at the port, whatever its DST, and counted (R714). -/
def State.unknownReceived (s : State) (p : Nat) (k : Packet) : State :=
  if listedType k.typ.toNat || !s.plkHears p || s.plkState p != psUp then s
  else
    let s := s.bump (F.plkRxFlits p) (packetFlits k)
    if !packetGood k then s.rxDiscard p true
    else
      let s := s.rxHead p k k.ack.toNat
      if k.seq.toNat ≠ (s.plkPort p).rxSeq then s.rxDiscard p true
      else
        let s := s.modPlkPort p (fun t => { t with rxSeq := (t.rxSeq + 1) % 4096, nakSent := false })
        (s.plkFree p (packetPool k) (packetFlits k)).bump (F.plkDiscards p) 1

/-- PLK_CRC_ERR: a sequenced packet whose CRC fails, or whose SEQ is not the one expected (R721, R722). -/
def State.badPacket (s : State) (p : Nat) (k : Packet) : State :=
  if packetGood k && k.seq.toNat == (s.plkPort p).rxSeq then s else s.receive p k (fun s => s)

end Sys2Proof.Machine
end

