-- ==== Sys2Proof/Machine/PeerCommands.lean ====
section
/-! DEFINITION. Meanings of packets and events of the peer link ("Peer Link and Multi-Engine Systems"), one definition for each command. -/

namespace Sys2Proof.Machine

/-- R716. An enabled port in DOWN sends INIT every 1 ms. -/
def execPlkInitSend (port : Fin 8) (s : State) : Done :=
  .next (s.initSend port.val)

/-- R716. A received INIT records the partner, resets the link state and brings the port to INIT or UP, or to DUP_NODE. -/
def execPlkInit (port : Fin 8) (p : Packet) (s : State) : Done :=
  .next (s.receiveLink port.val 1 p (fun s => s.initReceived port.val p))

/-- R718. A received GOODBYE puts the port in DOWN and replays the partner's items without a fence. -/
def execPlkGoodbye (port : Fin 8) (p : Packet) (s : State) : Done :=
  .next (s.receiveLink port.val 2 p (fun s => s.goodbyeReceived port.val))

/-- R724. A received KEEPALIVE restarts the partner-loss count. -/
def execPlkKeepalive (port : Fin 8) (p : Packet) (s : State) : Done :=
  .next (s.receiveLink port.val 3 p (fun s => s.rxHead port.val p p.ack.toNat))

/-- R721. A received ACK frees covered packets from the replay buffer and returns credits. -/
def execPlkAck (port : Fin 8) (p : Packet) (s : State) : Done :=
  .next (s.receiveLink port.val 4 p (fun s => s.rxHead port.val p p.ack.toNat))

/-- R721. A received NAK resends every packet from the named SEQ; the 16th NAK in a row for one SEQ loses the port. -/
def execPlkNak (port : Fin 8) (p : Packet) (s : State) : Done :=
  .next (s.receiveLink port.val 5 p (fun s => s.nakReceived port.val p))

/-- R731. A received RAY packet is forwarded, or queued as a guest ray and acknowledged. -/
def execPlkRay (port : Fin 8) (p : Packet) (s : State) : Done :=
  .next (s.guestReceived port.val false p)

/-- R734. A received RAY_ACK frees the sender's queue entry. -/
def execPlkRayAck (port : Fin 8) (p : Packet) (s : State) : Done :=
  .next (s.receiveTyped port.val ptRayAck p (fun s => s.ackArrives p))

/-- R734. A received HIT is appended at the origin as the TRAVERSE output, or discarded as a duplicate. -/
def execPlkHit (port : Fin 8) (p : Packet) (s : State) : Done :=
  .next (s.receiveTyped port.val ptHit p (fun s => s.recordArrives false p.arg.toNat p.payload))

/-- R731. A received QUERY packet is forwarded, or queued as a guest query and acknowledged. -/
def execPlkQuery (port : Fin 8) (p : Packet) (s : State) : Done :=
  .next (s.guestReceived port.val true p)

/-- R733. A received QRES delivers a query's result at the origin. -/
def execPlkQres (port : Fin 8) (p : Packet) (s : State) : Done :=
  .next (s.receiveTyped port.val ptQres p (fun s => s.recordArrives true p.arg.toNat p.payload))

/-- R735. A received UNREACHABLE ends the refused item with FAIL_LINK, or ends a window read. -/
def execPlkUnreachable (port : Fin 8) (p : Packet) (s : State) : Done :=
  .next (s.receiveTyped port.val ptUnreachable p (fun s => s.unreachableArrives p))

/-- R737. A received RREAD is performed as a service request in the remote slots and answered with RDATA. -/
def execPlkRread (port : Fin 8) (p : Packet) (r : ReadOutcome) (s : State) : Done :=
  .next (if s.serveRoom p r then s.receiveTyped port.val ptRread p (fun s => s.serveRead p r) else s)

/-- R737. A received RDATA delivers a remote window read or reports its failure. -/
def execPlkRdata (port : Fin 8) (p : Packet) (s : State) : Done :=
  .next (s.receiveTyped port.val ptRdata p (fun s => s.rdataArrives p))

/-- R743. The multicast source records a request and serves the model's resident tiles, or answers MC_NAK. -/
def execPlkMcReq (port : Fin 8) (p : Packet) (s : State) : Done :=
  .next (s.receiveTyped port.val ptMcReq p (fun s => s.mcReq p))

/-- R744. A member writes a received multicast tile part into its Weight Store place. -/
def execPlkMcTile (port : Fin 8) (p : Packet) (s : State) : Done :=
  .next (s.receiveTyped port.val ptMcTile p (fun s => s.mcTile p))

/-- R744. A member fetches the tiles it lacks itself. -/
def execPlkMcNak (port : Fin 8) (p : Packet) (s : State) : Done :=
  .next (s.receiveTyped port.val ptMcNak p (fun s => s.mcFetch (p.arg.toNat / 2 ^ 32 % 65536)))

/-- R746. A received EVENT fires standing-schedule entries and is a PEER wake source. -/
def execPlkEvent (port : Fin 8) (p : Packet) (s : State) : Done :=
  .next (s.receiveTyped port.val ptEvent p (fun s => s.eventArrives p))

/-- R701. A received TELEM_REQ is answered with TELEM within 1 ms. -/
def execPlkTelemReq (port : Fin 8) (p : Packet) (s : State) : Done :=
  .next (s.receiveTyped port.val 0x41 p (fun s => s.telemAsked p))

/-- R747. A telemetry record from a peer is received. -/
def execPlkTelem (port : Fin 8) (p : Packet) (s : State) : Done :=
  .next (s.receiveTyped port.val ptTelem p (fun s => s))

/-- R747. A peer subscribes or unsubscribes, and a subscription beyond 8 is counted. -/
def execPlkSubscribe (port : Fin 8) (p : Packet) (s : State) : Done :=
  .next (s.receiveTyped port.val 0x43 p (fun s => s.subscribe p))

/-- R739. A received NODE_LOST marks the named node lost and replays or ends the items that depend on it. -/
def execPlkNodeLost (port : Fin 8) (p : Packet) (s : State) : Done :=
  .next (s.receiveTyped port.val ptNodeLost p (fun s => s.lossNotice p))

/-- R714. A packet of an unlisted TYPE is discarded and counted in PLK_DISCARDS. -/
def execPlkUnknownType (port : Fin 8) (p : Packet) (s : State) : Done :=
  .next (s.unknownReceived port.val p)

/-- R719. A port that has sent no head flit for 64 clocks sends an ACK. -/
def execPlkAckTimer (port : Fin 8) (s : State) : Done :=
  .next (s.ackTimer port.val)

/-- R724. An UP port sends KEEPALIVE every 2,048 clocks. -/
def execPlkKeepaliveSend (port : Fin 8) (s : State) : Done :=
  .next (s.keepaliveSend port.val)

/-- R739. 8,192 clocks without a KEEPALIVE declare the partner lost, fence the port and send NODE_LOST. -/
def execPartnerLost (port : Fin 8) (s : State) : Done :=
  .next (s.partnerGone port.val)

/-- R746. A write to PLK_EVT_SEND sends an EVENT packet to one node or to every routed node. -/
def execPlkEvtSend (m : Master) (v : Word) (s : State) : Done :=
  .next (s.hostWrite m.val 0x44040 4 v.toNat)

/-- R744. No MC_TILE arrives for MC_TIMEOUT µs, and the member fetches the tiles it lacks. -/
def execMcTimeout (model : Nat) (s : State) : Done :=
  .next (s.mcFetch model)

/-- R762. PLp_LANE_UP changes, enabling or stopping the sending of flits on the port. -/
def execLaneUpChange (port : Fin 8) (up : Bool) (s : State) : Done :=
  .next (s.laneChange port.val up)

/-- R721. A received sequenced packet whose CRC fails or whose SEQ is not the one expected is discarded with every
later packet until the expected SEQ arrives, one NAK is sent, and PLK_CRC_ERR and a CORR fault are counted. -/
def execPlkCrcErr (port : Fin 8) (p : Packet) (s : State) : Done :=
  .next (s.badPacket port.val p)

end Sys2Proof.Machine
end

