-- ==== Sys2Proof/Machine/PowerCommands.lean ====
section
/-! DEFINITION. Meanings of operating points, power domains, low power, resets, wipes and supplies ("Reset, Power and Clocks"), one definition for each command. -/

namespace Sys2Proof.Machine

/-- R607. A write to CP_OP_REQ begins an operating-point change of the domains whose target moves. -/
def execOpRequest (m : Master) (v : Word) (s : State) : Done :=
  .next (s.hostWrite m.val 0x08000 4 v.toNat)

/-- R611. A guarded write to CP_OP_OVR sets or removes the override of the owner's and thermal OP. -/
def execOpOverride (m : Master) (v : Word) (s : State) : Done :=
  .next (s.hostWrite m.val 0x08004 4 v.toNat)

/-- R756. The supply acknowledges a voltage request, and the domain's clock switch proceeds. -/
def execVackToggle (rail : Fin 11) (s : State) : Done :=
  .next (s.vack rail.val)

/-- R609. A domain's clock switch completes, and the change sequence moves to the next domain. -/
def execClockSwitchDone (dom : Fin 11) (s : State) : Done :=
  .next (s.clockSwitched dom.val)

/-- R606. A domain turned on at an epoch finishes its wipe, and its units enter service. -/
def execDomainInService (dom : Fin 30) (s : State) : Done :=
  .next (s.domainUp dom.val)

/-- R619. REQ = NAP requests entry to NAP and holds class 1 to 3 dispatches. -/
def execLpReqNap (m : Master) (w : Word) (s : State) : Done :=
  .next (s.hostWrite m.val 0x08020 4 (0x00030001 ||| (w &&& 0x00700070)).toNat)

/-- R619. REQ = SLEEP requests entry to SLEEP and holds class 1 to 3 dispatches. -/
def execLpReqSleep (m : Master) (w : Word) (s : State) : Done :=
  .next (s.hostWrite m.val 0x08020 4 (0x00030002 ||| (w &&& 0x00700070)).toNat)

/-- R619. REQ = RUN cancels a pending entry or wakes the engine. -/
def execLpReqRun (m : Master) (w : Word) (s : State) : Done :=
  .next (s.hostWrite m.val 0x08020 4 (0x00030000 ||| (w &&& 0x00700070)).toNat)

/-- R619. At the first qualifying engine epoch the engine applies pending writes and enters the requested low-power state. -/
def execLpEntry (s : State) : Done :=
  .next s.lpEntry

/-- R622. An enabled wake source wakes the engine from NAP or SLEEP and records LAST_WAKE. -/
def execWake (src : WakeSource) (s : State) : Done :=
  .next (s.wakeBy src)

/-- R623. The wake ends, wiped memories are ready, and the waking event is acted on. -/
def execWakeComplete (s : State) : Done :=
  if s.get F.cpLpStatusState = lpWaking then .next (s.woken s.fetchesOwn).mcBegin else .next s

/-- R614. SOFT stops new requests and flits, drains memory and resets every domain except PD_AON and PD_MGT. -/
def execSoftReset (m : Master) (w : Word) (s : State) : Done :=
  .next (s.hostWrite m.val 0x0A000 4 (0x80008000 ||| (w &&& 0x3FFF3FFF)).toNat)

/-- R612. A WARM reset from the owner or the input drains memory and resets every domain. -/
def execWarmReset (src : WarmSource) (w : Word) (s : State) : Done :=
  match src with
  | .owner m => .next (s.hostWrite m.val 0x0A000 4 (0x40004000 ||| (w &&& 0x3FFF3FFF)).toNat)
  | .management => .next (s.warmBegin 4)

/-- R613. Every tagged memory request has completed, PRESENT falls, and the reset proceeds. -/
def execResetDrainDone (s : State) : Done :=
  .next s.drained

/-- R614. The SOFT reset ends, SOFT clears, CAUSE reads SOFT and PRESENT rises. -/
def execSoftResetEnd (s : State) : Done :=
  .next s.softEnd

/-- R616. RST_DOMAIN GO requests a reset of one domain at the next engine epoch, or sets DOM_REJ. -/
def execDomainResetRequest (m : Master) (w : Word) (s : State) : Done :=
  .next (s.hostWrite m.val 0x0A004 4 (0x801F8000 ||| (w &&& 0x1F)).toNat)

/-- R616. The domain's wipe ends, its units return to service, and DOM_DONE sets. -/
def execDomainResetDone (dom : Fin 30) (s : State) : Done :=
  if s.domBusy = some dom.val ∧ (dom.val = 15 ∨ dom.val = 16) then .next (s.domainDone dom.val s.fetchesOwn).mcBegin
  else .next (s.domainDone dom.val s.fetchesOwn)

/-- R754. Assertion of POR_N resets the whole engine, and its release begins the start-up sequence. -/
def execPor (strap : BitVec 12) (s : State) : Done :=
  if s.integ.ok then .next (s.porReset strap.toNat) else .fault .unsupportedIntegration

/-- R754. Assertion of WARM_N starts a WARM reset, and its release begins start-up at step 2. -/
def execWarmInput (strap : BitVec 12) (s : State) : Done :=
  let s : State := { s with strap := strap.toNat }
  if s.integ.ok then .next (s.warmBegin 2) else .fault .unsupportedIntegration

/-- R615. Start-up reaches step 7: the register port opens, PRESENT rises, and INT_OWNER is asserted. -/
def execStartupComplete (failed : List EUnit) (age : List (List (List Nat))) (s : State) : Done :=
  .next (s.started failed age)

/-- R630. A guarded WIPE_CTRL GO schedules a wipe of the named stores at the next engine epoch. -/
def execWipeRequest (m : Master) (w : Word) (s : State) : Done :=
  .next (s.hostWrite m.val 0x0A020 4 (0x803F8000 ||| (w &&& 0x3F)).toNat)

/-- R629. A wipe completes, GO clears, and DONE sets. -/
def execWipeDone (s : State) : Done :=
  match s.wiping with
  | some set => if bit set 1 then .next (s.wipeDone s.fetchesOwn).mcBegin else .next (s.wipeDone s.fetchesOwn)
  | none => .next s

/-- R632. A supply below the warning level puts its domain at half rate and raises a SUPPLY fault. -/
def execSupplyDip (dom : Fin 30) (s : State) : Done :=
  .next (s.dip dom.val)

/-- R633. After 10 µs above the warning level the domain returns to full rate. -/
def execSupplyRecover (dom : Fin 30) (clks : Nat) (s : State) : Done :=
  .next (s.dipOver dom.val clks)

/-- R598. A supplied clock moves to a new frequency within its range, and rates follow it. -/
def execSuppliedClockChange (clk : SuppliedClock) (khz : Nat) (s : State) : Done :=
  .next (s.clockMoved clk khz)

/-- R619. Entry to NAP or SLEEP ends within 5 or 10 µs after its engine epoch, and STATE moves from ENTERING to NAP or
SLEEP. -/
def execLowPowerEntryEnd (s : State) : Done :=
  .next s.lpEntered

end Sys2Proof.Machine
end

