-- ==== Sys2Proof/Machine/RasCommands.lean ====
section
/-! DEFINITION. Meanings of faults, fences, recovery and ageing ("Fault Containment and Ageing"), one definition for each command. -/

namespace Sys2Proof.Machine

/-- R658. The owner's FENCE command fences a unit with the fault sequence and opens a recovery window. -/
def execRasFenceCmd (m : Master) (w : Word) (s : State) : Done :=
  .next (s.hostWrite m.val 0x0C020 4 (0xFFFF9000 ||| (w &&& 0x0F3F)).toNat)

/-- R658. The owner's RETURN command wipes a unit it fenced and returns it to service, or is refused. -/
def execRasReturnCmd (m : Master) (w : Word) (s : State) : Done :=
  .next (s.hostWrite m.val 0x0C020 4 (0xFFFFA000 ||| (w &&& 0x0F3F)).toNat)

/-- R646. A failed check, watchdog expiry or declared loss captures a fault and, if the fault fences, opens the
recovery window. -/
def execFaultDetected (f : FaultCause) (s : State) : Done :=
  .next (s.detect f)

/-- R646. The fenced unit's requests have drained, and the unit leaves service. -/
def execFenceComplete (u : EUnit) (s : State) : Done :=
  .next (s.fenced2 u)

/-- R646. Every item of the fenced unit is held by a peer or has ended, schedules are recomputed, and the recovery hold
begins. -/
def execFullService (u : EUnit) (s : State) : Done :=
  .next (s.serviceFull u)

/-- R662. At the first engine epoch under the recovery hold, writes and bank layouts are applied and the EPOCH_FENCE
record is written. -/
def execRecoveryEpoch (s : State) : Done :=
  .next (s.recover State.atEpoch)

/-- R662. When no epoch comes within LDR_ACT_TIMEOUT, the recovery hold is released and LATE is set. -/
def execRecoveryHoldTimeout (s : State) : Done :=
  .next s.holdLate

/-- R644. A unit that holds work but completes no step for WD_MS raises TIMEOUT and is fenced. -/
def execUnitWatchdog (u : EUnit) (s : State) : Done :=
  .next (s.watchdog u)

/-- R641. The scrub visits store lines and writes back corrected ones. -/
def execScrub (store : Fin 4) (line : Nat) (corrected : Bool) (s : State) : Done :=
  .next (s.scrubLine store.val line corrected)

/-- R666. Every 4 active hours the path-delay monitors are read, and V_ADJ or the ageing cap is raised. -/
def execAgeingInterval (readings : List (List Nat)) (s : State) : Done :=
  .next (s.ageingStep readings)

/-- R671. MEASURE reads every domain's monitors at once, as at an ageing interval. -/
def execAgeMeasure (m : Master) (v : Word) (readings : List (List Nat)) (s : State) : Done :=
  .next (s.hostWriteBy m.val 0x0C094 4 v.toNat (fun _ s => s.ageCommand v.toNat readings))

/-- R658. The wipe of a unit returned by the owner ends within 50 µs, the unit re-enters service, GO clears and RESULT
reads OK. -/
def execReturnedToService (u : EUnit) (s : State) : Done :=
  .next (s.returned u)

end Sys2Proof.Machine
end

