-- ==== Sys2Proof/Machine/RegisterCommands.lean ====
section
/-! DEFINITION. Meanings of accesses on the host register port without a command of their own ("Register Interface and Global Registers"), one definition for each command. -/

namespace Sys2Proof.Machine

/-- R571. A write to a register without a row of its own, checked for size, ownership and guard, takes effect
immediately or when next used. -/
def execRegWrite (m : Master) (addr : BitVec 20) (size : Fin 5) (v : Word) (s : State) : Done :=
  .next (s.hostWrite m.val addr.toNat size.val v.toNat)

/-- R572. A write to a buffered field enters the write buffer, or sets BUF_OVF, and starts the hold of R117. -/
def execBufferedWrite (m : Master) (addr : BitVec 20) (size : Fin 5) (v : Word) (s : State) : Done :=
  .next (s.hostWrite m.val addr.toNat size.val v.toNat)

/-- R13. A read of an RC counter returns its value and clears it. -/
def execRcCounterRead (m : Master) (addr : BitVec 20) (s : State) : Done :=
  .next (s.hostRead m.val addr.toNat)

/-- R581. A write to KEY_UNLOCK opens the guard with the key or closes it and sets KEY_BAD. -/
def execKeyUnlock (m : Master) (v : Word) (s : State) : Done :=
  .next (s.hostWrite m.val 0x00010 4 v.toNat)

/-- R576. DISCARD drops every pending buffered write and ends the hold. -/
def execDiscardPending (m : Master) (w : Word) (s : State) : Done :=
  .next (s.hostWrite m.val 0x00018 4 (0x80008000 ||| (w &&& 0x7FFF7FFF)).toNat)

/-- R578. The background scan checks configuration parity, and a failing register is reset to its reset value and
captured. -/
def execCfgParityScan (addr : BitVec 20) (buffer : Bool) (s : State) : Done :=
  .next (s.parityScan addr.toNat buffer)

/-- R595. CLEAR sets every performance counter and PC_OVF to 0. -/
def execPcClear (m : Master) (w : Word) (s : State) : Done :=
  .next (s.hostWrite m.val 0x48000 4 (0x80008000 ||| (w &&& 0x7FFF7FFF)).toNat)

end Sys2Proof.Machine
end

