-- ==== Sys2Proof/Machine/StreamCommands.lean ====
section
/-! DEFINITION. Meanings of the commands and events of the stream engines ("Stream Engines and Data Movement"), one definition for each command. -/

namespace Sys2Proof.Machine

/-- R462. ARM claims the ACTIVE or SHADOW slot and reads the descriptor, or reports ARM_OVERRUN or NOT_IN_SERVICE. -/
def execSeArm (m : Master) (se : Fin 16) (v : Word) (s : State) : Done :=
  .next (s.hostWrite m.val (0x3000C + 0x400 * se.val) 4 ((v &&& 0x30) ||| 1).toNat)

/-- R463. The armed descriptor read completes and is checked, and the run is taken into a slot or released with
BAD_DESC or DESC_FAULT. -/
def execArmDescRead (se : Fin 16) (r : ReadOutcome) (s : State) : Done :=
  .next (s.armDescRead se r)

/-- R464. ABORT ends the active run with ABORTED after its issued transfers complete. -/
def execSeAbort (m : Master) (se : Fin 16) (v : Word) (s : State) : Done :=
  .next (s.hostWrite m.val (0x3000C + 0x400 * se.val) 4 ((v &&& 0x30) ||| 2).toNat)

/-- R464. CLEAR_SHADOW discards the shadow run without starting it. -/
def execSeClearShadow (m : Master) (se : Fin 16) (v : Word) (s : State) : Done :=
  .next (s.hostWrite m.val (0x3000C + 0x400 * se.val) 4 ((v &&& 0x30) ||| 3).toNat)

/-- R467. A STREAM stage places an item's template run on a qualifying engine of SE_MASK. -/
def execStreamRunPlace (d : Nat) (stage : Nat) (r : ReadOutcome) (s : State) : Done :=
  .next (s.streamPlace d stage r)

/-- R480. A stream engine translates the next elements and issues a transfer of up to 128 sectors. -/
def execStreamTransferIssue (se : Fin 16) (s : State) : Done :=
  .next (s.streamTurn se)

/-- R481. A transfer completes, tiles become visible or are appended, and a run that has delivered its last element ends. -/
def execStreamTransferDone (se : Fin 16) (t : Nat) (s : State) : Done :=
  .next (s.streamDone se t)

/-- R492. A DICT run that waits on an empty ring reads TAIL again every DICT_POLL clocks. -/
def execDictPoll (se : Fin 16) (s : State) : Done :=
  .next (s.dictPoll se)

end Sys2Proof.Machine
end

