-- ==== Sys2Proof/Machine/TraceCommands.lean ====
section
/-! DEFINITION. Meanings of the events of traversal, ray sorting, hit return and spatial queries, one definition for each command. -/

namespace Sys2Proof.Machine

/-- R237. The ray sorter takes a ray or query, checks validity and the descriptor, writes CLASS, computes the sort key
and appends the item to a treelet queue. -/
def execRayIntake (d : Nat) (stage : Nat) (s : State) : Done :=
  .next (s.rayIntake d stage)

/-- R247. A pipeline whose batch is spent is given a batch of up to 256 rays from the best eligible resident queue. -/
def execBatchPick (tc : Fin 32) (p : Fin 4) (s : State) : Done :=
  .next (s.batchPick tc.val p.val)

/-- R193. A pipeline pops a ray's stack entry and tests the node's child boxes, or handles a leaf or instance, pushing
children or ending the ray. -/
def execNodeStep (tc : Fin 32) (p : Fin 4) (ray : Nat) (s : State) : Done :=
  .next (s.nodeStep tc.val p.val ray)

/-- R201. The intersection block tests a ray against one triangle and passes the candidate to hit selection. -/
def execTriangleTest (tc : Fin 32) (ray : Nat) (s : State) : Done :=
  .next (s.triangleTest tc.val ray)

/-- R213. A ray is suspended and its callout record is posted to a lane core of the same group. -/
def execCalloutPost (tc : Fin 32) (ray : Nat) (s : State) : Done :=
  .next (s.calloutPost tc.val ray)

/-- R216. A callout reply arrives, is applied to the suspended ray's candidate, and the ray resumes or ends. -/
def execCalloutReply (tc : Fin 32) (ray : Nat) (s : State) : Done :=
  .next (s.calloutReply tc.val ray)

/-- R225. A neural sample batch closes when BATCH_TIMEOUT traversal clocks have passed since its first sample, and it
is sent to a quadrant or a group matrix unit. -/
def execNeuralBatchTimeout (tg : Fin 8) (batch : Nat) (s : State) : Done :=
  .next (s.neuralTimeout tg.val batch)

/-- R224. The evaluation of a sample batch completes, and each ray finds its bracket, refines it or yields no candidate. -/
def execNeuralBatchDone (tg : Fin 8) (batch : Nat) (r : ReadOutcome) (s : State) : Done :=
  .next (s.neuralDone tg batch r)

/-- R248. The ray sorter fetches the best needed treelet into a free or evicted slot and invalidates that slot's
node-cache lines. -/
def execTreeletFetchIssue (s : State) : Done :=
  .next s.fetchIssue

/-- R251. The last byte of a treelet arrives and the slot becomes RESIDENT. -/
def execTreeletFetchDone (slot : Fin 256) (r : ReadOutcome) (s : State) : Done :=
  .next (s.fetchDone slot r)

/-- R254. When the free RAYQ segments fall below SPILL_LOW, a victim queue segment is spilled to memory. -/
def execSegmentSpill (s : State) : Done :=
  .next s.segSpill

/-- R257. The ray sorter refills a queue's spilled segments in ordinal order, two ahead of use. -/
def execSegmentRefill (q : Nat) (r : ReadOutcome) (s : State) : Done :=
  .next (s.segRefill q r)

/-- R264. The RETURN stage releases a hit record to a channel buffer, in free order or under the order hold of R267. -/
def execHitRelease (d k : Nat) (s : State) : Done :=
  .next (s.hitRelease d k)

/-- R267. A held record becomes releasable when no earlier ticket of its key and dispatch remains, and it is released
to channel K[1:0]. -/
def execOrderHoldRelease (d : Nat) (ch : Fin 4) (s : State) : Done :=
  .next (s.orderHoldRelease d ch.val)

/-- R262. A channel with credit transfers one hit record with its sideband and spends one credit. -/
def execHitTransfer (ch : Fin 4) (s : State) : Done :=
  .next (s.hitTransfer ch.val)

/-- R761. The partner returns one credit on a hit return channel. -/
def execHrCreditReturn (ch : Fin 4) (s : State) : Done :=
  .next (s.hrCreditReturn ch.val)

/-- R285. The key-set descriptor read for the dispatch's first valid query completes and is checked. -/
def execKeysetDescRead (d : Nat) (r : ReadOutcome) (s : State) : Done :=
  .next (s.keysetRead d r)

/-- R290. A query is walked through one key node or one key block, pushing children or inserting keys into its list. -/
def execQueryNodeStep (tc : Fin 32) (p : Fin 4) (q : Nat) (s : State) : Done :=
  .next (s.queryNodeStep tc.val p.val q)

/-- R299. An open gather block closes BLOCK_TIMEOUT clocks after its first query and is appended as a gather tile. -/
def execGatherBlockTimeout (d : Nat) (s : State) : Done :=
  .next (s.gatherTimeout d)

/-- R304. A quadrant finishes scoring a gather tile, and each query's SCORED top-K list and result record are written.
`lost` names the vector reads that failed: 4 · index + 2 for the QVEC of query `index`, 4 · index for the candidate at that position of UNION, 1 more for an uncorrectable error in place of an ABORT. -/
def execScoreBlockDone (d : Nat) (blk : Nat) (quad : Fin 8) (lost : List Nat) (s : State) : Done :=
  .next (s.scoreBlockDone d blk quad lost)

end Sys2Proof.Machine
end

