-- ==== Sys2Proof/Machine/TranslationCommands.lean ====
section
/-! DEFINITION. Meanings of the events of the memory ports and of translation, and the answers to page faults, one definition for each command. -/

namespace Sys2Proof.Machine

/-- R473. A memory port issues one 64-byte request in a slot of the matching class while holding a tag. -/
def execMemRequestIssue (mp : Fin 16) (pos : Fin 8) (s : State) : Done :=
  .next (s.memIssue mp pos.val)

/-- R758. A KMP response frees its tag and delivers data, or reports POISON or ERROR as UNC_DATA; a stray tag is counted. -/
def execMemResponse (mp : Fin 16) (tag : Fin 2048) (status : Fin 4) (s : State) : Done :=
  .next (s.memResponse mp tag.val status.val)

/-- R645. A request that has held a tag for 100 µs raises TIMEOUT, and its memory port is fenced. -/
def execMemRequestTimeout (mp : Fin 16) (tag : Fin 2048) (s : State) : Done :=
  .next (s.memTimeout mp tag.val)

/-- R502. A micro-TLB miss sends a translation request to the IOMMU. -/
def execXlatRequest (req : Fin 64) (page : BitVec 52) (write : Bool) (acc : Access) (s : State) : Done :=
  .next (s.xlatRequest req.val page.toNat write acc)

/-- R500. A translation response fills a micro-TLB entry, is discarded under R509, or reports a fault. -/
def execXlatResponse (id : Fin 64) (resp : XlatResp) (s : State) : Done :=
  .next (s.xlatResponse id resp)

/-- R505. A translation request unanswered for 100 µs is sent once more; the second expiry is treated as a fault with
reason ERROR. -/
def execXlatRequestTimeout (id : Fin 64) (s : State) : Done :=
  .next (s.xlatTimeout id)

/-- R507. An IOMMU invalidation arrives and blocks the micro-TLB entries it overlaps. -/
def execInvalidation (inv : Inval) (s : State) : Done :=
  .next (s.invalidate inv)

/-- R507. When the tagged requests under the blocked entries have completed, those entries and the matching cache lines
are removed and the acknowledgement is sent. -/
def execInvalidationAck (id : Fin 8) (clks : Nat) (s : State) : Done :=
  .next (s.invalAck id clks)

/-- R518. RESUME closes a fault record, and its requesters translate again. -/
def execFaultResume (m : Master) (slot : Fin 16) (s : State) : Done :=
  .next (s.hostWrite m.val (0x38114 + 0x20 * slot.val) 4 1)

/-- R520. ABORT closes a fault record, and each requester ends its faulting access as Table 134 sets. -/
def execFaultAbort (m : Master) (slot : Fin 16) (s : State) : Done :=
  .next (s.hostWrite m.val (0x38114 + 0x20 * slot.val) 4 2)

/-- R521. A record open for TIMEOUT_MS is answered with ABORT by the engine itself. -/
def execFaultRecordTimeout (slot : Fin 16) (s : State) : Done :=
  .next (s.faultTimeout slot)

/-- R526. Every DECAY_MS, all hot-page counts are halved and low entries clear FLAGGED. -/
def execHotDecay (s : State) : Done :=
  .next s.hotDecay

/-- R527. A write of 1 to POP removes the oldest record from the hot FIFO. -/
def execHotPop (m : Master) (v : Word) (s : State) : Done :=
  .next (s.hostWrite m.val 0x38054 4 v.toNat)

end Sys2Proof.Machine
end

