-- ==== Sys2Proof/Machine/Preempt.lean ====
section
/-! DEFINITION. Preemption points of the units, what is kept there, and the return to lower-class work ("Dispatch, Service Classes and
Ownership", R118–R123; save areas, R69). -/

namespace Sys2Proof.Machine

/-! ### Save areas (R69)

The SAVE regions, in index order, are divided into areas of 256 KiB + L, one for each lane core of a preemptible group in ascending core
order.  Row `i` of a register file stands at byte 128·i of the area, and the local store from 256 KiB on (log entry 92). -/

/-- The bytes of a save area. -/
def State.saveBytes (s : State) : Nat :=
  match s.active with
  | some im => saveArea ((saveLocal im.part im.chains im.progs im.travs).getD 0)
  | none => saveArea 0

/-- The number of a lane core among those of preemptible groups. -/
def State.saveIndex (s : State) (lc : Nat) : Nat :=
  match s.active with
  | some im => ((List.range lc).filter (fun l => preemptible ((im.part.tgClass[l / 2]?).getD 0))).length
  | none => 0

/-- The Shared Field address of byte `off` of a lane core's save area. -/
def State.saveAddr (s : State) (lc off : Nat) : Nat := spanAddr (s.regionsOf 6) (s.saveIndex lc * s.saveBytes + off)

/-- The units of 64 KiB that a lane core saves: its register file and its local store. -/
def State.saveUnits (s : State) (lc : Nat) : List Nat :=
  (List.range (4 + localBytes (s.lcore lc).split / 65536)).map (fun u => s.saveAddr lc (65536 * u))

/-- The registers of a group, of `n` registers to a lane, written to its rows. -/
def State.saveRegs (s : State) (g : Group) (row n : Nat) (m : List Host.Cell) : List Host.Cell :=
  (g.regs.filter (fun e => e.1 < 8192 && e.1 % 256 < n)).foldl (fun m e =>
    putBytes m (s.saveAddr g.lc (128 * (row + e.1 % 256)) + 4 * (e.1 / 256)) (leBytes 4 e.2)) m

/-- Register `r` of every lane, as its row holds it. -/
def State.loadRow (s : State) (g : Group) (r : Nat) (regs : List (Nat × Nat)) : List (Nat × Nat) :=
  let a := s.saveAddr g.lc (128 * (g.saveRow + r))
  (dedup ((s.sf.filter (fun c => a ≤ c.1 && c.1 < a + 128)).map (fun c => (c.1 - a) / 4))).foldl (fun m l =>
    sset (fun _ => 0) m (256 * l + r) (leAt s.sf (a + 4 * l) 4)) regs

/-- The groups of classes 1 to 3 that stand on a lane core, by slot, with the first row of each in the save area. -/
def State.toSave (s : State) (lc : Nat) : List (Group × Nat) :=
  let gs := s.groups.filter (fun g => g.lc == lc && g.slot.isSome && !g.saved && g.cls != 0)
  let by' := (List.range 64).flatMap (fun k => gs.filter (fun g => g.slot == some k))
  by'.zip ((List.range by'.length).map (fun i => (by'.take i).foldl (fun n g => n + (s.progOf g.prog).regs) 0))

/-- The registers of the groups and the local store of a lane core are written to its save area, and the writing clears the poison of its
lines (R119, R655). -/
def State.saveCore (s : State) (lc : Nat) (gs : List (Group × Nat)) : State :=
  let units := s.saveUnits lc
  let sf := sclear (fun k => units.any (fun a => a ≤ k && k < a + 65536)) s.sf
  let sf := gs.foldl (fun m e => s.saveRegs e.1 e.2 (s.progOf e.1.prog).regs m) sf
  let sf := (List.range (units.length - 4)).foldl (fun m u => copyBytes (s.lcore lc).store m (65536 * u) (s.saveAddr lc (65536 * (4 + u))) 65536) sf
  let cls := gs.foldl (fun c e => min c e.1.cls) 3
  State.perf { s with sf := sf, sfPoison := s.sfPoison.filter (fun l => !units.any (fun a => a / 65536 == l / 1024)) } 9 (lcUnit lc) (some cls)
    (2 * gs.foldl (fun n e => n + (s.progOf e.1.prog).regs) 0 + 1024 * (units.length - 4))

/-! ### Preemption points (R119) -/

/-- Whether a lane core has come to an instruction boundary: no load, copy or MMA of classes 1 to 3 is outstanding, but for loads and copies
that wait on a page fault. -/
def State.coreStill (s : State) (lc : Fin 16) : Bool :=
  (s.toSave lc.val).all (fun e =>
    (match (s.lcore lc.val).mma with | some m => m.group != e.1.id | none => true) &&
    (e.1.copies.isEmpty && (match e.1.wait with | .load _ => false | _ => true) ||
      s.fwaits.any (fun w => match w.acc with
        | .lane l k _ => l == lc && some k.val == e.1.slot
        | .copy l k _ => l == lc && some k.val == e.1.slot
        | _ => false)))

/-- A group as it is kept: a load that waits on a page fault has not been performed and is issued again on resume. -/
def Group.kept (g : Group) (row : Nat) : Group :=
  let g := { g with saved := true, saveRow := row, regs := [] }
  match g.wait with | .load _ => { g with wait := .none, pc := g.pc - 8 } | _ => g

/-- A lane core saves its lower-class groups. -/
def State.coreSaves (s : State) (lc : Fin 16) : State :=
  let gs := s.toSave lc.val
  if gs.isEmpty then s
  else
    let s := s.saveCore lc.val gs
    let waits := fun (w : FWait) => match w.acc with
      | .lane l k _ => l == lc && gs.any (fun e => e.1.slot == some k.val)
      | _ => false
    { s with
      fwaits := s.fwaits.filter (fun w => !waits w),
      groups := s.groups.map (fun g => match gs.find? (fun e => e.1.id == g.id) with | some e => g.kept e.2 | none => g) }

/-- The rays and queries of classes 1 to 3 in contexts of a cluster are suspended one after another, each with its state lines written to
the spill cache (R192); answers whether all of them are. -/
def State.suspendAll (s : State) (tc : Nat) : List Ray → Bool × State
  | [] => (true, s)
  | r :: rest =>
    let keep := s.stateAccess r true
    match s.spillFails r tc keep, s.spcAccess tc 4 keep with
    | some s, _ => s.suspendAll tc rest
    | none, (false, s) => (false, s)
    | none, (true, s) => (s.modRay r.id (fun r => { r with loc := .batch, pipe := 4, lines := r.stateLines })).suspendAll tc rest

/-- A unit reaches its preemption point and keeps its state (R119): a cluster once its node steps have ended and its contexts are suspended,
a lane core once its loads and copies have completed and its state stands in its save area, a quadrant at once, its accumulator words in
place and the weight halves of lower-class work to be loaded again. -/
def State.preemptPoint (s : State) (u : EUnit) : State :=
  if !s.preempts.any (fun p => p.unit == u && !p.saved) then s
  else
    let there := fun (s : State) => { s with preempts := s.preempts.map (fun p => if p.unit == u then { p with saved := true } else p) }
    match u with
    | .lc i => if s.coreStill i then there (s.coreSaves i) else s
    | .tc i =>
      let c := s.cachesOf i.val
      if !(c.ncMiss.isEmpty && c.spcMiss.isEmpty) then s
      else
        match s.suspendAll i.val (s.rays.filter (fun r => r.tc == i.val && r.loc == .ctx && r.cls != 0)) with
        | (true, s) => there s
        | (false, s) => s
    | .quad i =>
      let low := fun (w : HalfW) => match w.query, w.next with
        | true, _ => true
        | false, some (id, _) => s.clsOfDisp id != some 0
        | false, none => (match s.mbatch w.batch with | some b => s.batchCls b != 0 | none => true)
      let keep := fun (h : Option HalfW) => match h with | some w => if low w then none else h | none => none
      there { s with quads := modifyAt (fun q => { q with half0 := keep q.half0, half1 := keep q.half1 }) i.val s.quads }
    | _ => there s

/-! ### The return to lower-class work (R123) -/

/-- Whether a class 0 stage that includes a unit holds items for it, or a waiting class 0 dispatch names one. -/
def State.zeroWork (s : State) (u : EUnit) : Bool :=
  let names := fun (r : DispRec) => r.cls == 0 && (match s.active.bind (fun i => i.chain r.chain) with | some c => c.hasUnit u | none => false)
  let holds := fun (d : Dispatch) => match s.chainOf d with
    | some c => (List.range c.stages.length).any (fun k => match c.stages[k]? with
      | some t => t.hasUnit u && (s.stageBusy d.id k ||
          (if t.input = 255 then !((d.stages[k]?).map (fun x => x.finished)).getD true else !(d.hq t.input).entries.isEmpty))
      | none => false)
    | none => false
  s.disps.any (fun d => d.rcd.cls == 0 && d.fixedStatus == 0 && (match d.phase with
    | .paramWait => names d.rcd
    | .running => holds d
    | .ended => false)) ||
  s.rays.any (fun r => r.guest.isSome && r.cls == 0 && (match s.rayStage r with | some t => t.hasUnit u | none => false)) ||
  ((s.queue 0).head.toList ++ (s.queue 0).firings.map (fun f => f.rcd)).any names

/-- A group with its registers read back from its save area. -/
def State.restored (s : State) (g : Group) : Group :=
  { g with saved := false, saveRow := 0, regs := (List.range (s.progOf g.prog).regs).foldl (fun m r => s.loadRow g r m) [] }

/-- The first poisoned line in what a saved group reads back: its registers and its frame. -/
def State.savePoison (s : State) (g : Group) : Option Nat :=
  let rows := (List.range (s.progOf g.prog).regs).flatMap (fun r => linesOf (s.saveAddr g.lc (128 * (g.saveRow + r))) 128)
  let frame := (List.range (g.frameLen / 256)).flatMap (fun i => linesOf (s.saveAddr g.lc (0x40000 + g.frame + 256 * i)) 256)
  (rows ++ frame).find? s.sfPoison.contains

/-- A lane core reads its save area back; a group that meets a poisoned line there fails its items in the bank's name (R123, R655). -/
def State.coreBack (s : State) (lc : Nat) : State :=
  let back := s.groups.filter (fun g => g.lc == lc && g.saved)
  match back.head? with
  | none => s
  | some h =>
    let split := (s.progOf h.prog).split
    let store := (List.range (localBytes split / 65536)).foldl (fun m u =>
      copyBytes s.sf m (s.saveAddr lc (65536 * (4 + u))) (65536 * u) 65536) []
    let n := 2 * back.foldl (fun n g => n + (s.progOf g.prog).regs) 0 + localBytes split / 64
    let bad := back.filterMap (fun g => (s.savePoison g).map (fun l => (g, l)))
    let s : State := State.perf { s with
      lcs := modifyAt (fun l => { l with split := split, cache := if l.split = split then l.cache else [], store := store }) lc s.lcs,
      groups := s.groups.map (fun g => if g.lc == lc && g.saved then s.restored g else g) } 9 (lcUnit lc)
      (some (back.foldl (fun c g => min c g.cls) 3)) n
    bad.foldl (fun s e => match s.readPoison (64 * e.2) 64 with
      | (some u, s) => (s.laneLost e.1.id ((lanesOf e.1.live).map (fun l => (l, u)))).groupSettle e.1.id 600
      | (none, s) => s) s

/-- A preempted unit with no class 0 work left restores its state and resumes lower-class work (R123). -/
def State.preemptBack (s : State) (u : EUnit) : State :=
  if s.zeroWork u || !s.preempts.any (fun p => p.unit == u && p.saved) then s
  else
    let s := { s with preempts := s.preempts.filter (fun p => p.unit != u) }
    match u with | .lc i => s.coreBack i.val | _ => s

end Sys2Proof.Machine
end

