-- ==== Sys2Proof/Machine/WorkCommands.lean ====
section
/-! DEFINITION. Meanings of the commands of dispatch, scheduling and ownership ("Dispatch, Service Classes and Ownership"), one definition for each command. -/

namespace Sys2Proof.Machine

/-- R100. The owner advances DQc_TAIL, or the write is ignored and OVERFLOW is set when it would exceed DQc_SIZE. -/
def execDqTailWrite (m : Master) (c : Cls) (v : Word) (s : State) : Done :=
  .next (s.hostWrite m.val (0x0200C + 0x100 * c.val) 4 v.toNat)

/-- R103. ENABLE lets the engine take records from DQc under R102. -/
def execQueueEnable (m : Master) (c : Cls) (s : State) : Done :=
  .next (s.hostWrite m.val (0x02014 + 0x100 * c.val) 4 1)

/-- R103. PAUSE stops the taking of records from DQc while running dispatches continue. -/
def execQueuePause (m : Master) (c : Cls) (s : State) : Done :=
  .next (s.hostWrite m.val (0x02014 + 0x100 * c.val) 4 2)

/-- R103. FLUSH takes every pending record without running it and completes each with status FLUSHED. -/
def execQueueFlush (m : Master) (c : Cls) (s : State) : Done :=
  .next (s.hostWrite m.val (0x02014 + 0x100 * c.val) 4 3)

/-- R101. The read of the record at the head of an enabled queue completes, and the engine keeps the copy, or the queue
pauses on an uncorrectable error. -/
def execDispatchRecordRead (c : Cls) (r : ReadOutcome) (s : State) : Done :=
  .next (s.recordRead c r)

/-- R107. When the conditions of R102 hold, the engine takes the head record, advances DQc_HEAD, assigns SEQ and checks
the record. -/
def execDispatchTake (c : Cls) (s : State) : Done :=
  .next (s.dispatchTake c.val)

/-- R106. The read of the parameter block, and of the acceleration-structure descriptor, completes and the dispatch
starts, or it completes PARAM_FAULT. -/
def execParamBlockRead (d : Nat) (r : ReadOutcome) (desc : ReadOutcome) (s : State) : Done :=
  .next (s.paramRead d r desc)

/-- R108. After the final records of all its items, the completion record is written in SEQ order with DONE_MARK last. -/
def execCompletionWrite (c : Cls) (s : State) : Done :=
  .next (s.complete c)

/-- R587. The owner's read of DONE_LOST_HI while VALID is 1 clears VALID and releases the queue's waiting completion
records. -/
def execDoneLostHiRead (m : Master) (c : Cls) (s : State) : Done :=
  .next (s.hostRead m.val (0x02024 + 0x100 * c.val))

/-- R117. At an engine epoch the pending buffered writes are applied in order, and the hold of R117 ends. -/
def execEngineEpoch (s : State) : Done :=
  .next s.engineEpoch

/-- R117. When no engine epoch comes within LDR_ACT_TIMEOUT, the hold is released and EPOCH_WAIT is set. -/
def execEpochHoldTimeout (s : State) : Done :=
  .next s.holdTimeout

/-- R119. A preempted unit reaches its preemption point, saves its state and begins class 0 work. -/
def execPreemptionPoint (u : EUnit) (s : State) : Done :=
  .next (s.preemptPoint u)

/-- R123. When no class 0 work remains for a preempted unit, it restores its saved state and resumes lower-class work. -/
def execPreemptReturn (u : EUnit) (s : State) : Done :=
  .next (s.preemptBack u)

/-- R760. A frame event at the dispatch port fires the enabled standing-schedule entries that name its number. -/
def execFrameEvent (n : Fin 16) (s : State) : Done :=
  .next (s.frameEvent n.val)

/-- R127. The schedule entry read completes, and the entry is placed in DQc ahead of every record not yet taken. -/
def execSchedEntryPlaced (i : Fin 32) (r : ReadOutcome) (s : State) : Done :=
  .next (s.schedPlaced i r)

/-- R136. A master's claim opens a 256-clock election window when there is no owner; otherwise it has no effect. -/
def execOwnClaim (m : Master) (id : Master) (s : State) : Done :=
  .next (s.hostWrite m.val 0x01004 4 id.val)

/-- R136. At the end of the claim window, ownership goes to the lowest claiming ID and the heartbeat timer starts. -/
def execClaimWindowEnd (s : State) : Done :=
  .next s.claimEnd

/-- R137. With RELEASE 0, ownership passes at once to SUCCESSOR. -/
def execOwnHandover (m : Master) (succ : Master) (s : State) : Done :=
  .next (s.hostWrite m.val 0x01008 4 succ.val)

/-- R137. With RELEASE 1, the owner releases ownership and the engine has no owner. -/
def execOwnRelease (m : Master) (s : State) : Done :=
  .next (s.hostWrite m.val 0x01008 4 4)

/-- R138. The owner's write to OWN_HEARTBEAT restarts the heartbeat timer. -/
def execOwnHeartbeat (m : Master) (v : Word) (s : State) : Done :=
  .next (s.hostWrite m.val 0x0100C 4 v.toNat)

/-- R138. When TIMEOUT_MS passes without a heartbeat, the engine releases ownership and sets TIMED_OUT. -/
def execHeartbeatTimeout (s : State) : Done :=
  .next s.heartbeatLost

end Sys2Proof.Machine
end

