-- ==== Sys2Proof/Machine/Dispatch.lean ====
section
/-! DEFINITION. The one match that gives every command its meaning. -/

namespace Sys2Proof.Machine

open Sys2Proof

/-- The effect of a command on everything but the queue. -/
def exec (i : Instr) (s : State) : Host.Outcome State Fault Refusal :=
  match i with
  | .ldrLoad m => Sys2Proof.Machine.execLdrLoad m s
  | .validationEnd r => Sys2Proof.Machine.execValidationEnd r s
  | .ldrActivate m => Sys2Proof.Machine.execLdrActivate m s
  | .ldrDiscard m => Sys2Proof.Machine.execLdrDiscard m s
  | .imageEpoch => Sys2Proof.Machine.execImageEpoch s
  | .switchingEnd => Sys2Proof.Machine.execSwitchingEnd s
  | .actTimeout => Sys2Proof.Machine.execActTimeout s
  | .dqTailWrite m c v => Sys2Proof.Machine.execDqTailWrite m c v s
  | .queueEnable m c => Sys2Proof.Machine.execQueueEnable m c s
  | .queuePause m c => Sys2Proof.Machine.execQueuePause m c s
  | .queueFlush m c => Sys2Proof.Machine.execQueueFlush m c s
  | .dispatchRecordRead c r => Sys2Proof.Machine.execDispatchRecordRead c r s
  | .dispatchTake c => Sys2Proof.Machine.execDispatchTake c s
  | .paramBlockRead d r desc => Sys2Proof.Machine.execParamBlockRead d r desc s
  | .completionWrite c => Sys2Proof.Machine.execCompletionWrite c s
  | .doneLostHiRead m c => Sys2Proof.Machine.execDoneLostHiRead m c s
  | .engineEpoch => Sys2Proof.Machine.execEngineEpoch s
  | .epochHoldTimeout => Sys2Proof.Machine.execEpochHoldTimeout s
  | .preemptionPoint u => Sys2Proof.Machine.execPreemptionPoint u s
  | .preemptReturn u => Sys2Proof.Machine.execPreemptReturn u s
  | .frameEvent n => Sys2Proof.Machine.execFrameEvent n s
  | .schedEntryPlaced n r => Sys2Proof.Machine.execSchedEntryPlaced n r s
  | .ownClaim m id => Sys2Proof.Machine.execOwnClaim m id s
  | .claimWindowEnd => Sys2Proof.Machine.execClaimWindowEnd s
  | .ownHandover m succ => Sys2Proof.Machine.execOwnHandover m succ s
  | .ownRelease m => Sys2Proof.Machine.execOwnRelease m s
  | .ownHeartbeat m v => Sys2Proof.Machine.execOwnHeartbeat m v s
  | .heartbeatTimeout => Sys2Proof.Machine.execHeartbeatTimeout s
  | .rayIntake d stage => Sys2Proof.Machine.execRayIntake d stage s
  | .batchPick tc p => Sys2Proof.Machine.execBatchPick tc p s
  | .nodeStep tc p ray => Sys2Proof.Machine.execNodeStep tc p ray s
  | .triangleTest tc ray => Sys2Proof.Machine.execTriangleTest tc ray s
  | .calloutPost tc ray => Sys2Proof.Machine.execCalloutPost tc ray s
  | .calloutReply tc ray => Sys2Proof.Machine.execCalloutReply tc ray s
  | .neuralBatchTimeout tg batch => Sys2Proof.Machine.execNeuralBatchTimeout tg batch s
  | .neuralBatchDone tg batch r => Sys2Proof.Machine.execNeuralBatchDone tg batch r s
  | .treeletFetchIssue => Sys2Proof.Machine.execTreeletFetchIssue s
  | .treeletFetchDone slot r => Sys2Proof.Machine.execTreeletFetchDone slot r s
  | .segmentSpill => Sys2Proof.Machine.execSegmentSpill s
  | .segmentRefill q r => Sys2Proof.Machine.execSegmentRefill q r s
  | .hitRelease d stage => Sys2Proof.Machine.execHitRelease d stage s
  | .orderHoldRelease d ch => Sys2Proof.Machine.execOrderHoldRelease d ch s
  | .hitTransfer ch => Sys2Proof.Machine.execHitTransfer ch s
  | .hrCreditReturn ch => Sys2Proof.Machine.execHrCreditReturn ch s
  | .keysetDescRead d r => Sys2Proof.Machine.execKeysetDescRead d r s
  | .queryNodeStep tc p q => Sys2Proof.Machine.execQueryNodeStep tc p q s
  | .gatherBlockTimeout d => Sys2Proof.Machine.execGatherBlockTimeout d s
  | .scoreBlockDone d blk quad lost => Sys2Proof.Machine.execScoreBlockDone d blk quad lost s
  | .matmulBatchAssign d stage arr => Sys2Proof.Machine.execMatmulBatchAssign d stage arr s
  | .weightHalfLoaded arr q kslice nblk r => Sys2Proof.Machine.execWeightHalfLoaded arr q kslice nblk r s
  | .swap arr q => Sys2Proof.Machine.execSwap arr q s
  | .tileStep arr q first count bad => Sys2Proof.Machine.execTileStep arr q first count bad s
  | .postUnit arr nblk r => Sys2Proof.Machine.execPostUnit arr nblk r s
  | .groupCloseTimeout lc form => Sys2Proof.Machine.execGroupCloseTimeout lc form s
  | .groupAdmit lc form => Sys2Proof.Machine.execGroupAdmit lc form s
  | .codeLineArrive lc addr r => Sys2Proof.Machine.execCodeLineArrive lc addr r s
  | .iadd lc slot => Sys2Proof.Machine.execIadd lc slot s
  | .isub lc slot => Sys2Proof.Machine.execIsub lc slot s
  | .imul lc slot => Sys2Proof.Machine.execImul lc slot s
  | .imulhi lc slot => Sys2Proof.Machine.execImulhi lc slot s
  | .imad lc slot => Sys2Proof.Machine.execImad lc slot s
  | .and lc slot => Sys2Proof.Machine.execAnd lc slot s
  | .or lc slot => Sys2Proof.Machine.execOr lc slot s
  | .xor lc slot => Sys2Proof.Machine.execXor lc slot s
  | .shl lc slot => Sys2Proof.Machine.execShl lc slot s
  | .shr lc slot => Sys2Proof.Machine.execShr lc slot s
  | .imin lc slot => Sys2Proof.Machine.execImin lc slot s
  | .imax lc slot => Sys2Proof.Machine.execImax lc slot s
  | .isetp lc slot => Sys2Proof.Machine.execIsetp lc slot s
  | .sel lc slot => Sys2Proof.Machine.execSel lc slot s
  | .mov lc slot => Sys2Proof.Machine.execMov lc slot s
  | .movi lc slot => Sys2Proof.Machine.execMovi lc slot s
  | .popc lc slot => Sys2Proof.Machine.execPopc lc slot s
  | .clz lc slot => Sys2Proof.Machine.execClz lc slot s
  | .iadd64 lc slot => Sys2Proof.Machine.execIadd64 lc slot s
  | .s2r lc slot => Sys2Proof.Machine.execS2r lc slot s
  | .vote lc slot => Sys2Proof.Machine.execVote lc slot s
  | .shfl lc slot => Sys2Proof.Machine.execShfl lc slot s
  | .plop lc slot => Sys2Proof.Machine.execPlop lc slot s
  | .fadd lc slot => Sys2Proof.Machine.execFadd lc slot s
  | .fmul lc slot => Sys2Proof.Machine.execFmul lc slot s
  | .ffma lc slot => Sys2Proof.Machine.execFfma lc slot s
  | .fmin lc slot => Sys2Proof.Machine.execFmin lc slot s
  | .fmax lc slot => Sys2Proof.Machine.execFmax lc slot s
  | .fsetp lc slot => Sys2Proof.Machine.execFsetp lc slot s
  | .fdiv lc slot => Sys2Proof.Machine.execFdiv lc slot s
  | .mufu lc slot => Sys2Proof.Machine.execMufu lc slot s
  | .hadd2 lc slot => Sys2Proof.Machine.execHadd2 lc slot s
  | .hmul2 lc slot => Sys2Proof.Machine.execHmul2 lc slot s
  | .hfma2 lc slot => Sys2Proof.Machine.execHfma2 lc slot s
  | .fmuli lc slot => Sys2Proof.Machine.execFmuli lc slot s
  | .faddi lc slot => Sys2Proof.Machine.execFaddi lc slot s
  | .f2i lc slot => Sys2Proof.Machine.execF2i lc slot s
  | .i2f lc slot => Sys2Proof.Machine.execI2f lc slot s
  | .f2f lc slot => Sys2Proof.Machine.execF2f lc slot s
  | .x2f lc slot => Sys2Proof.Machine.execX2f lc slot s
  | .ld lc slot => Sys2Proof.Machine.execLd lc slot s
  | .st lc slot => Sys2Proof.Machine.execSt lc slot s
  | .loadDataReturn lc slot unc => Sys2Proof.Machine.execLoadDataReturn lc slot unc s
  | .atom lc slot => Sys2Proof.Machine.execAtom lc slot s
  | .lockTry lc slot => Sys2Proof.Machine.execLockTry lc slot s
  | .lockWait lc slot => Sys2Proof.Machine.execLockWait lc slot s
  | .lockRetry space addr => Sys2Proof.Machine.execLockRetry space addr s
  | .unlock lc slot => Sys2Proof.Machine.execUnlock lc slot s
  | .fence lc slot => Sys2Proof.Machine.execFence lc slot s
  | .bra lc slot => Sys2Proof.Machine.execBra lc slot s
  | .brx lc slot => Sys2Proof.Machine.execBrx lc slot s
  | .call lc slot => Sys2Proof.Machine.execCall lc slot s
  | .rmark lc slot => Sys2Proof.Machine.execRmark lc slot s
  | .rjoin lc slot => Sys2Proof.Machine.execRjoin lc slot s
  | .exit lc slot => Sys2Proof.Machine.execExit lc slot s
  | .bar lc slot => Sys2Proof.Machine.execBar lc slot s
  | .barRelease lc slot => Sys2Proof.Machine.execBarRelease lc slot s
  | .nop lc slot => Sys2Proof.Machine.execNop lc slot s
  | .cp lc slot => Sys2Proof.Machine.execCp lc slot s
  | .copyDone lc slot ctr unc => Sys2Proof.Machine.execCopyDone lc slot ctr unc s
  | .cpwait lc slot => Sys2Proof.Machine.execCpwait lc slot s
  | .mma lc slot => Sys2Proof.Machine.execMma lc slot s
  | .mmaComplete lc => Sys2Proof.Machine.execMmaComplete lc s
  | .emit lc slot => Sys2Proof.Machine.execEmit lc slot s
  | .emitT lc slot => Sys2Proof.Machine.execEmitT lc slot s
  | .failitem lc slot => Sys2Proof.Machine.execFailitem lc slot s
  | .tout lc slot => Sys2Proof.Machine.execTout lc slot s
  | .cret lc slot => Sys2Proof.Machine.execCret lc slot s
  | .seArm m se v => Sys2Proof.Machine.execSeArm m se v s
  | .armDescRead se r => Sys2Proof.Machine.execArmDescRead se r s
  | .seAbort m se v => Sys2Proof.Machine.execSeAbort m se v s
  | .seClearShadow m se v => Sys2Proof.Machine.execSeClearShadow m se v s
  | .streamRunPlace d stage r => Sys2Proof.Machine.execStreamRunPlace d stage r s
  | .streamTransferIssue se => Sys2Proof.Machine.execStreamTransferIssue se s
  | .streamTransferDone se t => Sys2Proof.Machine.execStreamTransferDone se t s
  | .dictPoll se => Sys2Proof.Machine.execDictPoll se s
  | .memRequestIssue mp pos => Sys2Proof.Machine.execMemRequestIssue mp pos s
  | .memResponse mp tag status => Sys2Proof.Machine.execMemResponse mp tag status s
  | .memRequestTimeout mp tag => Sys2Proof.Machine.execMemRequestTimeout mp tag s
  | .xlatRequest req page write acc => Sys2Proof.Machine.execXlatRequest req page write acc s
  | .xlatResponse id resp => Sys2Proof.Machine.execXlatResponse id resp s
  | .xlatRequestTimeout id => Sys2Proof.Machine.execXlatRequestTimeout id s
  | .invalidation inv => Sys2Proof.Machine.execInvalidation inv s
  | .invalidationAck id clks => Sys2Proof.Machine.execInvalidationAck id clks s
  | .faultResume m slot => Sys2Proof.Machine.execFaultResume m slot s
  | .faultAbort m slot => Sys2Proof.Machine.execFaultAbort m slot s
  | .faultRecordTimeout slot => Sys2Proof.Machine.execFaultRecordTimeout slot s
  | .hotDecay => Sys2Proof.Machine.execHotDecay s
  | .hotPop m v => Sys2Proof.Machine.execHotPop m v s
  | .ncFillDone tc r => Sys2Proof.Machine.execNcFillDone tc r s
  | .spcFillDone tc r => Sys2Proof.Machine.execSpcFillDone tc r s
  | .evictWriteDone tc => Sys2Proof.Machine.execEvictWriteDone tc s
  | .cmClean m w => Sys2Proof.Machine.execCmClean m w s
  | .cmInv m w => Sys2Proof.Machine.execCmInv m w s
  | .cmCleanInv m w => Sys2Proof.Machine.execCmCleanInv m w s
  | .cmOpDone => Sys2Proof.Machine.execCmOpDone s
  | .regWrite m addr size v => Sys2Proof.Machine.execRegWrite m addr size v s
  | .bufferedWrite m addr size v => Sys2Proof.Machine.execBufferedWrite m addr size v s
  | .rcCounterRead m addr => Sys2Proof.Machine.execRcCounterRead m addr s
  | .keyUnlock m v => Sys2Proof.Machine.execKeyUnlock m v s
  | .discardPending m w => Sys2Proof.Machine.execDiscardPending m w s
  | .cfgParityScan addr buffer => Sys2Proof.Machine.execCfgParityScan addr buffer s
  | .rasFenceCmd m w => Sys2Proof.Machine.execRasFenceCmd m w s
  | .rasReturnCmd m w => Sys2Proof.Machine.execRasReturnCmd m w s
  | .faultDetected f => Sys2Proof.Machine.execFaultDetected f s
  | .fenceComplete u => Sys2Proof.Machine.execFenceComplete u s
  | .fullService u => Sys2Proof.Machine.execFullService u s
  | .recoveryEpoch => Sys2Proof.Machine.execRecoveryEpoch s
  | .recoveryHoldTimeout => Sys2Proof.Machine.execRecoveryHoldTimeout s
  | .unitWatchdog u => Sys2Proof.Machine.execUnitWatchdog u s
  | .scrub store line corrected => Sys2Proof.Machine.execScrub store line corrected s
  | .ageingInterval readings => Sys2Proof.Machine.execAgeingInterval readings s
  | .ageMeasure m v readings => Sys2Proof.Machine.execAgeMeasure m v readings s
  | .pcClear m w => Sys2Proof.Machine.execPcClear m w s
  | .opRequest m v => Sys2Proof.Machine.execOpRequest m v s
  | .opOverride m v => Sys2Proof.Machine.execOpOverride m v s
  | .vackToggle rail => Sys2Proof.Machine.execVackToggle rail s
  | .clockSwitchDone dom => Sys2Proof.Machine.execClockSwitchDone dom s
  | .domainInService dom => Sys2Proof.Machine.execDomainInService dom s
  | .lpReqNap m w => Sys2Proof.Machine.execLpReqNap m w s
  | .lpReqSleep m w => Sys2Proof.Machine.execLpReqSleep m w s
  | .lpReqRun m w => Sys2Proof.Machine.execLpReqRun m w s
  | .lpEntry => Sys2Proof.Machine.execLpEntry s
  | .wake src => Sys2Proof.Machine.execWake src s
  | .wakeComplete => Sys2Proof.Machine.execWakeComplete s
  | .softReset m w => Sys2Proof.Machine.execSoftReset m w s
  | .warmReset src w => Sys2Proof.Machine.execWarmReset src w s
  | .resetDrainDone => Sys2Proof.Machine.execResetDrainDone s
  | .softResetEnd => Sys2Proof.Machine.execSoftResetEnd s
  | .domainResetRequest m w => Sys2Proof.Machine.execDomainResetRequest m w s
  | .domainResetDone dom => Sys2Proof.Machine.execDomainResetDone dom s
  | .por strap => Sys2Proof.Machine.execPor strap s
  | .warmInput strap => Sys2Proof.Machine.execWarmInput strap s
  | .startupComplete failed age => Sys2Proof.Machine.execStartupComplete failed age s
  | .lifecycleRequest m v => Sys2Proof.Machine.execLifecycleRequest m v s
  | .lifecycleCommit => Sys2Proof.Machine.execLifecycleCommit s
  | .wipeRequest m w => Sys2Proof.Machine.execWipeRequest m w s
  | .wipeDone => Sys2Proof.Machine.execWipeDone s
  | .supplyDip dom => Sys2Proof.Machine.execSupplyDip dom s
  | .supplyRecover dom clks => Sys2Proof.Machine.execSupplyRecover dom clks s
  | .suppliedClockChange clk khz => Sys2Proof.Machine.execSuppliedClockChange clk khz s
  | .mgtWatchdog => Sys2Proof.Machine.execMgtWatchdog s
  | .firmwareBoot => Sys2Proof.Machine.execFirmwareBoot s
  | .trialTimeout => Sys2Proof.Machine.execTrialTimeout s
  | .trialConfirm => Sys2Proof.Machine.execTrialConfirm s
  | .fwUpdate m r flashOk => Sys2Proof.Machine.execFwUpdate m r flashOk s
  | .fwActivate m => Sys2Proof.Machine.execFwActivate m s
  | .logCopy m r => Sys2Proof.Machine.execLogCopy m r s
  | .mailboxDone => Sys2Proof.Machine.execMailboxDone s
  | .installDev m slot => Sys2Proof.Machine.execInstallDev m slot s
  | .installProd m slot => Sys2Proof.Machine.execInstallProd m slot s
  | .revoke m slot => Sys2Proof.Machine.execRevoke m slot s
  | .keyCommandDone => Sys2Proof.Machine.execKeyCommandDone s
  | .logProgram ok => Sys2Proof.Machine.execLogProgram ok s
  | .thermalLoopTick temps => Sys2Proof.Machine.execThermalLoopTick temps s
  | .thermalTrip sensor temp => Sys2Proof.Machine.execThermalTrip sensor temp s
  | .thermalTripEnd => Sys2Proof.Machine.execThermalTripEnd s
  | .powerCapTick mw => Sys2Proof.Machine.execPowerCapTick mw s
  | .brownoutRecover dom => Sys2Proof.Machine.execBrownoutRecover dom s
  | .telemetryPush => Sys2Proof.Machine.execTelemetryPush s
  | .monLine text lost => Sys2Proof.Machine.execMonLine text lost s
  | .monPeek addr n => Sys2Proof.Machine.execMonPeek addr n s
  | .monPoke addr v => Sys2Proof.Machine.execMonPoke addr v s
  | .monStat => Sys2Proof.Machine.execMonStat s
  | .monLog n => Sys2Proof.Machine.execMonLog n s
  | .monSens => Sys2Proof.Machine.execMonSens s
  | .monFence kind index => Sys2Proof.Machine.execMonFence kind index s
  | .monFenceReturn kind index => Sys2Proof.Machine.execMonFenceReturn kind index s
  | .monTraceOn => Sys2Proof.Machine.execMonTraceOn s
  | .monTraceOff => Sys2Proof.Machine.execMonTraceOff s
  | .monOwn => Sys2Proof.Machine.execMonOwn s
  | .monOwnClaim => Sys2Proof.Machine.execMonOwnClaim s
  | .monOwnRelease => Sys2Proof.Machine.execMonOwnRelease s
  | .monOwnHb => Sys2Proof.Machine.execMonOwnHb s
  | .monOwnAuth => Sys2Proof.Machine.execMonOwnAuth s
  | .monOwnAuthSig sig => Sys2Proof.Machine.execMonOwnAuthSig sig s
  | .monOwnLock => Sys2Proof.Machine.execMonOwnLock s
  | .monOp n => Sys2Proof.Machine.execMonOp n s
  | .monHelp => Sys2Proof.Machine.execMonHelp s
  | .plkInitSend port => Sys2Proof.Machine.execPlkInitSend port s
  | .plkInit port p => Sys2Proof.Machine.execPlkInit port p s
  | .plkGoodbye port p => Sys2Proof.Machine.execPlkGoodbye port p s
  | .plkKeepalive port p => Sys2Proof.Machine.execPlkKeepalive port p s
  | .plkAck port p => Sys2Proof.Machine.execPlkAck port p s
  | .plkNak port p => Sys2Proof.Machine.execPlkNak port p s
  | .plkRay port p => Sys2Proof.Machine.execPlkRay port p s
  | .plkRayAck port p => Sys2Proof.Machine.execPlkRayAck port p s
  | .plkHit port p => Sys2Proof.Machine.execPlkHit port p s
  | .plkQuery port p => Sys2Proof.Machine.execPlkQuery port p s
  | .plkQres port p => Sys2Proof.Machine.execPlkQres port p s
  | .plkUnreachable port p => Sys2Proof.Machine.execPlkUnreachable port p s
  | .plkRread port p r => Sys2Proof.Machine.execPlkRread port p r s
  | .plkRdata port p => Sys2Proof.Machine.execPlkRdata port p s
  | .plkMcReq port p => Sys2Proof.Machine.execPlkMcReq port p s
  | .plkMcTile port p => Sys2Proof.Machine.execPlkMcTile port p s
  | .plkMcNak port p => Sys2Proof.Machine.execPlkMcNak port p s
  | .plkEvent port p => Sys2Proof.Machine.execPlkEvent port p s
  | .plkTelemReq port p => Sys2Proof.Machine.execPlkTelemReq port p s
  | .plkTelem port p => Sys2Proof.Machine.execPlkTelem port p s
  | .plkSubscribe port p => Sys2Proof.Machine.execPlkSubscribe port p s
  | .plkNodeLost port p => Sys2Proof.Machine.execPlkNodeLost port p s
  | .plkUnknownType port p => Sys2Proof.Machine.execPlkUnknownType port p s
  | .plkAckTimer port => Sys2Proof.Machine.execPlkAckTimer port s
  | .plkKeepaliveSend port => Sys2Proof.Machine.execPlkKeepaliveSend port s
  | .partnerLost port => Sys2Proof.Machine.execPartnerLost port s
  | .plkEvtSend m v => Sys2Proof.Machine.execPlkEvtSend m v s
  | .mcTimeout model => Sys2Proof.Machine.execMcTimeout model s
  | .laneUpChange port up => Sys2Proof.Machine.execLaneUpChange port up s
  | .plkCrcErr port p => Sys2Proof.Machine.execPlkCrcErr port p s
  | .undefinedWord lc slot => Sys2Proof.Machine.execUndefinedWord lc slot s
  | .returnedToService u => Sys2Proof.Machine.execReturnedToService u s
  | .lowPowerEntryEnd => Sys2Proof.Machine.execLowPowerEntryEnd s

end Sys2Proof.Machine
end

