-- ==== Sys2Proof/Machine/Tick.lean ====
section
/-! DEFINITION. What time does while no command waits: the counters that count clocks (R601, Table 177). -/

namespace Sys2Proof.Machine

/-- One tick of the idle engine: CP_AON_COUNT, the management subsystem's count and the heartbeat timer run on by as many clocks as
pass, which the manual leaves open (R599). -/
def State.tick (s : State) : State :=
  let aon := Config.clocks 0 s.ticks
  let mgt := Config.clocks 1 s.ticks
  let s : State := s.tally2 F.cpAonCountLo F.cpAonCountHi aon
  { s with ticks := s.ticks + 1, hb := s.hb + aon, mgmt := { s.mgmt with count := s.mgmt.count + mgt } }

end Sys2Proof.Machine
end

