-- ==== Sys2Proof/Safety.lean ====
section
/-! DEFINITION. What counts as a safe run, in the terms statements use: a run of commands that neither faults nor is refused; and the
invariant of the state that every step keeps. -/

namespace Sys2Proof

/-- Whether an outcome is a next state. -/
def goesOn : Host.Outcome Machine.State Machine.Fault Machine.Refusal → Bool
  | .next _ => true
  | _ => false

/-- Whether `n` steps from a state all answer a next state. -/
def Machine.State.runsSafely (s : Machine.State) : Nat → Bool
  | 0 => true
  | n + 1 => match Machine.step s with | .next t => t.runsSafely n | _ => false

/-- A thread group's plain form: its registers listed in canonical form, 7 predicates and 8 arrival counters. -/
def Machine.Group.canonical (g : Machine.Group) : Bool :=
  Machine.swf (fun _ => 0) g.regs && g.preds.length == 7 && g.counters.length == 8

/-- The state's plain form: memory, the Shared Field, the Treelet Store, the register fields, the local stores and every group's
registers list each key once, rising, and nothing that reads as its default; every kind of unit stands in its number; and the
ids of groups are distinct and below the next one. -/
def Machine.State.canonical (s : Machine.State) : Bool :=
  Machine.Memory.wf s.mem && Machine.Memory.wf s.sf && Machine.Memory.wf s.ts && Machine.swf Machine.regReset s.regs &&
  s.lcs.all (fun l => Machine.Memory.wf l.store) && s.groups.all (fun g => g.canonical) &&
  s.clkKhz.length == 6 && s.vreq.length == 11 && s.queues.length == 4 && s.schedK.length == 32 && s.hrBuf.length == 4 &&
  s.lcs.length == 16 && s.ageing.length == 14 && s.ses.length == 16 && s.ports.length == 16 && s.tlbs.length == 64 &&
  s.caches.length == 32 && s.quads.length == 8 && s.ws.length == 2 &&
  s.groups.all (fun g => g.id < s.nextGroup) && decide ((s.groups.map (fun g => g.id)).Nodup)

end Sys2Proof
end

