-- ==== Sys2Proof/Certificates/Slice0/Obligations.lean ====
section
/-! DEFINITION. The statements about the engine that are to be proved.  Terms they share stand first. -/

namespace Sys2Proof.Claims

open Sys2Proof.Machine

/-- The outcome of a command. -/
abbrev Result := Host.Outcome State Fault Refusal

/-- Every register field but those of `fs` reads the same in two states. -/
def RegsBut (fs : List RField) (s t : State) : Prop := ∀ f : RField, (∀ x ∈ fs, x.key ≠ f.key) → t.get f = s.get f

/-- The registers in which performance counters count (Table 152a, R594). -/
def perfRegs : List RField := F.pcOvf :: (List.range 16).flatMap (fun i => [F.pcCntLo i, F.pcCntHi i])

/-! ### Lane-core instructions -/

/-! ### Accesses through the memory ports -/

/-- The registers in which accesses through the memory ports are counted, and what a hot page raises (R497, R523, R594). -/
def portRegs : List RField :=
  F.intStatus :: F.xlatHotDropped :: perfRegs ++ (List.range 16).flatMap (fun q => [F.mpRdSectors q, F.mpWrSectors q, F.mpRmSectors q])

/-- The state `s` with what accesses through the memory ports move taken from `t`: the registers, the hot pages and the order of use of the
micro-TLB entries. -/
def moved (s t : State) : State := { s with regs := t.regs, tlbs := t.tlbs, hot := t.hot, hotFifo := t.hotFifo }

/-- Every micro-TLB holds the same entries in two states. -/
def SameEntries (s t : State) : Prop := ∀ r, ∀ e, e ∈ t.tlb r ↔ e ∈ s.tlb r

/-- The registers in which accesses are counted that a stream engine makes for another unit (R456, R494). -/
def accessRegs : List RField := portRegs ++ (List.range 16).flatMap (fun e => [F.seBytesLo e, F.seBytesHi e])

/-- A lane core in two states is the same but for lines of its cache part that may be gone. -/
def CacheLeft (x y : LaneCore) : Prop := y = { x with cache := y.cache } ∧ y.cache.Sublist x.cache

/-! ### Groups -/

/-- The premises under which the group in a slot of a lane core runs its next word as an instruction: the group is the oldest ready one of
its core (R381): resident, it waits for nothing, may work now, holds the word, and the unit that the word needs can take it (R382); the word
is defined (R421) and names registers of the program, which has at most 255 (R424, REGS of Table 26); some lane is active; and the word is
not the last of the program, after which control may not go on (R419). -/
structure Issues (s : State) (lc slot : Nat) (g : Group) (w : Nat) : Prop where
  canonical : s.canonical = true
  ready : s.ready lc slot = some (g, w)
  defined : wordDefined w = true
  few : (s.progOf g.prog).regs ≤ 255
  named : (wordRuns w).all (runOk (s.progOf g.prog).regs) = true
  live : g.live ≠ 0
  active : g.active ≠ 0
  inCode : g.pc + 8 < (s.progOf g.prog).codeLen

/-- Whether a word acts in lane `l`: the lane is active and its guard is true (R426). -/
def acts (g : Group) (w l : Nat) : Bool := g.active.testBit l && (g.pred (wGp w) l != wGn w)

/-- The registers that count an issued word: LC_ISSUED of the lane core and the performance counters. -/
def issueRegs (lc : Nat) : List RField := F.lcIssuedLo lc :: F.lcIssuedHi lc :: perfRegs

/-- LC_ISSUED of a lane core as one 64-bit number. -/
def issuedCount (s : State) (lc : Nat) : Nat := s.get (F.lcIssuedLo lc) + 2 ^ 32 * s.get (F.lcIssuedHi lc)

/-- An instruction that touches only its own group: the slot now holds `h`, every other group and every part of the engine outside the
groups is as before, and only the counts of issued words have moved among the registers. -/
structure OnlyGroup (s t : State) (lc slot : Nat) (g h : Group) : Prop where
  holds : t.groupAt lc slot = some h
  rest : t = { s with groups := s.groups.map (fun x => if x.id = g.id then h else x), regs := t.regs }
  counted : issuedCount t lc = (issuedCount s lc + 1) % 2 ^ 64
  regs : RegsBut (issueRegs lc) s t

/-- The group has gone on to its next word, and only its registers and predicates can differ otherwise (R419). -/
def NextWord (g h : Group) : Prop := h = { g with pc := g.pc + 8, regs := h.regs, preds := h.preds }

/-- Register D of every lane in which the word acts holds `f`; every other register of every lane, and every predicate, is as before; the
zero register discards the write (R423, R426). -/
def WritesD (g h : Group) (w : Nat) (f : Nat → BitVec 32) : Prop :=
  (∀ l r, l < 32 → r < 256 → h.reg l r = if acts g w l = true ∧ r = wD w ∧ r ≠ 255 then (f l).toNat else g.reg l r) ∧
  h.preds = g.preds

/-- Predicate D[2:0] of every lane in which the word acts holds `f`; every other predicate and every register is as before; p7 reads true
and discards the write (R425, R426). -/
def WritesP (g h : Group) (w : Nat) (f : Nat → Bool) : Prop :=
  (∀ l p, l < 32 → p < 7 → h.pred p l = if acts g w l = true ∧ p = wD w % 8 then f l else g.pred p l) ∧
  (∀ l, h.pred 7 l = true) ∧ h.regs = g.regs

/-- An instruction of opcodes `ops` completes, and D of each lane in which it acts holds `f` of the state, the group, the word and the
lane. -/
def GivesD (c : Fin 16 → Fin 64 → Instr) (ops : List Nat) (f : State → Group → Nat → Nat → BitVec 32) : Prop :=
  ∀ (s : State) (lc : Fin 16) (slot : Fin 64) (g : Group) (w : Nat), Issues s lc slot g w → wOpc w ∈ ops →
    ∃ t h, exec (c lc slot) s = .next t ∧ OnlyGroup s t lc slot g h ∧ NextWord g h ∧ WritesD g h w (f s g w)

/-- As `GivesD`, for a predicate. -/
def GivesP (c : Fin 16 → Fin 64 → Instr) (ops : List Nat) (f : State → Group → Nat → Nat → Bool) : Prop :=
  ∀ (s : State) (lc : Fin 16) (slot : Fin 64) (g : Group) (w : Nat), Issues s lc slot g w → wOpc w ∈ ops →
    ∃ t h, exec (c lc slot) s = .next t ∧ OnlyGroup s t lc slot g h ∧ NextWord g h ∧ WritesP g h w (f s g w)

/-- Sources A, B and C of lane `l` as 32-bit words. -/
def srcA (g : Group) (w l : Nat) : BitVec 32 := BitVec.ofNat 32 (g.reg l (wA w))
def srcB (g : Group) (w l : Nat) : BitVec 32 := BitVec.ofNat 32 (g.reg l (wB w))
def srcC (g : Group) (w l : Nat) : BitVec 32 := BitVec.ofNat 32 (g.reg l (wC w))

/-- IMM of a word. -/
def imm32 (w : Nat) : BitVec 32 := BitVec.ofNat 32 w

/-- An instruction with a register form and an immediate form: D = f MOD A B, and D = f MOD A IMM. -/
def BothForms (c : Fin 16 → Fin 64 → Instr) (r i : Nat) (f : Nat → BitVec 32 → BitVec 32 → BitVec 32) : Prop :=
  GivesD c [r] (fun _ g w l => f (wMod w) (srcA g w l) (srcB g w l)) ∧
  GivesD c [i] (fun _ g w l => f (wMod w) (srcA g w l) (imm32 w))

/-- Every group but the one of `g` is as before, and the slot holds `h`. -/
def GroupsBut (s t : State) (lc slot : Nat) (g h : Group) : Prop :=
  t.groupAt lc slot = some h ∧ t.groups = s.groups.map (fun x => if x.id = g.id then h else x)

end Sys2Proof.Claims

open Sys2Proof Sys2Proof.Machine Sys2Proof.Claims

/-! ## Integer instructions -/

/-- The integer instructions of Table 109 complete with the result the table gives, in both forms where there are two. -/
def Sys2Proof.Claims.IntegerResults : Prop :=
  BothForms .iadd 0x00 0x01 (fun _ a b => a + b) ∧
  BothForms .isub 0x02 0x03 (fun _ a b => a - b) ∧
  BothForms .imul 0x04 0x05 (fun _ a b => a * b) ∧
  BothForms .imulhi 0x06 0x07 (fun m a b =>
    if m = 0 then (a.zeroExtend 64 * b.zeroExtend 64).extractLsb' 32 32 else (a.signExtend 64 * b.signExtend 64).extractLsb' 32 32) ∧
  GivesD .imad [0x08] (fun _ g w l => srcA g w l * srcB g w l + srcC g w l) ∧
  BothForms .and 0x0A 0x0B (fun _ a b => a &&& b) ∧
  BothForms .or 0x0C 0x0D (fun _ a b => a ||| b) ∧
  BothForms .xor 0x0E 0x0F (fun _ a b => a ^^^ b) ∧
  BothForms .shl 0x10 0x11 (fun _ a b => a <<< (b.toNat % 256)) ∧
  BothForms .shr 0x12 0x13 (fun m a b => if m = 0 then a >>> (b.toNat % 256) else a.sshiftRight (b.toNat % 256)) ∧
  BothForms .imin 0x14 0x15 (fun m a b => if (if m = 0 then b.ult a else b.slt a) then b else a) ∧
  BothForms .imax 0x16 0x17 (fun m a b => if (if m = 0 then a.ult b else a.slt b) then b else a) ∧
  GivesD .mov [0x1C] (fun _ g w l => srcA g w l) ∧
  GivesD .movi [0x1D] (fun _ _ w _ => imm32 w) ∧
  GivesD .popc [0x1E] (fun _ g w l => BitVec.ofNat 32 ((List.range 32).countP (fun i => (srcA g w l).getLsbD i))) ∧
  GivesD .clz [0x1F] (fun _ g w l =>
    BitVec.ofNat 32 (((List.range 32).find? (fun i => (srcA g w l).getMsbD i)).getD 32)) ∧
  GivesD .sel [0x1A] (fun _ g w l => if g.pred (wSub w % 8) l != (wSub w).testBit 3 then srcA g w l else srcB g w l)

/-- IADD64: the pair D holds the pair A plus B, or IMM, sign-extended, in each lane in which the word acts. -/
def Sys2Proof.Claims.PairAddResult : Prop :=
  ∀ (s : State) (lc : Fin 16) (slot : Fin 64) (g : Group) (w : Nat), Issues s lc slot g w → wOpc w = 0x20 ∨ wOpc w = 0x21 →
    ∃ t h, exec (.iadd64 lc slot) s = .next t ∧ OnlyGroup s t lc slot g h ∧ NextWord g h ∧ h.preds = g.preds ∧
      (∀ l, l < 32 → acts g w l = true → BitVec.ofNat 64 (h.reg l (wD w) + 2 ^ 32 * h.reg l (wD w + 1)) =
        BitVec.ofNat 64 (g.reg l (wA w) + 2 ^ 32 * g.reg l (wA w + 1)) +
          (if wOpc w = 0x20 then srcB g w l else imm32 w).signExtend 64) ∧
      (∀ l r, l < 32 → r < 256 → (acts g w l = false ∨ (r ≠ wD w ∧ r ≠ wD w + 1)) → h.reg l r = g.reg l r)

/-- Every integer instruction of Table 109 completes with the result the table gives. -/
def Obligations.IntegerInstructions : Prop := IntegerResults ∧ PairAddResult

/-- ISETP, FSETP and PLOP complete and write the predicate that Tables 110 and 111 give. -/
def Sys2Proof.Claims.PredicateResults : Prop :=
  GivesP .isetp [0x18, 0x19] (fun _ g w l =>
    let a := srcA g w l
    let b := if wOpc w = 0x18 then srcB g w l else imm32 w
    let less := fun (x y : BitVec 32) => if (wMod w).testBit 3 then x.slt y else x.ult y
    match wMod w % 8 with
    | 0 => a == b
    | 1 => a != b
    | 2 => less a b
    | 3 => !less b a
    | 4 => less b a
    | _ => !less a b) ∧
  GivesP .fsetp [0x2D] (fun _ g w l =>
    let a := g.fA w l 0x80000000
    let b := g.fB w l 0x80000000
    let ordered := !isNan fp32 a && !isNan fp32 b
    match wMod w with
    | 0 => eqF fp32 a b
    | 1 => !eqF fp32 a b
    | 2 => ordered && cmpF fp32 a b == -1
    | 3 => ordered && cmpF fp32 a b != 1
    | 4 => ordered && cmpF fp32 a b == 1
    | 5 => ordered && cmpF fp32 a b != -1
    | 6 => ordered
    | _ => !ordered) ∧
  GivesP .plop [0x4C] (fun _ g w l =>
    let a := g.pred (wA w % 8) l != (wA w).testBit 3
    let b := g.pred (wB w % 8) l != (wB w).testBit 3
    match wMod w with
    | 0 => a && b
    | 1 => a || b
    | _ => a != b)

/-- VOTE, SHFL, S2R, NOP and FENCE complete with the values of Tables 100 and 111; NOP and FENCE write nothing in the group. -/
def Sys2Proof.Claims.LaneExchangeResults : Prop :=
  (∀ (s : State) (lc : Fin 16) (slot : Fin 64) (g : Group) (w : Nat), Issues s lc slot g w → wOpc w = 0x49 →
    ∃ t h, exec (.vote lc slot) s = .next t ∧ OnlyGroup s t lc slot g h ∧ NextWord g h ∧
      (wMod w = 0 → WritesP g h w (fun _ => (List.range 32).any (fun l => g.active.testBit l && g.pred (wA w % 8) l))) ∧
      (wMod w = 1 → WritesP g h w (fun _ => (List.range 32).all (fun l => !g.active.testBit l || g.pred (wA w % 8) l))) ∧
      (wMod w = 2 → WritesD g h w (fun _ => BitVec.ofNat 32 (maskOf ((List.range 32).filter
        (fun l => g.active.testBit l && g.pred (wA w % 8) l)))))) ∧
  GivesD .shfl [0x4A, 0x4B] (fun _ g w l =>
    let b := if wOpc w = 0x4A then g.reg l (wB w) else w % 2 ^ 32
    let from_ : Int := match wMod w with
      | 0 => (b % 32 : Nat)
      | 1 => (l : Int) - b
      | 2 => (l : Int) + b
      | _ => (l ^^^ (b % 32) : Nat)
    if 0 ≤ from_ ∧ from_ < 32 ∧ acts g w from_.toNat = true then srcA g w from_.toNat else srcA g w l) ∧
  GivesD .s2r [0x48] (fun s g w l =>
    BitVec.ofNat 32 (match wSub w with
      | 0 => l
      | 1 => g.slot.getD 0
      | 2 => g.lc
      | 3 => g.launch
      | 4 => g.cls
      | 5 => if g.launch = 3 then g.tileFirst else (g.lanes[l]?.map (fun x => x.item)).getD 0
      | 6 => if g.launch = 3 then 65536 else (g.lanes[l]?.map (fun x => x.bytes.length)).getD 0
      | 7 => g.live
      | _ => if s.integ.plkPorts = 0 then 0 else s.get F.plkNode)) ∧
  (∀ (s : State) (lc : Fin 16) (slot : Fin 64) (g : Group) (w : Nat), Issues s lc slot g w →
    (wOpc w = 0x68 → ∃ t, exec (.nop lc slot) s = .next t ∧ OnlyGroup s t lc slot g { g with pc := g.pc + 8 }) ∧
    (wOpc w = 0x52 → ∃ t, exec (.fence lc slot) s = .next t ∧ OnlyGroup s t lc slot g { g with pc := g.pc + 8 }))

/-- Compares, predicate logic, votes, exchanges between lanes and special values complete with what Tables 100, 110 and 111 give; NOP and
FENCE only go on. -/
def Obligations.PredicateAndLaneInstructions : Prop := PredicateResults ∧ LaneExchangeResults

/-! ## Floating-point instructions and conversions -/

/-- The FP32 and paired instructions of Table 112 complete: D takes the operation's result over the sources as SUB modifies them, rounded in
the direction of MOD[1:0]; each half of a pair takes its own, rounded to nearest even. -/
def Sys2Proof.Claims.FloatResults : Prop :=
  GivesD .fadd [0x28] (fun _ g w l => BitVec.ofNat 32 (fAdd fp32 (wMod w) (g.fA w l 0x80000000) (g.fB w l 0x80000000))) ∧
  GivesD .fmul [0x29] (fun _ g w l => BitVec.ofNat 32 (fMul fp32 (wMod w) (g.fA w l 0x80000000) (g.fB w l 0x80000000))) ∧
  GivesD .ffma [0x2A] (fun _ g w l =>
    BitVec.ofNat 32 (fFma fp32 (wMod w) (g.fA w l 0x80000000) (g.fB w l 0x80000000) (g.fC w l 0x80000000))) ∧
  GivesD .fmin [0x2B] (fun _ g w l => BitVec.ofNat 32 (fMin fp32 (g.fA w l 0x80000000) (g.fB w l 0x80000000))) ∧
  GivesD .fmax [0x2C] (fun _ g w l => BitVec.ofNat 32 (fMax fp32 (g.fA w l 0x80000000) (g.fB w l 0x80000000))) ∧
  GivesD .fdiv [0x2F] (fun _ g w l => BitVec.ofNat 32 (fDiv fp32 (wMod w) (g.fA w l 0x80000000) (g.fB w l 0x80000000))) ∧
  GivesD .mufu [0x30] (fun _ g w l => BitVec.ofNat 32 (mufu (wSub w / 256 % 16) (g.fA w l 0x80000000))) ∧
  GivesD .fmuli [0x34] (fun _ g w l => BitVec.ofNat 32 (fMul fp32 (wMod w) (g.reg l (wA w)) (w % 2 ^ 32))) ∧
  GivesD .faddi [0x35] (fun _ g w l => BitVec.ofNat 32 (fAdd fp32 (wMod w) (g.reg l (wA w)) (w % 2 ^ 32))) ∧
  (∀ fmt : FFmt, ∀ m : Nat, (m = 0 ∧ fmt = fp16) ∨ (m = 1 ∧ fmt = bf16) →
    ∀ (s : State) (lc : Fin 16) (slot : Fin 64) (g : Group) (w : Nat), Issues s lc slot g w → wMod w = m →
      let halves := fun (f : Nat → Nat → Nat → Nat) (l : Nat) =>
        let a := g.fA w l 0x80008000
        let b := g.fB w l 0x80008000
        let c := g.fC w l 0x80008000
        BitVec.ofNat 32 (f (a % 65536) (b % 65536) (c % 65536) + 65536 * f (a / 65536) (b / 65536) (c / 65536))
      (wOpc w = 0x31 → ∃ t h, exec (.hadd2 lc slot) s = .next t ∧ OnlyGroup s t lc slot g h ∧ NextWord g h ∧
        WritesD g h w (halves (fun a b _ => fAdd fmt 0 a b))) ∧
      (wOpc w = 0x32 → ∃ t h, exec (.hmul2 lc slot) s = .next t ∧ OnlyGroup s t lc slot g h ∧ NextWord g h ∧
        WritesD g h w (halves (fun a b _ => fMul fmt 0 a b))) ∧
      (wOpc w = 0x33 → ∃ t h, exec (.hfma2 lc slot) s = .next t ∧ OnlyGroup s t lc slot g h ∧ NextWord g h ∧
        WritesD g h w (halves (fun a b c => fFma fmt 0 a b c))))

/-- F2I, I2F, F2F and X2F complete with the converted value; F2F keeps every bit of D outside the element lane it writes. -/
def Sys2Proof.Claims.ConversionResults : Prop :=
  GivesD .f2i [0x40] (fun _ g w l => BitVec.ofNat 32 (f2i (wMod w % 4) ((wMod w).testBit 3) (g.reg l (wA w)))) ∧
  GivesD .i2f [0x41] (fun _ g w l =>
    BitVec.ofNat 32 (fOfInt (wMod w % 4) (if (wMod w).testBit 3 then ((srcA g w l).toNat : Int) else (srcA g w l).toInt))) ∧
  GivesD .x2f [0x43] (fun _ g w l =>
    let n := if wSub w / 256 % 16 ≤ 1 then 16 else 8
    BitVec.ofNat 32 (convF fp32 0 false (decF (convFmt w).1 ((srcA g w l).toNat / 2 ^ (n * (wSub w % 4)) % 2 ^ n)))) ∧
  (∀ (s : State) (lc : Fin 16) (slot : Fin 64) (g : Group) (w : Nat), Issues s lc slot g w → wOpc w = 0x42 →
    ∃ t h, exec (.f2f lc slot) s = .next t ∧ OnlyGroup s t lc slot g h ∧ NextWord g h ∧ h.preds = g.preds ∧
      (∀ l r, l < 32 → r < 256 → (acts g w l = false ∨ r ≠ wD w) → h.reg l r = g.reg l r) ∧
      ∀ l, l < 32 → acts g w l = true → wD w ≠ 255 →
        let n := if wSub w / 256 % 16 ≤ 1 then 16 else 8
        let lo := n * (wSub w % 4)
        h.reg l (wD w) / 2 ^ lo % 2 ^ n = convF (convFmt w).1 (wMod w) (convFmt w).2 (decF fp32 (g.reg l (wA w))) ∧
        ∀ i, i < 32 → (i < lo ∨ lo + n ≤ i) → (h.reg l (wD w)).testBit i = (g.reg l (wD w)).testBit i)

/-- Every floating-point and conversion instruction of Tables 112 and 113 completes with its operation's result. The model's choices in it
are log entry 36. -/
def Obligations.FloatInstructions : Prop := FloatResults ∧ ConversionResults

/-- A NaN that an operation answers is the canonical NaN of its format. -/
def Obligations.CanonicalNan : Prop :=
  ∀ f ∈ [fp32, fp16, bf16], ∀ rm a b c : Nat,
    (isNan f (fAdd f rm a b) = true → fAdd f rm a b = f.nanBits) ∧
    (isNan f (fMul f rm a b) = true → fMul f rm a b = f.nanBits) ∧
    (isNan f (fFma f rm a b c) = true → fFma f rm a b c = f.nanBits) ∧
    (isNan f (fDiv f rm a b) = true → fDiv f rm a b = f.nanBits)

/-- FADD, FMUL and FFMA round to nearest: for finite operands and a finite result, no finite FP32 number lies nearer to the exact
result than the one answered. -/
def Obligations.RoundsToNearest : Prop :=
  (∀ (x : Dy) (z : Bool) (y : Nat), isFin fp32 (roundDy fp32 0 z x) = true → isFin fp32 y = true →
    ((val32 (roundDy fp32 0 z x)).sub x).abs.le ((val32 y).sub x).abs = true) ∧
  (∀ a b c : Nat, isFin fp32 a = true → isFin fp32 b = true → isFin fp32 c = true →
    (∃ z, fAdd fp32 0 a b = roundDy fp32 0 z ((val32 a).add (val32 b))) ∧
    (∃ z, fMul fp32 0 a b = roundDy fp32 0 z ((val32 a).mul (val32 b))) ∧
    (∃ z, fFma fp32 0 a b c = roundDy fp32 0 z (((val32 a).mul (val32 b)).add (val32 c))))

/-- FMIN and FMAX: with one NaN the other operand, with two the canonical NaN, and −0 below +0. -/
def Obligations.MinMaxSpecialValues : Prop :=
  (∀ a b : Nat, isNan fp32 a = true → isNan fp32 b = false → fMin fp32 a b = b ∧ fMax fp32 a b = b ∧ fMin fp32 b a = b ∧ fMax fp32 b a = b) ∧
  (∀ a b : Nat, isNan fp32 a = true → isNan fp32 b = true → fMin fp32 a b = 0x7FC00000 ∧ fMax fp32 a b = 0x7FC00000) ∧
  fMin fp32 0 0x80000000 = 0x80000000 ∧ fMin fp32 0x80000000 0 = 0x80000000 ∧ fMax fp32 0 0x80000000 = 0 ∧ fMax fp32 0x80000000 0 = 0

/-- F2I: NaN gives 0, and a value beyond the target range the nearest end of the range.  I2F rounds with MOD[1:0]. -/
def Obligations.IntegerConversionLimits : Prop :=
  GivesD .i2f [0x41] (fun _ g w l =>
    BitVec.ofNat 32 (fOfInt (wMod w % 4) (if (wMod w).testBit 3 then ((srcA g w l).toNat : Int) else (srcA g w l).toInt))) ∧
  ∀ rm x : Nat, rm < 4 →
    (isNan fp32 x = true → f2i rm false x = 0 ∧ f2i rm true x = 0) ∧
    (∀ neg : Bool, decF fp32 x = .inf neg →
      f2i rm false x = (if neg then 0x80000000 else 0x7FFFFFFF) ∧ f2i rm true x = (if neg then 0 else 0xFFFFFFFF)) ∧
    (isFin fp32 x = true →
      ((Dy.int (2 ^ 31 - 1)).lt (val32 x) = true → f2i rm false x = 0x7FFFFFFF) ∧
      ((val32 x).lt (Dy.int (-2 ^ 31)) = true → f2i rm false x = 0x80000000) ∧
      ((Dy.int (2 ^ 32 - 1)).lt (val32 x) = true → f2i rm true x = 0xFFFFFFFF) ∧
      ((val32 x).lt (Dy.int 0) = true → f2i rm true x = 0))

/-! ## Loads, stores, atomics and locks -/

namespace Sys2Proof.Claims

/-- The address that LD or ST forms in lane `l` (R439). -/
def loadAddr (g : Group) (w l : Nat) : Nat :=
  if wMod w = 0 then
    (BitVec.ofNat 64 (g.reg l (wA w) + 2 ^ 32 * g.reg l (wA w + 1)) + (BitVec.ofNat 24 w).signExtend 64).toNat
  else (srcA g w l + (BitVec.ofNat 24 w).signExtend 32).toNat

/-- The address of lane `l` in ATOM, LOCK and UNLOCK (R443). -/
def atomAddr (g : Group) (w l : Nat) : Nat :=
  if wSub w % 4 = 0 then g.reg l (wA w) + 2 ^ 32 * g.reg l (wA w + 1) else g.reg l (wA w)

/-- No lane in which the word acts raises a fault at its address. -/
def AccessesPass (s : State) (g : Group) (w space n : Nat) (addr : Nat → Nat) : Prop :=
  ∀ l, l < 32 → acts g w l = true → s.accessFault g space (addr l) n n = 0

/-- Byte `j` of the run of registers from `r` in lane `l`. -/
def runByte (g : Group) (l r j : Nat) : Byte := BitVec.ofNat 8 (g.reg l (r + j / 4) / 2 ^ (8 * (j % 4)))

/-- Where byte `x` of a space stands: memory (0), the Shared Field (1) or the lane core's own local store (2), and the address there. -/
def placeOf (s : State) (g : Group) (space x : Nat) : Nat × Nat :=
  match space with
  | 0 => (0, x)
  | 1 => (1, x)
  | _ => if x < g.frameLen - 256 then (2, g.frame + x) else (1, s.localOvf g x)

/-- The byte at a place. -/
def placeByte (s : State) (lc : Nat) (p : Nat × Nat) : Byte :=
  match p.1 with
  | 0 => byteAt s.mem p.2
  | 1 => byteAt s.sf p.2
  | _ => byteAt (s.lcore lc).store p.2

/-- The engine outside memory, the Shared Field, the local stores, the cache parts and the groups is as before, but for the counts of issued
words and of accesses; a lane core other than the group's own keeps everything but lines of its cache part, and the group's own keeps all
but these and its store. -/
structure OnlyStores (s t : State) (lc : Nat) : Prop where
  rest : t = { moved s t with groups := t.groups, mem := t.mem, sf := t.sf, sfPoison := t.sfPoison, lcs := t.lcs, out := t.out }
  others : ∀ i, i ≠ lc → CacheLeft (s.lcore i) (t.lcore i)
  own : CacheLeft { s.lcore lc with store := (t.lcore lc).store } (t.lcore lc)
  poison : ∀ l ∈ t.sfPoison, l ∈ s.sfPoison
  counted : issuedCount t lc = (issuedCount s lc + 1) % 2 ^ 64
  regs : RegsBut (issueRegs lc ++ portRegs) s t
  entries : SameEntries s t

end Sys2Proof.Claims

/-- LD from LOCAL completes with the loaded bytes, extended to whole registers, in each lane in which it acts. -/
def Sys2Proof.Claims.LocalLoadResult : Prop :=
  ∀ (s : State) (lc : Fin 16) (slot : Fin 64) (g : Group) (w : Nat), Issues s lc slot g w → wOpc w = 0x50 → wMod w = 2 →
    AccessesPass s g w 2 (2 ^ wSize w) (loadAddr g w) →
    ∃ t h, exec (.ld lc slot) s = .next t ∧ OnlyGroup s t lc slot g h ∧ NextWord g h ∧ h.preds = g.preds ∧
      (∀ l r, l < 32 → r < 256 → (acts g w l = false ∨ r < wD w ∨ wD w + max 1 (2 ^ wSize w / 4) ≤ r) → h.reg l r = g.reg l r) ∧
      ∀ l, l < 32 → acts g w l = true → wD w ≠ 255 →
        (∀ j, j < 2 ^ wSize w → runByte h l (wD w) j = placeByte s lc (placeOf s g 2 (loadAddr g w l + j))) ∧
        (wSize w ≤ 1 → h.reg l (wD w) / 2 ^ (8 * 2 ^ wSize w) =
          if wSign w && (runByte h l (wD w) (2 ^ wSize w - 1)).msb then 2 ^ 32 / 2 ^ (8 * 2 ^ wSize w) - 1 else 0)

namespace Sys2Proof.Claims

/-- What the return of a GLOBAL load does to the cache parts (R391): the lane core's own holds lines that it held and, unless its split
leaves it none, the lines that the load missed, as memory has them; the rest of it, and every other lane core, is as before. -/
structure LinesFilled (s t : State) (lc : Fin 16) (g : Group) (x : LoadSt) : Prop where
  others : ∀ i, i ≠ lc.val → t.lcore i = s.lcore i
  own : t.lcore lc = { s.lcore lc with cache := (t.lcore lc).cache }
  held : ∀ c ∈ (t.lcore lc).cache, c ∈ (s.lcore lc).cache ∨
    (c.2 = s.memGet (128 * c.1) 128 ∧ ∃ e ∈ x.addrs, e.2 / 128 = c.1 ∧ (s.lcore lc).hits e.2 = false)
  filled : (s.lcore lc).cache.length + x.addrs.length ≤ (s.lcore lc).lines → x.space = 0 →
    ∀ e ∈ x.addrs, (t.lcore lc).hits e.2 = true

end Sys2Proof.Claims

/-- LD from GLOBAL, FIELD or IN goes on to the next word and waits for the data of the lanes in which it acts; when the data arrives
without a fault, LOAD_DATA_RETURN writes the lanes' registers and ends the wait; a GLOBAL load takes the lines that its core's cache part
holds, and fills it with those that it lacks. -/
def Sys2Proof.Claims.LoadWaitsAndReturns : Prop :=
  (∀ (s : State) (lc : Fin 16) (slot : Fin 64) (g : Group) (w : Nat), Issues s lc slot g w → wOpc w = 0x50 → wMod w ≠ 2 →
    AccessesPass s g w (wMod w) (2 ^ wSize w) (loadAddr g w) → (∃ l, l < 32 ∧ acts g w l = true) →
    ∃ t, exec (.ld lc slot) s = .next t ∧
      OnlyGroup s t lc slot g { g with
        pc := g.pc + 8,
        wait := .load { space := wMod w, size := 2 ^ wSize w, sign := wSign w, dest := wD w,
                        addrs := ((List.range 32).filter (acts g w)).map (fun l => (l, loadAddr g w l)) } }) ∧
  (∀ (s : State) (lc : Fin 16) (slot : Fin 64) (g : Group) (x : LoadSt), s.canonical = true → s.groupAt lc slot = some g →
    g.wait = .load x → s.laneWaits lc slot = false → (x.addrs.map (fun e => e.1)).Nodup → (∀ e ∈ x.addrs, e.1 < 32) →
    x.size = 2 ^ (Nat.log2 x.size) → x.size ≤ 16 → (x.dest + max 1 (x.size / 4) ≤ 255 ∨ (x.dest = 255 ∧ x.size ≤ 4)) →
    g.live ≠ 0 → g.active ≠ 0 → g.pc < (s.progOf g.prog).codeLen →
    (x.space = 0 → ∀ e ∈ x.addrs, (s.lcore lc).hits e.2 = true ∨ s.maps (48 + lc) e.2 x.size false = true) →
    (x.space = 1 ∨ (x.space = 3 ∧ g.launch = 3) → s.sfPoison = []) →
    ∃ t h, exec (.loadDataReturn lc slot 0) s = .next t ∧
      t = { moved s t with groups := s.groups.map (fun y => if y.id = g.id then h else y), lcs := t.lcs } ∧ t.groupAt lc slot = some h ∧
      SameEntries s t ∧ RegsBut portRegs s t ∧ (x.space ≠ 0 → t = { s with groups := t.groups }) ∧ LinesFilled s t lc g x ∧
      h = { g with wait := .none, regs := h.regs } ∧
      (∀ l r, l < 32 → r < 256 → ((∀ e ∈ x.addrs, e.1 ≠ l) ∨ r < x.dest ∨ x.dest + max 1 (x.size / 4) ≤ r) → h.reg l r = g.reg l r) ∧
      ∀ e ∈ x.addrs, x.dest ≠ 255 →
        (∀ j, j < x.size → some (runByte h e.1 x.dest j) =
          (if x.space = 0 then t.loadGet lc e.2 x.size else s.spaceGet g e.1 x.space e.2 x.size)[j]?) ∧
        (x.size < 4 → h.reg e.1 x.dest / 2 ^ (8 * x.size) =
          if x.sign && (runByte h e.1 x.dest (x.size - 1)).msb then 2 ^ 32 / 2 ^ (8 * x.size) - 1 else 0))

/-- LD and the return of its data. The model's choices in it are log entries 39, 40, 84 and 86. -/
def Obligations.LoadInstructions : Prop := LocalLoadResult ∧ LoadWaitsAndReturns

/-- ST completes: each byte that some lane stores takes the value of the highest-numbered lane that stores it, and every other byte of
memory, of the Shared Field and of the local store is as before; no lane core's cache part keeps a line of GLOBAL that is stored to. The
model's choices in it are log entries 39 and 84. -/
def Obligations.StoreResult : Prop :=
  ∀ (s : State) (lc : Fin 16) (slot : Fin 64) (g : Group) (w : Nat), Issues s lc slot g w → wOpc w = 0x51 →
    AccessesPass s g w (wMod w) (2 ^ wSize w) (loadAddr g w) →
    ∃ t, exec (.st lc slot) s = .next t ∧ OnlyStores s t lc ∧ GroupsBut s t lc slot g { g with pc := g.pc + 8 } ∧
      (wMod w ≠ 0 → t.mem = s.mem ∧ t.out = s.out ∧ ∀ i, (t.lcore i).cache = (s.lcore i).cache) ∧
      (wMod w = 0 → ∀ i, (t.lcore i).cache = (s.lcore i).cache.filter (fun c =>
        !(List.range 32).any (fun l => acts g w l && loadAddr g w l / 128 == c.1))) ∧
      (∀ p : Nat × Nat, p.1 < 3 →
        (∀ l j, l < 32 → j < 2 ^ wSize w → acts g w l = true → placeOf s g (wMod w) (loadAddr g w l + j) ≠ p) →
        placeByte t lc p = placeByte s lc p) ∧
      ∀ l j, l < 32 → j < 2 ^ wSize w → acts g w l = true →
        (∀ l' j', l' < 32 → j' < 2 ^ wSize w → acts g w l' = true → (l < l' ∨ (l = l' ∧ j < j')) →
          placeOf s g (wMod w) (loadAddr g w l' + j') ≠ placeOf s g (wMod w) (loadAddr g w l + j)) →
        placeByte t lc (placeOf s g (wMod w) (loadAddr g w l + j)) = runByte g l (wD w) j

namespace Sys2Proof.Claims

/-- The value that an atomic operation leaves (Table 115). -/
def atomResult (m : Nat) (old b c : Nat) : Nat :=
  let o := BitVec.ofNat 32 old
  let x := BitVec.ofNat 32 b
  match m with
  | 0 => (o + x).toNat
  | 1 => if x.slt o then x.toNat else o.toNat
  | 2 => if o.slt x then x.toNat else o.toNat
  | 3 => if x.ult o then x.toNat else o.toNat
  | 4 => if o.ult x then x.toNat else o.toNat
  | 5 => (o &&& x).toNat
  | 6 => (o ||| x).toNat
  | 7 => (o ^^^ x).toNat
  | 8 => b
  | 9 => if old = c then b else old
  | 10 => fAdd fp32 0 old b
  | 11 => (BitVec.ofNat 64 old + BitVec.ofNat 64 b).toNat
  | 12 => b
  | _ => if old = c then b else old

/-- The register or pair at `r` of lane `l` as one value of `n` bytes. -/
def operand (g : Group) (l r n : Nat) : Nat := if n = 8 then g.reg l r + 2 ^ 32 * g.reg l (r + 1) else g.reg l r

/-- The `n`-byte word at an address of GLOBAL or FIELD. -/
def wordAt (s : State) (space a n : Nat) : Nat := leVal ((List.range n).map (fun i => byteAt (if space = 0 then s.mem else s.sf) (a + i)))

/-- The word at address `a` after the operations of the lanes of `ls` that name it, in that order. -/
def atomChain (s : State) (g : Group) (w n a : Nat) (ls : List Nat) : Nat :=
  (ls.filter (fun l => acts g w l && atomAddr g w l == a)).foldl
    (fun v l => atomResult (wMod w) v (operand g l (wB w) n) (operand g l (wC w) n)) (wordAt s (wSub w % 4) a n)

end Sys2Proof.Claims

/-- ATOM on GLOBAL or FIELD completes: lanes of one address operate in ascending lane order, each lane's D receives the value that stood
before its own operation, and the word holds what the last one left. The model's choices in it are log entry 39. -/
def Obligations.AtomicResult : Prop :=
  ∀ (s : State) (lc : Fin 16) (slot : Fin 64) (g : Group) (w : Nat), Issues s lc slot g w → wOpc w = 0x58 → wSub w % 4 < 2 →
    let n := if wMod w ≥ 11 then 8 else 4
    AccessesPass s g w (wSub w % 4) n (atomAddr g w) →
    (wSub w % 4 = 1 → ∀ l, l < 32 → acts g w l = true → s.sfPoisonAt (atomAddr g w l) n = none) →
    ∃ t h, exec (.atom lc slot) s = .next t ∧ OnlyStores s t lc ∧ (t.lcore lc).store = (s.lcore lc).store ∧ GroupsBut s t lc slot g h ∧ NextWord g h ∧
      h.preds = g.preds ∧
      (∀ l, l < 32 → acts g w l = true → wD w ≠ 255 →
        operand h l (wD w) n = atomChain s g w n (atomAddr g w l) (List.range l)) ∧
      (∀ l r, l < 32 → r < 256 → (acts g w l = false ∨ r < wD w ∨ wD w + n / 4 ≤ r) → h.reg l r = g.reg l r) ∧
      (∀ l, l < 32 → acts g w l = true →
        wordAt t (wSub w % 4) (atomAddr g w l) n = atomChain s g w n (atomAddr g w l) (List.range 32)) ∧
      (∀ x, (∀ l, l < 32 → acts g w l = true → ¬(atomAddr g w l ≤ x ∧ x < atomAddr g w l + n)) →
        byteAt (if wSub w % 4 = 0 then t.mem else t.sf) x = byteAt (if wSub w % 4 = 0 then s.mem else s.sf) x) ∧
      (wSub w % 4 = 0 → t.sf = s.sf ∧ t.sfPoison = s.sfPoison) ∧ (wSub w % 4 = 1 → t.mem = s.mem ∧ t.out = s.out)

namespace Sys2Proof.Claims

/-- Whether LOCK grants lane `l` its word: the word is 0 and no lower lane of the same issue names it (R403). -/
def lockGranted (s : State) (g : Group) (w l : Nat) : Bool :=
  acts g w l && wordAt s (wSub w % 4) (atomAddr g w l) 4 == 0 &&
    !(List.range l).any (fun k => acts g w k && atomAddr g w k == atomAddr g w l)

/-- The premises of a LOCK or UNLOCK on GLOBAL or FIELD that faults in no lane on its address and meets no poisoned line, in lanes that hold
at most three locks. -/
structure LockPremises (s : State) (lc : Fin 16) (slot : Fin 64) (g : Group) (w : Nat) : Prop where
  issues : Issues s lc slot g w
  space : wSub w % 4 < 2
  pass : AccessesPass s g w (wSub w % 4) 4 (atomAddr g w)
  clean : wSub w % 4 = 1 → ∀ l, l < 32 → acts g w l = true → s.sfPoisonAt (atomAddr g w l) 4 = none
  held : ∀ l, l < 32 → (g.locks.filter (fun k => k.lane == l)).length ≤ 3

/-- The words that LOCK grants hold the identities of the lanes, every other byte is as before, and the group holds the new locks after
those it held. -/
def LocksTaken (s t : State) (g h : Group) (w : Nat) : Prop :=
  (∀ l, l < 32 → lockGranted s g w l = true → wordAt t (wSub w % 4) (atomAddr g w l) 4 = s.identity g l % 2 ^ 32) ∧
  (∀ x, (∀ l, l < 32 → lockGranted s g w l = true → ¬(atomAddr g w l ≤ x ∧ x < atomAddr g w l + 4)) →
    byteAt (if wSub w % 4 = 0 then t.mem else t.sf) x = byteAt (if wSub w % 4 = 0 then s.mem else s.sf) x) ∧
  (wSub w % 4 = 0 → t.sf = s.sf ∧ t.sfPoison = s.sfPoison) ∧ (wSub w % 4 = 1 → t.mem = s.mem ∧ t.out = s.out) ∧
  (t.lcore g.lc).store = (s.lcore g.lc).store ∧
  h.locks = g.locks ++ ((List.range 32).filter (lockGranted s g w)).map
    (fun l => { lane := l, space := wSub w % 4, addr := atomAddr g w l : LockHeld })

end Sys2Proof.Claims

/-- LOCK.TRY completes and sets D[2:0] to whether each lane was granted its word; LOCK.WAIT completes with every lane granted, or leaves
the lanes that were not granted waiting when no word is held by their own group; UNLOCK writes 0 to the words its lanes hold. -/
def Sys2Proof.Claims.LockResults : Prop :=
  (∀ (s : State) (lc : Fin 16) (slot : Fin 64) (g : Group) (w : Nat), LockPremises s lc slot g w → wOpc w = 0x59 → wMod w = 0 →
    ∃ t h, exec (.lockTry lc slot) s = .next t ∧ OnlyStores s t lc ∧ GroupsBut s t lc slot g h ∧ LocksTaken s t g h w ∧
      h = { g with pc := g.pc + 8, preds := h.preds, locks := h.locks } ∧
      ∀ l p, l < 32 → p < 7 → h.pred p l = if acts g w l = true ∧ p = wD w % 8 then lockGranted s g w l else g.pred p l) ∧
  (∀ (s : State) (lc : Fin 16) (slot : Fin 64) (g : Group) (w : Nat), LockPremises s lc slot g w → wOpc w = 0x59 → wMod w = 1 →
    (∀ l, l < 32 → acts g w l = true → lockGranted s g w l = true) →
    ∃ t h, exec (.lockWait lc slot) s = .next t ∧ LocksTaken s t g h w ∧ GroupsBut s t lc slot g h ∧
      OnlyStores { s with lockClock := s.lockClock + 1 } t lc ∧ h = { g with pc := g.pc + 8, wait := .none, locks := h.locks }) ∧
  (∀ (s : State) (lc : Fin 16) (slot : Fin 64) (g : Group) (w : Nat), LockPremises s lc slot g w → wOpc w = 0x59 → wMod w = 1 →
    (∀ l, l < 32 → acts g w l = true → wordAt s (wSub w % 4) (atomAddr g w l) 4 ≠ 0 ∧
      s.sameGroup g (wordAt s (wSub w % 4) (atomAddr g w l) 4) = false) → (∃ l, l < 32 ∧ acts g w l = true) →
    ∃ t, exec (.lockWait lc slot) s = .next t ∧ RegsBut (issueRegs lc ++ portRegs) s t ∧ SameEntries s t ∧
      t = { moved s t with lockClock := s.lockClock + 1, groups := t.groups } ∧
      let waiting := ((List.range 32).filter (acts g w)).map (fun l => (l, atomAddr g w l))
      GroupsBut s t lc slot g { g with pc := g.pc + 8, wait := .locks (wSub w % 4) s.lockClock waiting }) ∧
  (∀ (s : State) (lc : Fin 16) (slot : Fin 64) (g : Group) (w : Nat), LockPremises s lc slot g w → wOpc w = 0x5A →
    (∀ l, l < 32 → acts g w l = true → wordAt s (wSub w % 4) (atomAddr g w l) 4 = s.identity g l) →
    ∃ t h, exec (.unlock lc slot) s = .next t ∧ OnlyStores s t lc ∧ (t.lcore lc).store = (s.lcore lc).store ∧ GroupsBut s t lc slot g h ∧
      h = { g with pc := g.pc + 8, locks := g.locks.filter (fun k => !(acts g w k.lane && decide (k.lane < 32) && k.space == wSub w % 4 &&
        k.addr == atomAddr g w k.lane)) } ∧
      (∀ l, l < 32 → acts g w l = true → wordAt t (wSub w % 4) (atomAddr g w l) 4 = 0) ∧
      (∀ x, (∀ l, l < 32 → acts g w l = true → ¬(atomAddr g w l ≤ x ∧ x < atomAddr g w l + 4)) →
        byteAt (if wSub w % 4 = 0 then t.mem else t.sf) x = byteAt (if wSub w % 4 = 0 then s.mem else s.sf) x))

namespace Sys2Proof.Claims

/-- Since when a group waits on a lock word, if it does. -/
def lockWaitOf (g : Group) (space a : Nat) : Option Nat :=
  match g.wait with
  | .locks sp t l => if sp = space ∧ l.any (fun e => e.2 == a) = true then some t else none
  | _ => none

end Sys2Proof.Claims

/-- LOCK_RETRY grants a lock word that is 0 to the lane of the group that began to wait on it first. -/
def Sys2Proof.Claims.LockRetryGrants : Prop :=
  ∀ (s : State) (space : Fin 2) (addr : DWord) (g : Group) (since lane : Nat) (l : List (Nat × Nat)),
    s.canonical = true → g ∈ s.groups → g.saved = false → s.mayWork (lcUnit g.lc) g.cls = true →
    wordAt s space addr.toNat 4 = 0 → (space = 0 → s.maps (48 + g.lc) addr.toNat 4 true = true) → g.wait = .locks space since l → (lane, addr.toNat) ∈ l →
    (∀ e ∈ l, e.2 = addr.toNat → e.1 = lane) → (g.locks.filter (fun k => k.lane == lane)).length ≤ 3 →
    (∀ g' ∈ s.groups, g'.id ≠ g.id → ∀ t, lockWaitOf g' space addr.toNat = some t → since < t) →
    g.live ≠ 0 → g.active ≠ 0 → g.pc < (s.progOf g.prog).codeLen →
    let rest := l.filter (fun e => e.1 != lane)
    let h : Group := { g with
      locks := g.locks ++ [{ lane := lane, space := space, addr := addr.toNat }],
      wait := if rest.isEmpty then .none else .locks space since rest }
    ∃ t, exec (.lockRetry space addr) s = .next t ∧ t.groups = s.groups.map (fun x => if x.id = g.id then h else x) ∧
      t = { s with groups := t.groups, mem := t.mem, sf := t.sf, lcs := t.lcs, out := t.out } ∧ (∀ i, CacheLeft (s.lcore i) (t.lcore i)) ∧
      wordAt t space addr.toNat 4 = s.identity g lane % 2 ^ 32 ∧ (space = 0 → t.sf = s.sf) ∧ (space = 1 → t.mem = s.mem ∧ t.out = s.out) ∧
      ∀ x, (x < addr.toNat ∨ addr.toNat + 4 ≤ x) → byteAt (if space = 0 then t.mem else t.sf) x = byteAt (if space = 0 then s.mem else s.sf) x

/-- The lock instructions and the grant to a waiting lane. The model's choices in it are log entry 41. -/
def Obligations.LockInstructions : Prop := LockResults ∧ LockRetryGrants

/-! ## Control -/

namespace Sys2Proof.Claims

/-- The group goes on as `h`; nothing outside its groups changes but the counts of issued words (R446). -/
def Control (c : Fin 16 → Fin 64 → Instr) (op : Nat) (pre : State → Group → Nat → Prop) (f : Group → Nat → Group) : Prop :=
  ∀ (s : State) (lc : Fin 16) (slot : Fin 64) (g : Group) (w : Nat), Issues s lc slot g w → wOpc w = op → pre s g w →
    ∃ t, exec (c lc slot) s = .next t ∧ OnlyGroup s t lc slot g (f g w)

/-- The mask of lanes for which `p` holds. -/
def mask (p : Nat → Bool) : Nat := maskOf ((List.range 32).filter p)

/-- A target that control may go to (R446). -/
def goodTarget (s : State) (g : Group) (t : Nat) : Prop := t % 8 = 0 ∧ t < (s.progOf g.prog).codeLen

/-- The entries that a divergence stack can hold (R386). -/
def stackRoom (s : State) : Nat := if s.ovfBytes = 0 then 48 else 256

/-- The group with one entry pushed on its divergence stack: the core keeps the top 16 entries, and the lowest of them spills (R386). -/
def pushed (g : Group) (e : Nat × Nat) : Group :=
  if g.divs.length < 16 then { g with divs := e :: g.divs } else { g with divs := e :: g.divs.dropLast, spilled := g.spilled + 1 }

/-- The group with entries pushed, the last of the list first. -/
def pushedAll (g : Group) (l : List (Nat × Nat)) : Group := l.foldr (fun e g => pushed g e) g

/-- Whether the place of spilled entry `j` of a group shares no byte with those of the others from `lo` to `hi` − 1. -/
def apart (s : State) (g : Group) (lo hi j : Nat) : Prop :=
  32 ≤ j → ∀ i, lo ≤ i → i < hi → 32 ≤ i → i ≠ j → s.divPlace g i + 8 ≤ s.divPlace g j ∨ s.divPlace g j + 8 ≤ s.divPlace g i

/-- Of the local stores and the Shared Field only the places of a group's spilled entries `lo` to `hi` − 1, numbered from the bottom of its
stack, are written, and those entries read as `f` says (R379, R386). -/
structure SpillsOnly (s t : State) (g : Group) (lo hi : Nat) (f : Nat → Nat × Nat) : Prop where
  cores : ∀ i, t.lcore i = { s.lcore i with store := (t.lcore i).store } ∧ (i ≠ g.lc → t.lcore i = s.lcore i)
  store : ∀ x, (∀ j, lo ≤ j → j < hi → j < 32 → x < s.divPlace g j ∨ s.divPlace g j + 8 ≤ x) →
    byteAt (t.lcore g.lc).store x = byteAt (s.lcore g.lc).store x
  field : ∀ x, (∀ j, lo ≤ j → j < hi → 32 ≤ j → x < s.divPlace g j ∨ s.divPlace g j + 8 ≤ x) → byteAt t.sf x = byteAt s.sf x
  reads : ∀ j, lo ≤ j → j < hi → apart s g lo hi j → t.divRead g j = f j

/-- An instruction of a group that pushes the entries `rest` on its divergence stack, top first, and leaves it as `h` otherwise: only the
spilled entries are written outside the group, and only the counts of issued words move among the registers. -/
structure Diverges (s t : State) (lc slot : Nat) (g h : Group) (rest : List (Nat × Nat)) : Prop where
  groups : GroupsBut s t lc slot g (pushedAll h rest)
  only : t = { s with groups := t.groups, regs := t.regs, lcs := t.lcs, sf := t.sf }
  spills : SpillsOnly s t g g.spilled (pushedAll h rest).spilled (fun j =>
    let e := ((rest ++ g.divs).reverse[j - g.spilled]?).getD (0, 0)
    (e.1 % 2 ^ 32, e.2 % 2 ^ 32))
  counted : issuedCount t lc = (issuedCount s lc + 1) % 2 ^ 64
  regs : RegsBut (issueRegs lc) s t

/-- As `Control`, for a group that goes on as the first part of `f` with the entries of the second pushed on its divergence stack. -/
def Diverting (c : Fin 16 → Fin 64 → Instr) (op : Nat) (pre : State → Group → Nat → Prop) (f : Group → Nat → Group × List (Nat × Nat)) :
    Prop :=
  ∀ (s : State) (lc : Fin 16) (slot : Fin 64) (g : Group) (w : Nat), Issues s lc slot g w → wOpc w = op → pre s g w →
    ∃ t, exec (c lc slot) s = .next t ∧ Diverges s t lc slot g (f g w).1 (f g w).2

/-- The way that BRA and CALL send a group whose target is good: where it goes on, and what waits on its divergence stack (R446). -/
def branched (g : Group) (w : Nat) : Group × List (Nat × Nat) :=
  let go := mask (acts g w)
  let stay := mask (fun l => g.active.testBit l && !acts g w l)
  if go = 0 then ({ g with pc := g.pc + 8 }, [])
  else if stay = 0 then ({ g with pc := wTarget w }, [])
  else ({ g with active := go, pc := wTarget w }, [(stay, g.pc + 8)])

end Sys2Proof.Claims

/-- BRA with a good target: with no branching lane the group goes on, with every lane branching it goes to the target, and otherwise the
branching lanes run first while the others wait at the next word on the divergence stack. -/
def Sys2Proof.Claims.BranchResult : Prop :=
  Diverting .bra 0x60 (fun s g w => goodTarget s g (wTarget w) ∧ g.divs.length + g.spilled < stackRoom s ∧ g.active < 2 ^ 32) branched

/-- CALL branches as BRA and writes the offset of the next word to D in the branching lanes. -/
def Sys2Proof.Claims.CallResult : Prop :=
  ∀ (s : State) (lc : Fin 16) (slot : Fin 64) (g : Group) (w : Nat), Issues s lc slot g w → wOpc w = 0x62 →
    goodTarget s g (wTarget w) → g.divs.length + g.spilled < stackRoom s → g.active < 2 ^ 32 →
    ∃ t h, exec (.call lc slot) s = .next t ∧ WritesD g h w (fun _ => BitVec.ofNat 32 (g.pc + 8)) ∧
      { h with regs := g.regs } = (branched g w).1 ∧ Diverges s t lc slot g h (branched g w).2

/-- BRX: the lanes of the lowest target run first, one entry waits for each other target in rising order, and last the lanes whose guard is
false wait at the next word. -/
def Sys2Proof.Claims.IndirectBranchResult : Prop :=
  Diverting .brx 0x61
    (fun s g w => (∀ l, l < 32 → acts g w l = true → goodTarget s g (g.reg l (wA w))) ∧ g.divs.length + g.spilled + 32 ≤ stackRoom s ∧
      g.active < 2 ^ 32)
    (fun g w =>
      let targets := (((List.range 32).filter (acts g w)).map (fun l => g.reg l (wA w))).mergeSort (fun a b => decide (a ≤ b))
      let stay := mask (fun l => g.active.testBit l && !acts g w l)
      let paths := (dedup targets).map (fun x => (mask (fun l => acts g w l && g.reg l (wA w) == x), x)) ++
        (if stay = 0 then [] else [(stay, g.pc + 8)])
      match paths with
      | [] => (g, [])
      | p :: rest => ({ g with active := p.1, pc := p.2 }, rest))

/-- The branches of Table 117. -/
def Obligations.BranchInstructions : Prop := BranchResult ∧ CallResult ∧ IndirectBranchResult

/-- RMARK pushes the active mask with the target; RJOIN pops the top entry, whose lanes go on to the next word at their own
reconvergence point and run from the entry's offset elsewhere, and the entry that spilled last comes back to the core. -/
def Sys2Proof.Claims.ReconvergenceResult : Prop :=
  Diverting .rmark 0x64 (fun s g w => goodTarget s g (wTarget w) ∧ g.divs.length + g.spilled < stackRoom s)
    (fun g w => ({ g with pc := g.pc + 8 }, [(g.active, wTarget w)])) ∧
  (∀ (s : State) (lc : Fin 16) (slot : Fin 64) (g : Group) (w m at_ : Nat) (rest : List (Nat × Nat)), Issues s lc slot g w →
    wOpc w = 0x65 → g.divs = (m, at_) :: rest → m ≠ 0 → at_ < (s.progOf g.prog).codeLen →
    ∃ t, exec (.rjoin lc slot) s = .next t ∧
      OnlyGroup s t lc slot g { g with
        active := m, pc := if at_ = g.pc then g.pc + 8 else at_,
        divs := if g.spilled = 0 then rest else rest ++ [s.divRead g (g.spilled - 1)], spilled := g.spilled - 1 })

namespace Sys2Proof.Claims

/-- The premises of EXIT in lanes that have ended their items. -/
structure Exits (s : State) (lc : Fin 16) (slot : Fin 64) (g : Group) (w : Nat) : Prop where
  issues : Issues s lc slot g w
  opcode : wOpc w = 0x66
  ended : ∀ l, l < 32 → acts g w l = true → ∃ x, g.lanes[l]? = some x ∧ x.ended = true
  masks : g.active &&& g.live = g.active ∧ g.live < 2 ^ 32

/-- A mask without the lanes in which a word acts. -/
def keepOf (g : Group) (w m : Nat) : Nat := m &&& (0xFFFFFFFF ^^^ mask (acts g w))

/-- The group after the lanes in which a word acts have left every mask that the core holds (R385). -/
def leftBy (g : Group) (w : Nat) : Group :=
  { g with pc := g.pc + 8, live := keepOf g w g.live, active := keepOf g w g.active, divs := g.divs.map (fun e => (keepOf g w e.1, e.2)) }

end Sys2Proof.Claims

/-- EXIT of lanes that have ended their items: they leave every mask, those of spilled entries too, the words of the locks that they hold
read 0, and the group goes on with the lanes left; a group with none left is gone. -/
def Sys2Proof.Claims.ExitResult : Prop :=
  (∀ (s : State) (lc : Fin 16) (slot : Fin 64) (g : Group) (w : Nat), Exits s lc slot g w → g.locks = [] →
    (∃ l, l < 32 ∧ g.active.testBit l = true ∧ acts g w l = false) →
    ∃ t, exec (.exit lc slot) s = .next t ∧ GroupsBut s t lc slot g (leftBy g w) ∧
      t = { s with groups := t.groups, regs := t.regs, lcs := t.lcs, sf := t.sf } ∧ RegsBut (issueRegs lc) s t ∧
      SpillsOnly s t g 0 g.spilled (fun j => (keepOf g w (s.divRead g j).1, (s.divRead g j).2))) ∧
  (∀ (s : State) (lc : Fin 16) (slot : Fin 64) (g : Group) (w : Nat), Exits s lc slot g w → g.spilled = 0 → (∀ k ∈ g.locks, k.space < 2) →
    (∃ l, l < 32 ∧ g.active.testBit l = true ∧ acts g w l = false) →
    let given := g.locks.filter (fun k => decide (k.lane < 32) && acts g w k.lane)
    ∃ t, exec (.exit lc slot) s = .next t ∧
      GroupsBut s t lc slot g { leftBy g w with locks := g.locks.filter (fun k => !(decide (k.lane < 32) && acts g w k.lane)) } ∧
      (∀ k ∈ given, wordAt t k.space k.addr 4 = 0) ∧
      (∀ x, (∀ k ∈ given, k.space = 0 → x < k.addr ∨ k.addr + 4 ≤ x) → byteAt t.mem x = byteAt s.mem x) ∧
      (∀ x, (∀ k ∈ given, k.space = 1 → x < k.addr ∨ k.addr + 4 ≤ x) → byteAt t.sf x = byteAt s.sf x) ∧
      t.get (F.lcLockReleased lc) = min (s.get (F.lcLockReleased lc) + given.length) (2 ^ (F.lcLockReleased lc).width - 1) ∧
      RegsBut (F.lcLockReleased lc :: issueRegs lc) s t ∧
      t = { s with groups := t.groups, regs := t.regs, mem := t.mem, sf := t.sf, lcs := t.lcs, out := t.out }) ∧
  ∀ (s : State) (lc : Fin 16) (slot : Fin 64) (g : Group) (w : Nat), Exits s lc slot g w → keepOf g w g.live = 0 → g.launch ≠ 3 →
    g.copies = [] → ∃ t, exec (.exit lc slot) s = .next t ∧ t.groups = s.groups.filter (fun x => x.id != g.id)

/-- Reconvergence and exit. The model's choices in it are log entry 85. -/
def Obligations.ReconvergenceAndExit : Prop := ReconvergenceResult ∧ ExitResult

/-! ## Barriers, copies and the group matrix unit -/

/-- BAR with every live lane active makes the group wait at its barrier without going on; BAR_RELEASE ends the wait and the group goes on to
the next word. -/
def Sys2Proof.Claims.BarrierResult : Prop :=
  Control .bar 0x67 (fun _ g _ => g.active = g.live) (fun g _ => { g with wait := .barrier }) ∧
  (∀ (s : State) (lc : Fin 16) (slot : Fin 64) (g : Group), s.canonical = true → s.groupAt lc slot = some g → g.wait = .barrier →
    s.mayWork (lcUnit lc) g.cls = true → g.live ≠ 0 → g.active ≠ 0 → g.pc + 8 < (s.progOf g.prog).codeLen →
    let h : Group := { g with pc := g.pc + 8, wait := .none }
    ∃ t, exec (.barRelease lc slot) s = .next t ∧ t.groupAt lc slot = some h ∧
      t = { s with groups := s.groups.map (fun x => if x.id = g.id then h else x) })

namespace Sys2Proof.Claims

/-- The copies of an arrival counter that are still in flight: ISSUED minus DONE, both 16-bit and wrapping (R393, R394). -/
def inFlight (g : Group) (c : Nat) : Nat := (((g.counters[c]?).map (fun k => (k.issued + 65536 - k.done) % 65536)).getD 0)

/-- The copy that a CP word starts: from the addresses in the lowest active lane, LEN bytes (R450). -/
def copyOf (g : Group) (w : Nat) : Copy :=
  let l := ((List.range 32).find? (fun l => g.active.testBit l)).getD 0
  let addr := fun (sp r : Nat) => if sp = 0 then g.reg l r + 2 ^ 32 * g.reg l (r + 1) else g.reg l r
  { ctr := wSub w / 2048 % 8, pc := g.pc, srcSpace := wMod w % 4, src := addr (wMod w % 4) (wA w), dstSpace := wMod w / 4,
    dst := addr (wMod w / 4) (wB w), len := 32 * (wSub w % 2048 + 1) }

end Sys2Proof.Claims

/-- CP puts one more copy in flight on its counter; COPY_DONE moves the oldest copy of a counter, counts it done, and ends a CPWAIT whose
bound that meets; CPWAIT goes on to the next word, and waits while more copies than its bound are in flight. -/
def Sys2Proof.Claims.CopyResults : Prop :=
  Control .cp 0x70 (fun s g w => let k := copyOf g w
      s.accessFault g k.srcSpace k.src k.len 32 = 0 ∧ s.accessFault g k.dstSpace k.dst k.len 32 = 0)
    (fun g w => let k := copyOf g w
      { g with pc := g.pc + 8, copies := g.copies ++ [k],
               counters := g.counters.zipIdx.map (fun e => if e.2 = k.ctr then { e.1 with issued := (e.1.issued + 1) % 65536 } else e.1) }) ∧
  Control .cpwait 0x71 (fun _ _ _ => True) (fun g w =>
    let c := wSub w / 2048 % 8
    { g with pc := g.pc + 8, wait := if inFlight g c ≤ wSub w % 128 then .none else .counter c (wSub w % 128) }) ∧
  (∀ (s : State) (lc : Fin 16) (slot : Fin 64) (ctr : Fin 8) (g : Group) (k : Copy), s.canonical = true → s.groupAt lc slot = some g →
    g.copies.find? (fun k => k.ctr == ctr.val) = some k → (∀ f ∈ s.fwaits, f.acc ≠ .copy lc slot ctr) →
    (∀ a wr, k.global = some (a, wr) → s.maps (48 + lc) a k.len wr = true) → (k.srcSpace = 1 → s.sfPoisonAt k.src k.len = none) →
    k.srcSpace < 3 → k.dstSpace < 3 →
    let counters := g.counters.zipIdx.map (fun e => if e.2 = ctr.val then { e.1 with done := (e.1.done + 1) % 65536 } else e.1)
    let after : Group := { g with copies := g.copies.erase k, counters := counters }
    let h : Group := match g.wait with
      | .counter c n => if inFlight after c ≤ n then { after with wait := .none } else after
      | _ => after
    ∃ t, exec (.copyDone lc slot ctr false) s = .next t ∧ GroupsBut s t lc slot g h ∧
      t = { moved s t with groups := t.groups, lcs := t.lcs, mem := t.mem, sf := t.sf, sfPoison := t.sfPoison, out := t.out } ∧
      RegsBut portRegs s t ∧ SameEntries s t ∧ (∀ l ∈ t.sfPoison, l ∈ s.sfPoison) ∧
      (∀ i, i < k.len → (∀ j, i < j → j < k.len → placeOf s g k.dstSpace (k.dst + j) ≠ placeOf s g k.dstSpace (k.dst + i)) →
        placeByte t lc (placeOf s g k.dstSpace (k.dst + i)) = placeByte s lc (placeOf s g k.srcSpace (k.src + i))) ∧
      (∀ p : Nat × Nat, p.1 < 3 → (∀ i, i < k.len → placeOf s g k.dstSpace (k.dst + i) ≠ p) → placeByte t lc p = placeByte s lc p) ∧
      (∀ i, i ≠ lc.val → CacheLeft (s.lcore i) (t.lcore i)) ∧ CacheLeft { s.lcore lc with store := (t.lcore lc).store } (t.lcore lc))

/-- Barriers and asynchronous copies. The model's choices in it are log entries 39, 40 and 86. -/
def Obligations.BarriersAndCopies : Prop := BarrierResult ∧ CopyResults

/-- MMA occupies the free group matrix unit with the products of the fragments as they are when it issues; MMA_COMPLETE writes the results
to D of the live lanes and frees the unit. While the unit is occupied, MMA does not issue. The model's choices in it are log entry 79. -/
def Obligations.MatrixUnitResults : Prop :=
  (∀ (s : State) (lc : Fin 16) (slot : Fin 64) (g : Group) (w : Nat), Issues s lc slot g w → wOpc w = 0x74 → g.active = g.live →
    ∃ t m, exec (.mma lc slot) s = .next t ∧ GroupsBut s t lc slot g { g with pc := g.pc + 8 } ∧
      t = { s with groups := t.groups, lcs := t.lcs, regs := t.regs, macRem := t.macRem } ∧ RegsBut (issueRegs lc) s t ∧
      (t.lcore lc) = { s.lcore lc with mma := some m } ∧ (∀ i, i ≠ lc.val → t.lcore i = s.lcore i) ∧
      m.slot = slot.val ∧ m.group = g.id ∧ m.d = wD w ∧
      (∀ row col, row < 16 → col < 16 → (256 * (2 * row + col / 8) + wD w + col % 8, g.mmaAt w row col) ∈ m.vals) ∧ m.vals.length = 256) ∧
  (∀ (s : State) (lc : Fin 16) (slot : Fin 64) (g : Group) (w : Nat), s.groupAt lc slot = some g → s.codeWord g = some w → wOpc w = 0x74 →
    wordDefined w = true → (wordRuns w).all (runOk (s.progOf g.prog).regs) = true → (s.lcore lc).mma.isSome = true →
    exec (.mma lc slot) s = .next s) ∧
  (∀ (s : State) (lc : Fin 16) (g : Group) (m : MmaOp) (vals : Nat → Nat → Nat), s.canonical = true → (s.lcore lc).mma = some m →
    g ∈ s.groups → m.group = g.id → m.d + 8 ≤ 255 →
    m.vals = (List.range 256).map (fun i => (256 * (2 * (i / 16) + i % 16 / 8) + m.d + i % 16 % 8, vals (i / 16) (i % 16))) →
    ∃ t h, exec (.mmaComplete lc) s = .next t ∧ (t.lcore lc) = { s.lcore lc with mma := none } ∧
      t = { s with groups := t.groups, lcs := t.lcs, regs := t.regs } ∧ RegsBut [F.lcMmaBusy lc] s t ∧
      t.groups = s.groups.map (fun x => if x.id = g.id then h else x) ∧ h = { g with regs := h.regs } ∧
      (∀ row col, row < 16 → col < 16 → g.live.testBit (2 * row + col / 8) = true →
        h.reg (2 * row + col / 8) (m.d + col % 8) = vals row col % 2 ^ 32) ∧
      ∀ l r, l < 32 → r < 256 → (g.live.testBit l = false ∨ r < m.d ∨ m.d + 8 ≤ r) → h.reg l r = g.reg l r)

/-! ## Emission -/

namespace Sys2Proof.Claims

/-- The bytes of the record that lane `l` emits: registers from D, or LOCAL at the address in A (R452). -/
def recordOf (s : State) (g : Group) (w l : Nat) : List Byte :=
  let n := 32 * 2 ^ (wSub w % 4)
  if wMod w = 0 then (List.range n).map (runByte g l (wD w)) else s.localGet g (g.reg l (wA w)) n

/-- The lanes in which a word acts, rising. -/
def actors (g : Group) (w : Nat) : List Nat := (List.range 32).filter (acts g w)

/-- The lanes whose records go to queue `q` (R58). -/
def emittersTo (s : State) (g : Group) (t : Stage) (w q : Nat) : List Nat :=
  (actors g w).filter (fun l => (g.lanes[l]?.map (fun x => t.route (recordOf s g w l) (x.outFlags (recordOf s g w l)))) == some q)

/-- The group with the items of some lanes ended and their input entries given up (R373). -/
def lanesEnded (g : Group) (ls : List Nat) : List LaneIn :=
  g.lanes.zipIdx.map (fun e => if e.2 ∈ ls then { e.1 with ended := true, entry := none } else e.1)

/-- The premises of an emit or of a failed item by a record launch: the dispatch and the stage exist, and the lanes hold items that have
not ended. -/
structure Records (s : State) (lc : Fin 16) (slot : Fin 64) (g : Group) (w : Nat) (d : Dispatch) (t : Stage) : Prop where
  issues : Issues s lc slot g w
  record : g.launch = 1 ∨ g.launch = 2
  disp : s.disp g.disp = some d
  stage : s.stageFor g.disp g.stage = some t
  lanes : ∀ l, l < 32 → acts g w l = true → ∃ x, g.lanes[l]? = some x ∧ x.ended = false

end Sys2Proof.Claims

/-- EMIT of a record launch whose queues have room: each queue receives, in ascending lane order, the records of the lanes routed to it,
and the lanes' items are done in this stage. -/
def Sys2Proof.Claims.EmitResult : Prop :=
  ∀ (s : State) (lc : Fin 16) (slot : Fin 64) (g : Group) (w : Nat) (d : Dispatch) (t : Stage), Records s lc slot g w d t →
    wOpc w = 0x78 → wMod w ≤ 1 → t.out0 ≠ 255 → s.entrySize d t.out0 = 32 * 2 ^ (wSub w % 4) →
    (wMod w = 1 → ∀ l, l < 32 → acts g w l = true →
      s.accessFault g 2 (g.reg l (wA w)) (32 * 2 ^ (wSub w % 4)) (32 * 2 ^ (wSub w % 4)) = 0) →
    (∀ l, l < 32 → acts g w l = true → l ∈ emittersTo s g t w t.out0 ∨ (t.out1 ≠ 255 ∧ l ∈ emittersTo s g t w t.out1)) →
    t.out0 < d.queues.length → (t.out1 ≠ 255 → t.out1 < d.queues.length) → t.input ≠ t.out0 → t.input ≠ t.out1 →
    ∃ u d', exec (.emit lc slot) s = .next u ∧ u.disp g.disp = some d' ∧
      GroupsBut s u lc slot g { g with pc := g.pc + 8, lanes := lanesEnded g (actors g w) } ∧
      u.mem = s.mem ∧ u.out = s.out ∧ u.lcs = s.lcs ∧ RegsBut (issueRegs lc) s u ∧
      (∀ q, q = t.out0 ∨ (q = t.out1 ∧ q ≠ 255) →
        (d'.hq q).appended = (d.hq q).appended + (emittersTo s g t w q).length ∧
        (d'.hq q).entries.map (fun e => (e.pos, e.item)) = (d.hq q).entries.map (fun e => (e.pos, e.item)) ++
          (emittersTo s g t w q).zipIdx.map (fun e => ((d.hq q).appended + e.2, ((g.lanes[e.1]?).map (fun x => x.item)).getD 0))) ∧
      (∀ l x, g.lanes[l]? = some x → l ∈ actors g w → ∀ p, x.entry = some p → ∀ e ∈ (d'.hq t.input).entries, e.pos ≠ p) ∧
      ((actors g w).length = 1 → ∀ l ∈ emittersTo s g t w t.out0, ∃ e ∈ (d'.hq t.out0).entries,
        e.pos = (d.hq t.out0).appended ∧ u.entryBytes d' e.slot t.out0 = recordOf s g w l)

/-- FAILITEM in a record launch ends the items of the lanes in which it acts, and the lanes go on. -/
def Sys2Proof.Claims.FailItemResult : Prop :=
  ∀ (s : State) (lc : Fin 16) (slot : Fin 64) (g : Group) (w : Nat) (d : Dispatch) (t : Stage), Records s lc slot g w d t →
    wOpc w = 0x79 → (∀ l x, g.lanes[l]? = some x → acts g w l = true → x.item < d.rcd.itemCount) →
    ∃ u d', exec (.failitem lc slot) s = .next u ∧ u.disp g.disp = some d' ∧
      GroupsBut s u lc slot g { g with pc := g.pc + 8, lanes := lanesEnded g (actors g w) } ∧ d'.done = d.done ∧ d.fail ≤ d'.fail ∧
      ∀ l x, g.lanes[l]? = some x → acts g w l = true → u.itemEnded g.disp x.item = true

/-- EMIT and FAILITEM of a record launch. -/
def Sys2Proof.Claims.RecordLaunchOutputs : Prop := EmitResult ∧ FailItemResult

/-- TOUT of a tile launch reserves a place of the output tile queue, once, also when the tile has been emitted, and answers its Shared Field
offset in every active lane; EMIT.T publishes the tile at that place with the input tile's FIRST_ITEM and COUNT, and the group is done with
its input tile. -/
def Sys2Proof.Claims.TileOutputResults : Prop :=
  (∀ (s : State) (lc : Fin 16) (slot : Fin 64) (g : Group) (w place : Nat) (d : Dispatch) (t : Stage), Issues s lc slot g w →
    wOpc w = 0x7A → s.disp g.disp = some d → s.stageFor g.disp g.stage = some t → g.launch = 3 → t.out0 ≠ 255 →
    s.entrySize d t.out0 = 65536 → g.out = some place ∨ (g.out = none ∧ s.reservePlace d g.stage t.out0 = some place) →
    ∃ u h, exec (.tout lc slot) s = .next u ∧ OnlyGroup s u lc slot g h ∧ h = { g with pc := g.pc + 8, out := some place, regs := h.regs } ∧
      ∀ l r, l < 32 → r < 256 →
        h.reg l r = if g.active.testBit l = true ∧ r = wD w ∧ r ≠ 255 then s.entryAddr d place t.out0 % 2 ^ 32 else g.reg l r) ∧
  (∀ (s : State) (lc : Fin 16) (slot : Fin 64) (g : Group) (w place : Nat) (d : Dispatch) (t : Stage), Issues s lc slot g w →
    wOpc w = 0x78 → wMod w = 2 → s.disp g.disp = some d → s.stageFor g.disp g.stage = some t → g.launch = 3 → g.tileDone = false →
    g.out = some place → t.out0 < d.queues.length → t.input ≠ t.out0 →
    leVal (s.sfGet (s.entryAddr d place t.out0 + 0x20) 32) = leVal (s.sfGet (g.tile + 0x20) 32) →
    ∃ u d' e, exec (.emitT lc slot) s = .next u ∧ u.disp g.disp = some d' ∧
      GroupsBut s u lc slot g { g with pc := g.pc + 8, tileDone := true } ∧
      (d'.hq t.out0).entries = (d.hq t.out0).entries ++ [e] ∧ (d'.hq t.out0).appended = (d.hq t.out0).appended + 1 ∧
      e.pos = (d.hq t.out0).appended ∧ e.slot = place ∧ e.item = g.tileFirst ∧ e.count = g.tileCount ∧
      u.sfGet (s.entryAddr d place t.out0) 6 = leBytes 4 g.tileFirst ++ leBytes 2 g.tileCount ∧
      (∀ x, (x < s.entryAddr d place t.out0 ∨ s.entryAddr d place t.out0 + 6 ≤ x) → byteAt u.sf x = byteAt s.sf x) ∧
      (∀ y ∈ (d'.hq t.input).entries, y.pos ≠ g.tilePos) ∧ u.mem = s.mem)

/-- CRET in a callout launch gives each lane's ray the reply with its code and with T, U and V from A, B and C; the lanes leave the group,
which goes on with the lanes left or, with none left, is gone. -/
def Sys2Proof.Claims.CalloutReplyResult : Prop :=
  ∀ (s : State) (lc : Fin 16) (slot : Fin 64) (g : Group) (w : Nat), Issues s lc slot g w → wOpc w = 0x7B → 4 ≤ g.launch →
    g.locks = [] → g.live < 2 ^ 32 → g.active &&& g.live = g.active →
    (∀ l, l < 32 → acts g w l = true → ∃ x, g.lanes[l]? = some x ∧ x.ended = false ∧ x.entry = none) →
    (∀ l l' x x', acts g w l = true → acts g w l' = true → g.lanes[l]? = some x → g.lanes[l']? = some x' → l ≠ l' → x.ray ≠ x'.ray) →
    ((∃ l, l < 32 ∧ g.active.testBit l = true ∧ acts g w l = false) →
      ∃ u, exec (.cret lc slot) s = .next u ∧
        GroupsBut s u lc slot g { leftBy g w with lanes := lanesEnded g (actors g w) } ∧
        u = { s with groups := u.groups, rays := u.rays, regs := u.regs, lcs := u.lcs, sf := u.sf } ∧
        SpillsOnly s u g 0 g.spilled (fun j => (keepOf g w (s.divRead g j).1, (s.divRead g j).2)) ∧ RegsBut (issueRegs lc) s u ∧
        (∀ l x r c, l < 32 → acts g w l = true → g.lanes[l]? = some x → s.ray x.ray = some r → r.call = some c →
          ∃ r' c', u.ray x.ray = some r' ∧ r'.call = some c' ∧ c'.fault = false ∧
            c'.reply = some (wSub w % 256, g.reg l (wA w), g.reg l (wB w), g.reg l (wC w))) ∧
        ∀ id, (∀ l x, acts g w l = true → g.lanes[l]? = some x → x.ray ≠ id) → u.ray id = s.ray id) ∧
    (keepOf g w g.live = 0 → g.copies = [] → ∃ u, exec (.cret lc slot) s = .next u ∧ u.groups = s.groups.filter (fun x => x.id != g.id))

/-- The outputs of a tile launch and the reply of a callout launch. -/
def Sys2Proof.Claims.TileAndCalloutOutputs : Prop := TileOutputResults ∧ CalloutReplyResult

/-- What the lanes of a launch give out: records, failed items, tiles and callout replies. The model's choices in it are log entries 43 and
44. -/
def Obligations.LaunchOutputs : Prop := Sys2Proof.Claims.RecordLaunchOutputs ∧ Sys2Proof.Claims.TileAndCalloutOutputs


/-! ## Program faults and thread groups -/

namespace Sys2Proof.Claims

/-- A program fault of every active lane of a record launch without divergence, whose items have ended, is captured: the first of the lane
core names the slot, the lowest active lane, the cause, the program and the code offset, INT_FAULT is raised, LC_PROG_FAULTS counts the
lanes, and the group is gone (R413, R414). -/
structure FaultTaken (s t : State) (lc : Nat) (g : Group) (cause : Nat) : Prop where
  gone : t.groups = s.groups.filter (fun x => x.id != g.id)
  info : s.get (F.lcFailInfoValid lc) = 0 → t.get (F.lcFailInfoValid lc) = 1 ∧ t.get (F.lcFailInfoCause lc) = cause ∧
    t.get (F.lcFailInfoSlot lc) = g.slot.getD 0 % 2 ^ (F.lcFailInfoSlot lc).width ∧
    some (t.get (F.lcFailInfoLane lc)) = (List.range 32).find? (fun l => g.active.testBit l) ∧
    t.get (F.lcFailInfoProg lc) = g.prog % 2 ^ (F.lcFailInfoProg lc).width ∧ t.get (F.lcFailPc lc) = g.pc % 2 ^ (F.lcFailPc lc).width ∧
    (t.get F.intStatus).testBit 1 = true
  kept : s.get (F.lcFailInfoValid lc) = 1 → t.get (F.lcFailInfoCause lc) = s.get (F.lcFailInfoCause lc) ∧
    t.get (F.lcFailPc lc) = s.get (F.lcFailPc lc)
  counted : t.get (F.lcProgFaults lc) =
    min (s.get (F.lcProgFaults lc) + ((List.range 32).countP (fun l => g.active.testBit l))) (2 ^ (F.lcProgFaults lc).width - 1)

/-- A group ready with a word, of a record launch without divergence whose items have all ended, that holds no lock and has no copy in
flight. -/
structure Faultable (s : State) (lc : Fin 16) (slot : Fin 64) (g : Group) (w : Nat) : Prop where
  canonical : s.canonical = true
  ready : s.ready lc slot = some (g, w)
  record : g.launch = 1 ∨ g.launch = 2
  ended : ∀ x ∈ g.lanes, x.ended = true
  active : g.active = g.live ∧ g.live ≠ 0 ∧ g.live < 2 ^ 32
  idle : g.locks = [] ∧ g.copies = []

end Sys2Proof.Claims

/-- UNDEFINED_WORD raises ILLEGAL, cause BAD_OPCODE, in every active lane of a group whose word is not defined; a MOV that names a register
at or above REGS raises BAD_REG; and a group whose NOP was the last word of its program raises PC_RANGE. The model's choices in it are log
entry 42. -/
def Obligations.IllegalWordFaults : Prop :=
  (∀ (s : State) (lc : Fin 16) (slot : Fin 64) (g : Group) (w : Nat), Faultable s lc slot g w → wordDefined w = false →
    ∃ t, exec (.undefinedWord lc slot) s = .next t ∧ FaultTaken s t lc g 0x42) ∧
  (∀ (s : State) (lc : Fin 16) (slot : Fin 64) (g : Group) (w : Nat), Faultable s lc slot g w → wordDefined w = true → wOpc w = 0x1C →
    (wordRuns w).all (runOk (s.progOf g.prog).regs) = false → ∃ t, exec (.mov lc slot) s = .next t ∧ FaultTaken s t lc g 0x43) ∧
  (∀ (s : State) (lc : Fin 16) (slot : Fin 64) (g : Group) (w : Nat), Faultable s lc slot g w → wordDefined w = true → wOpc w = 0x68 →
    (s.progOf g.prog).codeLen = g.pc + 8 →
    ∃ t, exec (.nop lc slot) s = .next t ∧ FaultTaken s t lc { g with pc := g.pc + 8 } 0x4B)

/-- GROUP_CLOSE_TIMEOUT closes a group over the threads that wait at a PROGRAM stage; GROUP_ADMIT gives a closed group that comes first at
its lane core the lowest free slot, that of a preempted group only where no other is free, at the entry of its launch, and a split that
changes empties the cache part; and CODE_LINE_ARRIVE puts a line that a resident group waits for into the code buffer, so that the group's
next word is there. The model's choices in it are log entries 38, 46, 84 and 85. -/
def Obligations.GroupLifeResults : Prop :=
  (∀ (s : State) (lc : Fin 16) (form : Nat) (x : Gather) (t : Stage), s.threadsOf lc form = some x → s.stageFor x.disp x.stage = some t →
    x.launch = 2 → s.noCore t = false → x.full = false → s.sfPoison = [] → x.lanes ≠ [] →
    ∃ u g, exec (.groupCloseTimeout lc form) s = .next u ∧ u.groups = s.groups ++ [g] ∧ u.nextGroup = s.nextGroup + 1 ∧
      g.id = s.nextGroup ∧ g.slot = none ∧ g.disp = x.disp ∧ g.stage = x.stage ∧ g.prog = x.prog ∧ g.launch = 2 ∧
      g.lanes.take x.lanes.length = x.lanes ∧ g.live = 2 ^ x.lanes.length - 1 ∧ g.active = g.live ∧
      g.pc = (s.progOf x.prog).entry 2 ∧ g.regs = [] ∧ g.divs = [] ∧ g.spilled = 0 ∧ u.mem = s.mem ∧ u.sf = s.sf ∧ u.regs = s.regs) ∧
  (∀ (s : State) (lc : Fin 16) (g : Group) (w : Waiting) (a : Nat), s.canonical = true → g ∈ s.groups → g.slot = none → g.saved = false →
    leastBy (fun (a b : Waiting) => a.before b) (s.waitingAt lc) = some w → w.form = 4 * g.id →
    s.admission lc g.prog (decide (g.launch < 4)) = some a →
    let used := (s.resident lc).filterMap (fun g => g.slot)
    let kept := (s.groups.filter (fun x => x.lc == lc.val && x.saved)).filterMap (fun g => g.slot)
    ∃ u h, exec (.groupAdmit lc (4 * g.id)) s = .next u ∧ u.group g.id = some h ∧ h = { g with
        lc := lc.val, slot := h.slot, frame := a, frameLen := (s.progOf g.prog).frame, age := (s.lcore lc).admitted } ∧
      (∀ i, i < 64 → i ∉ used → i ∉ kept → ∃ k, h.slot = some k ∧ k ∉ used ∧ k ∉ kept ∧ k ≤ i) ∧
      (∀ i, i < 64 → i ∉ used → ∃ k, h.slot = some k ∧ k ∉ used ∧ (k ≤ i ∨ k ∉ kept)) ∧ (u.lcore lc).split = (s.progOf g.prog).split ∧
      (u.lcore lc).cache = (if (s.lcore lc).split = (s.progOf g.prog).split then (s.lcore lc).cache else []) ∧
      (u.lcore lc).admitted = (s.lcore lc).admitted + 1 ∧ (u.lcore lc).store = (s.lcore lc).store ∧
      u = { s with groups := u.groups, lcs := u.lcs }) ∧
  (∀ (s : State) (lc : Fin 16) (addr : DWord) (slot : Nat) (g : Group), s.canonical = true → s.groupAt lc slot = some g →
    s.codeLine g = addr.toNat / 128 → s.codeWord g = none → s.inService (lcUnit lc) = true → s.fwaits = [] →
    s.maps (48 + lc) (128 * (addr.toNat / 128)) 128 false = true → (s.progOf g.prog).codeAddr % 8 = 0 → g.pc % 8 = 0 →
    ∃ t, exec (.codeLineArrive lc addr .ok) s = .next t ∧ t = { moved s t with lcs := t.lcs } ∧ SameEntries s t ∧ RegsBut portRegs s t ∧
      (t.lcore lc).cache = (s.lcore lc).cache ∧
      t.codeWord g = some (leVal (s.memGet ((s.progOf g.prog).codeAddr + g.pc) 8)) ∧ (t.lcore lc).store = (s.lcore lc).store ∧
      (t.lcore lc).code.length ≤ max 128 (s.lcore lc).code.length ∧ ∀ i, i ≠ lc.val → t.lcore i = s.lcore i)

/-! ## The engine as a whole -/

namespace Sys2Proof.Claims

/-- Registers of the engine change as listed, each to the value beside it cut to its width; every other register, and everything else in the
engine, is as in `s`. -/
structure Sets (l : List (RField × Nat)) (s t : State) : Prop where
  rest : t = { s with regs := t.regs }
  holds : ∀ e ∈ l, t.get e.1 = e.2 % 2 ^ e.1.width
  regs : RegsBut (l.map (fun e => e.1)) s t

/-- A command completes, and its effect is that the registers listed take the values listed in `s'`. -/
def Does (c : Instr) (s : State) (l : List (RField × Nat)) (s' : State) : Prop := ∃ t, exec c s = .next t ∧ Sets l s' t

/-- As `Does`, for a command that makes accesses through the memory ports (R24, R251). -/
def DoesBy (c : Instr) (s : State) (l : List (RField × Nat)) (s' : State) : Prop :=
  ∃ t, exec c s = .next t ∧ t = moved s' t ∧ SameEntries s t ∧ (∀ e ∈ l, t.get e.1 = e.2 % 2 ^ e.1.width) ∧
    RegsBut (l.map (fun e => e.1) ++ accessRegs) s t

/-- A command completes and changes nothing. -/
def Stays (c : Instr) (s : State) : Prop := exec c s = .next s

/-- A reset release that samples its straps: the commands that an integration outside Table 191 stops. -/
def Releases : Instr → Prop
  | .por _ => True
  | .warmInput _ => True
  | _ => False

end Sys2Proof.Claims

/-- A step takes the command at the front of the queue and carries it out on the engine with the queue's rest. The model's choices in it are
log entry 80. -/
def Obligations.StepRunsFront : Prop :=
  ∀ (s : State) (c : Instr) (rest : List Instr), s.pending = c :: rest → step s = exec c { s with pending := rest }

/-- On an empty queue the step is a tick: CP_AON_COUNT runs on by some number of clocks, wrapping at 2^64, the heartbeat timer by the same,
MGT_COUNT by another, and nothing else changes.  That an idle step is a tick is the model's choice (log entry 2). -/
def Obligations.IdleStepTicks : Prop :=
  ∀ s : State, s.canonical = true → s.pending = [] → ∃ (t : State) (n m : Nat), step s = .next t ∧
    t = { s with ticks := s.ticks + 1, hb := s.hb + n, mgmt := { s.mgmt with count := s.mgmt.count + m }, regs := t.regs } ∧
    t.get F.cpAonCountLo + 2 ^ 32 * t.get F.cpAonCountHi = (s.get F.cpAonCountLo + 2 ^ 32 * s.get F.cpAonCountHi + n) % 2 ^ 64 ∧
    RegsBut [F.cpAonCountLo, F.cpAonCountHi] s t

/-- Right after reset the identification registers read VENDOR and PART, the service interval is 1,000 ms, the queues have 16 places, the
activation timeout is 100,000 µs, every power domain is requested and on, every line of Table 145 is enabled, CAUSE reads POR, there is no
owner and the guard is closed, no image is active, no work waits, and memory lists nothing. The model's choices in it are log entries 5 and
62. -/
def Obligations.ResetValues : Prop :=
  let s := State.reset
  s.get F.glbIdVendor = 0x574D ∧ s.get F.glbIdPart = 0x256 ∧ s.get F.intEnable = 0xFF ∧ s.get F.intStatus = 0 ∧
  s.get F.ownHbTimeout = 1000 ∧ (∀ c, c < 4 → s.get (F.dqSize c) = 4 ∧ s.get (F.dqHead c) = 0 ∧ s.get (F.dqTail c) = 0) ∧
  s.get F.ldrActTimeout = 100000 ∧ s.get F.ldrStateState = 0 ∧ s.get F.cpPdReq = 2 ^ 30 - 1 ∧ s.get F.cpPdState = 2 ^ 30 - 1 ∧
  s.get F.rstStatusCause = 1 ∧ s.get F.ownStatusOwned = 0 ∧ s.get F.keyUnlocked = 0 ∧ s.get F.cpOpReq = 0 ∧
  (∀ i, i < 16 → s.get (F.seStatusActive i) = 0) ∧ s.get F.xlatPasidPasidEn = 0 ∧
  s.active = none ∧ s.staged = none ∧ s.disps = [] ∧ s.wbuf = [] ∧ s.mem = [] ∧ s.sf = [] ∧ s.present = false ∧ s.pending = []

/-- The state after reset is in the plain form that every step keeps. -/
def Obligations.ResetCanonical : Prop := State.reset.canonical = true

/-- Every step keeps the plain form of the state: memory, the stores, the register fields, the local stores and the register files of the
thread groups list each key once, rising, and nothing that reads as its default; every kind of unit stays in its number; and the ids of
thread groups stay distinct. -/
def Obligations.StepKeepsCanonical : Prop := ∀ s t : State, s.canonical = true → step s = .next t → t.canonical = true

/-- A step takes exactly the front command off the queue and adds none, and no command moves an integration parameter. The model's choices
in it are log entry 80. -/
def Obligations.StepKeepsQueueAndIntegration : Prop :=
  ∀ s t : State, step s = .next t → t.pending = s.pending.tail ∧ t.integ = s.integ

/-- Every command but a reset release completes in every state; a reset release completes with integration parameters inside the limits of
Table 191, and stops by name outside them (R750). The model's choices in it are log entries 1 and 8. -/
def Obligations.EveryCommandCompletes : Prop :=
  (∀ (c : Instr) (s : State), ¬Releases c → ∃ t, exec c s = .next t) ∧
  (∀ (s : State) (x : BitVec 12), s.integ.ok = true → (∃ t, exec (.por x) s = .next t) ∧ ∃ t, exec (.warmInput x) s = .next t) ∧
  ∀ (s : State) (x : BitVec 12), s.integ.ok = false →
    exec (.por x) s = .fault .unsupportedIntegration ∧ exec (.warmInput x) s = .fault .unsupportedIntegration

/-! ## The host register port -/

namespace Sys2Proof.Claims

/-- Whether the register at `a` is guarded, and whether a write of it is buffered (R571, R581). -/
def guardedAt (a : Nat) : Bool := match regRowAt a with | some row => row.guarded | none => false
def bufferedAt (a : Nat) : Bool := match regRowAt a with | some row => row.buffered | none => false

/-- The conditions under which an access of configured master `m` gets to the register at `a`: start-up is over, the port serves the block
and the register exists (R564). -/
structure Reaches (s : State) (m : Master) (a : Nat) : Prop where
  canonical : s.canonical = true
  configured : s.hasMaster m.val = true
  started : s.startup = 0
  served : s.portServes a = true
  present : (s.regAt a).isSome = true

/-- The conditions under which a 4-byte write by `m` to the register at `a` acts at once: it gets there, `m` may write (R134), the
register's power domain is on (R566), the register is not buffered, and where it is guarded the guard is open (R581). -/
structure Takes (s : State) (m : Master) (a : Nat) : Prop where
  reaches : Reaches s m a
  owner : s.mayWrite m.val a = true
  on : s.regOn a = true
  now : bufferedAt a = false
  key : guardedAt a = true → s.get F.keyUnlocked = 1

/-- The window addresses at which a write does more than change fields of its own register. -/
def actingAddr (a : Nat) : Bool :=
  [0x10, 0x18, 0x1004, 0x1008, 0x100C, 0x2400, 0x4000, 0x8000, 0x8004, 0x8020, 0x8028, 0xA000, 0xA004, 0xA014, 0xA020, 0xC020, 0xC090,
   0xC094, 0x38054, 0x3C000, 0x40000, 0x4002C, 0x40408, 0x44000, 0x44008, 0x44040, 0x48000].contains a ||
  (0x2000 ≤ a && a < 0x2400 && (a % 256 == 0x0C || a % 256 == 0x14)) || (0x30000 ≤ a && a < 0x34000 && a % 0x400 == 0x0C) ||
  (0x38100 ≤ a && a < 0x38300 && a % 32 == 0x14)

/-- What a 4-byte write of `v` leaves in a field that held `old`, by the field's access (Table 2, R567). -/
def Written (f : FieldRow) (old v new : Nat) : Prop :=
  match f.acc with
  | .rw => new = v / 2 ^ f.lo % 2 ^ f.width
  | .w1c => ∀ i, i < f.width → new.testBit i = (old.testBit i && !v.testBit (f.lo + i))
  | .mw => ∀ i, i < f.width → new.testBit i = if v.testBit (f.lo + i + 16) then v.testBit (f.lo + i) else old.testBit i
  | _ => new = old

/-- The first write denied since DENIED was cleared is captured, and DENIED is set (R135). -/
def Denied (c : Instr) (s : State) (m a : Nat) : Prop :=
  Does c s (if s.get F.ownEventDenied = 0 then [(F.ownEventDenied, 1), (F.ownDeniedMaster, m), (F.ownDeniedOffset, a)] else []) s

/-- The registers in which a captured fault shows (R591, R640, R690). -/
def faultRegs : List RField := [F.rasStatusClassSeen, F.rasUncCount, F.rasCapValid, F.rasCapClass, F.rasCapUnitKind, F.rasCapUnitIndex,
  F.rasCapInfo, F.rasCapSeq, F.rasCfgParValid, F.rasCfgParAddr, F.rasCfgParBuffer, F.intStatus, F.mbEventLogDrop]

/-- The 64-bit count of a performance counter. -/
def pcCount (s : State) (i : Nat) : Nat := s.get (F.pcCntLo i) + 2 ^ 32 * s.get (F.pcCntHi i)

end Sys2Proof.Claims

/-- A 4-byte write to a register of fields alone takes effect at once, field by field by its access, and changes nothing
else. -/
def Obligations.RegisterWriteResult : Prop :=
  ∀ (s : State) (m : Master) (addr : BitVec 20) (v : Word) (row : RegRow), let a := addr.toNat / 4 * 4
    Takes s m a → s.regAt a = some row → actingAddr a = false →
    ∃ t, exec (.regWrite m addr 4 v) s = .next t ∧ t = { s with regs := t.regs } ∧
      (∀ f ∈ row.fields, Written f (s.get ⟨a, f.lo, f.width⟩) v.toNat (t.get ⟨a, f.lo, f.width⟩)) ∧
      RegsBut (row.fields.map (fun f => ⟨a, f.lo, f.width⟩)) s t

/-- Writes that the port turns away: of fewer than 4 bytes, by a master that is not the owner, to a guarded register with the guard closed,
to a location where no register is, and to a register whose domain is off. Each leaves the register as it was and shows what the manual
says. The model's choices in it are log entry 9. -/
def Obligations.RegisterWriteRefusals : Prop :=
  (∀ (s : State) (m : Master) (addr : BitVec 20) (size : Fin 5) (v : Word), s.canonical = true → s.hasMaster m.val = true →
    s.startup = 0 → s.portServes 0x14 = true → s.domOn 2 = true → size.val < 4 → s.mayWrite m.val (addr.toNat / 4 * 4) = true →
    Does (.regWrite m addr size v) s [(F.glbStatusSizeErr, 1)] s) ∧
  (∀ (s : State) (m : Master) (addr : BitVec 20) (size : Fin 5) (v : Word), s.canonical = true → s.hasMaster m.val = true →
    s.startup = 0 → s.portServes 0x14 = true → s.domOn 2 = true → size.val < 4 → s.mayWrite m.val (addr.toNat / 4 * 4) = false →
    Does (.regWrite m addr size v) s ([(F.glbStatusSizeErr, 1)] ++ if s.get F.ownEventDenied = 0 then
      [(F.ownEventDenied, 1), (F.ownDeniedMaster, m.val), (F.ownDeniedOffset, addr.toNat / 4 * 4)] else []) s) ∧
  (∀ (s : State) (m : Master) (addr : BitVec 20) (v : Word), s.canonical = true → s.hasMaster m.val = true → s.startup = 0 →
    s.mayWrite m.val (addr.toNat / 4 * 4) = false →
    Denied (.regWrite m addr 4 v) s m.val (addr.toNat / 4 * 4)) ∧
  (∀ (s : State) (m : Master) (addr : BitVec 20) (v : Word), let a := addr.toNat / 4 * 4
    Reaches s m a → s.mayWrite m.val a = true → s.regOn a = true → bufferedAt a = false → guardedAt a = true → s.get F.keyUnlocked = 0 →
    s.portServes 0x14 = true → s.domOn 2 = true → Does (.regWrite m addr 4 v) s [(F.glbStatusGuardDenied, 1)] s) ∧
  (∀ (s : State) (m : Master) (addr : BitVec 20) (v : Word), let a := addr.toNat / 4 * 4
    s.hasMaster m.val = true → s.startup = 0 → s.mayWrite m.val a = true → bufferedAt a = false →
    (s.regAt a = none ∨ s.regOn a = false ∨ s.portServes a = false) → Stays (.regWrite m addr 4 v) s)

/-- BUFFERED_WRITE puts the write into the buffer and starts a hold unless EPOCH_WAIT stands, or finds 64 writes and sets BUF_OVF;
DISCARD_PENDING empties the buffer and, where no domain reset or wipe waits, ends the hold; EPOCH_HOLD_TIMEOUT releases the hold and sets
EPOCH_WAIT; and ENGINE_EPOCH, in NAP as at an epoch, applies a write that waits, or drops it where the register's domain is off, and ends the hold. The model's choices in it are log
entries 12, 15 and 88. -/
def Obligations.WriteBufferResults : Prop :=
  (∀ (s : State) (m : Master) (addr : BitVec 20) (v : Word), let a := addr.toNat / 4 * 4
    Reaches s m a → s.mayWrite m.val a = true → bufferedAt a = true →
    if s.wbuf.length < 64 then
      Does (.bufferedWrite m addr 4 v) s (if s.get F.glbStatusEpochWait = 0 then [(F.glbStatusHold, 1)] else [])
        { s with wbuf := s.wbuf ++ [{ addr := a, value := v.toNat, bad := false }] }
    else Does (.bufferedWrite m addr 4 v) s [(F.glbStatusBufOvf, 1)] s) ∧
  (∀ (s : State) (m : Master) (w : Word), Takes s m 0x18 → s.get F.rstDomainGo = 0 → s.get F.wipeStatusPending = 0 →
    Does (.discardPending m w) s [(F.glbStatusHold, 0), (F.glbStatusEpochWait, 0)] { s with wbuf := [] }) ∧
  (∀ s : State, s.canonical = true → s.get F.glbStatusHold = 1 → s.get F.ldrActTimeout ≠ 0 →
    Does .epochHoldTimeout s [(F.glbStatusHold, 0), (F.glbStatusEpochWait, 1)] s) ∧
  (∀ (s : State) (a v : Nat) (row : RegRow), s.canonical = true →
    s.epochNow = true ∨ (s.quiet = true ∧ s.resetting = none ∧ s.get F.cpLpStatusState = 2) → s.wbuf = [{ addr := a, value := v, bad := false }] →
    regRowAt a = some row → row.buffered = true → a / 256 ∉ [0x20, 0x21, 0x22, 0x23] → a ∉ [0x8010, 0x38004, 0x3C014, 0x3C018] →
    (a < 0x3C040 ∨ 0x3C068 ≤ a) → spcMasksOk s.spcMasks = true → s.get F.rstDomainGo = 0 → s.get F.wipeStatusPending = 0 →
    s.returning = none →
    if s.regOn a = true then ∃ t, exec .engineEpoch s = .next t ∧ t = { s with wbuf := [], regs := t.regs } ∧
        (∀ f ∈ row.fields, Written f (s.get ⟨a, f.lo, f.width⟩) v (t.get ⟨a, f.lo, f.width⟩)) ∧ t.get F.glbStatusHold = 0 ∧
        t.get F.glbStatusEpochWait = 0 ∧
        RegsBut (row.fields.map (fun f => ⟨a, f.lo, f.width⟩) ++ [F.glbStatusHold, F.glbStatusEpochWait]) s t
    else Does .engineEpoch s [(F.glbStatusPendDrop, 1), (F.glbStatusHold, 0), (F.glbStatusEpochWait, 0)] { s with wbuf := [] })

/-- KEY_UNLOCK opens the guard with its key and closes it with any other value, which sets KEY_BAD; RC_COUNTER_READ answers the register's
value and clears its read-to-clear fields; PC_CLEAR sets every performance counter and PC_OVF to 0; and CFG_PARITY_SCAN sets a register that
fails parity to its reset values and captures its address, or marks a write-buffer entry for it. The model's choices in it are log entries
16 and 96. -/
def Obligations.GuardCountersAndParity : Prop :=
  (∀ (s : State) (m : Master) (v : Word), Takes s m 0x10 → v = 0x5A17C0DE → Does (.keyUnlock m v) s [(F.keyUnlocked, 1)] s) ∧
  (∀ (s : State) (m : Master) (v : Word), Takes s m 0x10 → v ≠ 0x5A17C0DE →
    Does (.keyUnlock m v) s [(F.keyUnlocked, 0), (F.glbStatusKeyBad, 1)] s) ∧
  (∀ (s : State) (m : Master) (addr : BitVec 20) (row : RegRow), let a := addr.toNat / 4 * 4
    Reaches s m a → s.regOn a = true → s.regAt a = some row → a ∉ [0x2024, 0x2124, 0x2224, 0x2324] →
    Does (.rcCounterRead m addr) s ((row.fields.filter (fun f => f.acc = .rc)).map (fun f => (⟨a, f.lo, f.width⟩, 0)))
      (s.emit (.regRead m.val a (s.readWord a)))) ∧
  (∀ (s : State) (m : Master) (w : Word), Takes s m 0x48000 → w.getLsbD 30 = false → ∃ t, exec (.pcClear m w) s = .next t ∧
    t = { s with regs := t.regs } ∧ (∀ i, i < 16 → pcCount t i = 0) ∧ t.get F.pcOvf = 0 ∧ RegsBut perfRegs s t) ∧
  (∀ (s : State) (addr : BitVec 20) (row : RegRow), let a := addr.toNat / 4 * 4
    s.canonical = true → s.portServes a = true → s.regOn a = true → s.regAt a = some row → row.fields.any (fun f => f.acc == .rw || f.acc == .mw) = true →
    a ∉ [0x8000, 0x8004, 0x8020, 0x38004, 0x3C014, 0x3C018, 0x44000, 0x44008] → pcCounter a = false → s.get F.rasCfgParValid = 0 → ∃ t, exec (.cfgParityScan addr false) s = .next t ∧
      (∀ f ∈ row.fields, t.get ⟨a, f.lo, f.width⟩ = regReset (a * 32 + f.lo) % 2 ^ f.width) ∧ t.get F.rasCfgParValid = 1 ∧
      t.get F.rasCfgParAddr = a / 4 ∧ t.get F.rasCfgParBuffer = 0 ∧ (t.get F.rasStatusClassSeen).testBit 3 = true ∧
      t = { s with regs := t.regs, mgmt := t.mgmt } ∧ RegsBut (row.fields.map (fun f => ⟨a, f.lo, f.width⟩) ++ faultRegs) s t) ∧
  (∀ (s : State) (addr : BitVec 20) (l r : List WEntry) (w : WEntry), s.wbuf = l ++ [w] ++ r → w.addr = addr.toNat / 4 * 4 → w.bad = false →
    (∀ x ∈ l, x.addr ≠ w.addr ∨ x.bad = true) →
    exec (.cfgParityScan addr true) s = .next { s with wbuf := l ++ [{ w with bad := true }] ++ r })

/-! ## Ownership -/

namespace Sys2Proof.Claims

/-- A change of ownership closes the guard and is counted in OWN_CHANGES, which holds at all ones (R581, Table 42). -/
def ownershipMoved (s : State) : List (RField × Nat) :=
  [(F.keyUnlocked, 0), (F.ownChanges, min (s.get F.ownChanges + 1) (2 ^ F.ownChanges.width - 1))]

/-- Ownership passes to `m`. -/
def granted (s : State) (m : Nat) : List (RField × Nat) :=
  [(F.ownStatusOwned, 1), (F.ownStatusOwnerId, m), (F.ownEventGranted, 1)] ++ ownershipMoved s

end Sys2Proof.Claims

/-- With no owner, a configured master's claim of its own ID joins the window, and opens it where none is open; with an owner it has no effect; a
claim of another ID is denied; and at the end of the window the lowest claiming ID owns the engine and the heartbeat timer starts afresh
(R136). -/
def Sys2Proof.Claims.OwnershipClaims : Prop :=
  (∀ (s : State) (m : Master), Takes s m 0x1004 → s.get F.ownStatusOwned = 0 → ∃ t, exec (.ownClaim m m) s = .next t ∧
    t = { s with claimOpen := true, claims := t.claims } ∧ t.claims.testBit m.val = true ∧
    ∀ i, i ≠ m.val → t.claims.testBit i = s.claims.testBit i) ∧
  (∀ (s : State) (m : Master), Takes s m 0x1004 → s.get F.ownStatusOwned = 1 → Stays (.ownClaim m m) s) ∧
  (∀ (s : State) (m id : Master), Takes s m 0x1004 → id ≠ m → Denied (.ownClaim m id) s m.val 0x1004) ∧
  (∀ (s : State) (m : Nat), s.canonical = true → s.claimOpen = true → s.get F.ownStatusOwned = 0 → m < 4 → s.claims.testBit m = true →
    (∀ i, i < m → s.claims.testBit i = false) →
    Does .claimWindowEnd s (granted s m) { s with claimOpen := false, claims := 0, hb := 0 })

/-- The owner's handover to a configured master other than itself passes ownership at once and starts the heartbeat timer afresh, and to any
other has no effect but to restart it; a release leaves the engine with no owner; a write to OWN_HEARTBEAT restarts the timer; and when
TIMEOUT_MS passes the engine releases ownership and sets TIMED_OUT. -/
def Sys2Proof.Claims.OwnershipHandoverAndHeartbeat : Prop :=
  (∀ (s : State) (m n : Master), Takes s m 0x1008 → n ≠ m → s.hasMaster n.val = true →
    Does (.ownHandover m n) s (granted s n.val) { s with hb := 0 }) ∧
  (∀ (s : State) (m n : Master), Takes s m 0x1008 → (n = m ∨ s.hasMaster n.val = false) →
    exec (.ownHandover m n) s = .next { s with hb := 0 }) ∧
  (∀ (s : State) (m : Master), Takes s m 0x1008 →
    Does (.ownRelease m) s ([(F.ownStatusOwned, 0), (F.ownEventReleased, 1)] ++ ownershipMoved s) { s with hb := 0 }) ∧
  (∀ (s : State) (m : Master) (v : Word), Takes s m 0x100C → exec (.ownHeartbeat m v) s = .next { s with hb := 0 }) ∧
  (∀ s : State, s.canonical = true → s.get F.ownStatusOwned = 1 → s.get F.ownHbTimeout ≠ 0 →
    Does .heartbeatTimeout s ([(F.ownStatusOwned, 0), (F.ownEventTimedOut, 1)] ++ ownershipMoved s) s)

/-- Ownership of the engine: claims and the window that settles them, handover, release, heartbeat and timeout. -/
def Obligations.OwnershipResults : Prop := Sys2Proof.Claims.OwnershipClaims ∧ Sys2Proof.Claims.OwnershipHandoverAndHeartbeat


/-! ## The image loader -/

namespace Sys2Proof.Claims

/-- The loader reports `code` with DETAIL and sets LOAD_END (Table 148). -/
def ldrReported (code detail : Nat) : List (RField × Nat) :=
  [(F.ldrStateStatus, code), (F.ldrDetailLo, detail), (F.ldrDetailHi, detail / 2 ^ 32), (F.ldrStateLoadEnd, 1)]

/-- Whether an access is one of the loader's. -/
def isImage (a : Access) : Bool := match a with | .image _ => true | _ => false

/-- Validation runs, and none of the loader's reads waits on a page fault (R87). -/
structure LoaderReads (s : State) : Prop where
  canonical : s.canonical = true
  loading : s.get F.ldrStateState = 1
  free : ∀ w ∈ s.fwaits, isImage w.acc = false

/-- The registers that sending packets on the peer link can move. -/
def linkRegs : List RField :=
  perfRegs ++ [F.plkUnreach, F.plkEventUnreach] ++ (List.range 8).map (fun p => F.plkTxFlits p)

end Sys2Proof.Claims

/-- LOAD from IDLE starts validation of the image at LDR_ADDR; while validation runs it is refused with LOAD_BUSY, and in HOLDING, STAGED
and SWITCHING with STAGE_BUSY and the ID of the staged image. Validation that finds no fault stages the image and enters HOLDING; one that
fails reports the first failure, leaves the active image as it was and returns to IDLE. ACTIVATE re-enters HOLDING from STAGED and has no
effect elsewhere, DISCARD drops the image being validated or staged, and in IDLE and SWITCHING has no effect. The model's choices in it are
log entries 17 and 81. -/
def Obligations.LoaderCommands : Prop :=
  (∀ (s : State) (m : Master), Takes s m 0x4000 → s.get F.ldrStateState = 0 →
    Does (.ldrLoad m) s [(F.ldrStateState, 1)] { s with loadAddr := s.get2 F.ldrAddrLo F.ldrAddrHi }) ∧
  (∀ (s : State) (m : Master), Takes s m 0x4000 → s.get F.ldrStateState = 1 → Does (.ldrLoad m) s (ldrReported 0x01 0) s) ∧
  (∀ (s : State) (m : Master) (im : Image), Takes s m 0x4000 → s.get F.ldrStateState ∈ [2, 3, 4] → s.staged = some im →
    Does (.ldrLoad m) s (ldrReported 0x02 im.id) s) ∧
  (∀ (s : State) (im : Image), LoaderReads s → s.reaches (.image (BitVec.ofNat 64 s.loadAddr)) s.loadAddr s.imageBytes false = true →
    s.validate s.loadAddr = .ok im → DoesBy (.validationEnd .ok) s ([(F.ldrStateState, 2), (F.ldrStagedLo, im.id), (F.ldrStagedHi,
      im.id / 2 ^ 32)] ++ ldrReported 0 0)
      { s with staged := some im }) ∧
  (∀ (s : State) (code detail : Nat), LoaderReads s →
    s.reaches (.image (BitVec.ofNat 64 s.loadAddr)) s.loadAddr s.imageBytes false = true →
    s.validate s.loadAddr = .error (code, detail) → DoesBy (.validationEnd .ok) s ([(F.ldrStateState, 0)] ++ ldrReported code detail) s) ∧
  (∀ (s : State) (a : DWord), LoaderReads s → Does (.validationEnd (.abort a)) s ([(F.ldrStateState, 0)] ++ ldrReported 0x15 a.toNat) s) ∧
  (∀ (s : State) (a : DWord), LoaderReads s → ∃ t, exec (.validationEnd (.unc a)) s = .next t ∧
    t.get F.ldrStateState = 0 ∧ t.get F.ldrStateStatus = 0x16 ∧
    (s.loadAddr ≤ a.toNat → s.loadAddr < 2 ^ 64 → t.get F.ldrDetailLo = (a.toNat - s.loadAddr) % 2 ^ 32 ∧
      t.get F.ldrDetailHi = (a.toNat - s.loadAddr) / 2 ^ 32 % 2 ^ F.ldrDetailHi.width) ∧ t.get F.ldrStateLoadEnd = 1 ∧
        (t.get F.rasStatusClassSeen).testBit 1 = true ∧
    t = { s with mgmt := t.mgmt, regs := t.regs }) ∧
  (∀ (s : State) (m : Master), Takes s m 0x4000 → s.get F.ldrStateState = 3 → Does (.ldrActivate m) s [(F.ldrStateState, 2)] s) ∧
  (∀ (s : State) (m : Master), Takes s m 0x4000 → s.get F.ldrStateState ≠ 3 → Stays (.ldrActivate m) s) ∧
  (∀ (s : State) (m : Master), Takes s m 0x4000 → s.get F.ldrStateState ∈ [1, 2, 3] →
    Does (.ldrDiscard m) s ([(F.ldrStateState, 0)] ++ ldrReported 0x18 0)
      { s with staged := none, fwaits := s.fwaits.filter (fun w => !isImage w.acc) }) ∧
  (∀ (s : State) (m : Master), Takes s m 0x4000 → s.get F.ldrStateState ∈ [0, 4] → Stays (.ldrDiscard m) s)

/-- IMAGE_EPOCH in HOLDING at an engine epoch enters SWITCHING with the staged configuration active: the Treelet Store, the Weight Store, the
code buffers and the cache parts hold nothing, and every byte of a region with ZERO_ON_ACTIVATE reads 0 while every other byte of the Shared
Field is as before. SWITCHING_END reports the image active and raises INT_DONE, and the resident tiles of every model that this engine fetches
have arrived. ACT_TIMEOUT in HOLDING enters STAGED and keeps the staged image. The model's choices in it are log entry 18. -/
def Obligations.ImageActivation : Prop :=
  (∀ (s : State) (im : Image), s.canonical = true → s.get F.ldrStateState = 2 → s.quiet = true → s.staged = some im →
    ∃ t, exec .imageEpoch s = .next t ∧ t.get F.ldrStateState = 4 ∧ t.ws = s.ws.map (fun w => { w with bytes := [], arrived := [], tiles := [] }) ∧
      t.lcs = s.lcs.map (fun l => { l with cache := [], code := [] }) ∧
      (∀ a, byteAt t.sf a = if im.part.regions.any (fun r => r.zero && r.start * 65536 ≤ a && a < (r.start + r.size) * 65536) then 0
        else byteAt s.sf a) ∧
      t = { s with active := some im, firstImage := s.active.isNone, tslots := [], ts := [], tsPoison := [], ws := t.ws, lcs := t.lcs,
                   sf := t.sf, sfPoison := t.sfPoison, caches := t.caches, regs := t.regs } ∧ RegsBut [F.ldrStateState, F.cmNcStale] s t) ∧
  (∀ (s : State) (im : Image), s.canonical = true → s.get F.ldrStateState = 4 → s.staged = some im → ∃ t, exec .switchingEnd s = .next t ∧
    t = { moved s t with active := some im, firstImage := false, staged := none, tagStart := false, ws := t.ws, plk := t.plk, out := t.out } ∧
    SameEntries s t ∧ t.get F.ldrStateState = 0 ∧ t.get F.ldrActiveLo = im.id % 2 ^ 32 ∧
    t.get F.ldrActiveHi = im.id / 2 ^ 32 % 2 ^ F.ldrActiveHi.width ∧ t.get F.ldrStateActDone = 1 ∧ (t.get F.intStatus).testBit 0 = true ∧
    (∀ h, h < 2 → ∀ l ∈ im.placed h, s.fetchesOwn im l.model = true → ∀ i, i < l.tiles → t.placeHeld h (l.place + i) = true) ∧
    RegsBut ([F.ldrStateState, F.ldrActiveLo, F.ldrActiveHi, F.ldrStateActDone] ++ linkRegs ++ accessRegs) s t) ∧
  (∀ (s : State), s.canonical = true → s.get F.ldrStateState = 2 → s.get F.ldrActTimeout ≠ 0 →
    Does .actTimeout s [(F.ldrStateState, 3), (F.ldrStateStatus, 0x17), (F.ldrDetailLo, s.get F.ldrActTimeout), (F.ldrDetailHi, 0),
      (F.ldrStateTimeout, 1)] s)


/-! ## Dispatch queues and dispatches -/

namespace Sys2Proof.Claims

/-- The engine's side of the queue of class `c` becomes `q`; the other queues are as before. -/
def QueueIs (s t : State) (c : Nat) (q : QState) : Prop := t.queue c = q ∧ ∀ j, j ≠ c → t.queue j = s.queue j

/-- The number of records pending after TAIL is written `v` (R100). -/
def pendingWith (s : State) (c : Nat) (v : Word) : Nat := (v.toNat % 65536 + 65536 - s.get (F.dqHead c)) % 65536

/-- The places of DQc: 2 to the power of SIZE, which acts as 4 below 4 and as 12 above 12 (Table 147). -/
def places (s : State) (c : Nat) : Nat := 2 ^ min 12 (max 4 (s.get (F.dqSize c)))

/-- The address of the record at the head of DQc: slot DQc_HEAD mod DQc_SIZE, 64 bytes each (R100). -/
def headAddr (s : State) (c : Nat) : Nat := s.get2 (F.dqBaseLo c) (F.dqBaseHi c) + 64 * (s.get (F.dqHead c) % places s c)

/-- The queue holds a record and no copy of it, and its read waits on no fault. -/
def HeadWanted (s : State) (c : Cls) : Prop :=
  s.canonical = true ∧ s.present = true ∧ (s.queue c.val).head = none ∧ s.pendingRecs c.val ≠ 0 ∧ ∀ w ∈ s.fwaits, w.acc ≠ .record c

/-- The read of the record at the head of DQc can be made. -/
def HeadReached (s : State) (c : Cls) : Prop := s.reaches (.record c) (headAddr s c.val) 64 false = true

/-- Queues advance: an image is active and no image epoch stands that has not passed its step 4 (R89, R96). -/
structure Advances (s : State) : Prop where
  present : s.present = true
  active : s.active.isSome = true
  between : s.get F.ldrStateState ≠ 4 ∧ (s.get F.ldrStateState = 2 → s.quiet = false)

/-- The conditions of R102 on a record of class `c` for chain `ch` of the active image, with no hold in force. -/
structure MayBegin (s : State) (c : Nat) (r : DispRec) (im : Image) : Prop where
  active : s.active = some im
  enabled : (s.queue c).enabled = true
  advances : Advances s
  awake : s.get F.cpLpStatusState = 0 ∨ (s.get F.cpLpStatusState = 1 ∧ c = 0)
  free : c ≠ 0 → s.get F.glbStatusHold = 0 ∧ s.get F.ldrStateState ≠ 2 ∧ s.window.all (fun w => !w.holding) = true ∧ s.get F.cpLpCtrlReq ≠ 1 ∧
    s.get F.cpLpCtrlReq ≠ 2
  room : ∃ q, im.qos[c]? = some q ∧ (s.disps.filter (fun d => d.queue == c && s.runs d)).length < q.maxInflight
  alone : ∀ d ∈ s.disps, s.runs d = true → d.fixedStatus = 0 → d.rcd.chain ≠ r.chain
  after : r.afterPrev = true → ∀ d ∈ s.disps, d.queue = c → s.runs d = false

/-- A dispatch that has just been taken with record `r`: its SEQ, its image and its items, none ended. -/
structure Begun (s : State) (c : Nat) (r : DispRec) (d : Dispatch) : Prop where
  place : d.id = s.nextDisp ∧ d.queue = c ∧ d.rcd = r
  seq : d.seq = s.get (F.dqSeq c)
  counts : d.done = 0 ∧ d.fail = 0 ∧ d.endedItems = [] ∧ d.fixedStatus = 0
  image : some d.imageId = s.active.map (fun i => i.id)

/-- Every one of the items of a record that is not run is failed, and the dispatch has ended with a fixed status (R107). -/
def Rejected (s t : State) (r : DispRec) (status : Nat) : Prop :=
  ∃ d ∈ t.disps, d.id = s.nextDisp ∧ d.rcd = r ∧ d.fixedStatus = status ∧ d.phase = .ended ∧ d.done = 0 ∧
    ((∀ e ∈ s.disps, e.id ≠ s.nextDisp) → d.fail = r.itemCount)

end Sys2Proof.Claims

/-- DQ_TAIL_WRITE takes the new TAIL where the pending records then fit the queue, waking the engine from NAP where TAIL is enabled, and
otherwise ignores it and sets OVERFLOW. ENABLE and PAUSE set the state of the queue; FLUSH of a queue with pending records marks the records
up to TAIL, and of an empty one changes nothing. The model's choices in it are log entry 82. -/
def Obligations.QueueCommands : Prop :=
  (∀ (s : State) (m : Master) (c : Cls) (v : Word), Takes s m (0x200C + 0x100 * c.val) → pendingWith s c.val v ≤ places s c.val →
    Does (.dqTailWrite m c v) s ([(F.dqTail c.val, v.toNat)] ++
      if s.get F.cpLpStatusState = 2 ∧ s.get F.cpLpCtrlTail = 1 ∧ pendingWith s c.val v ≠ 0 ∧ (s.queue c.val).enabled = true then
        [(F.cpLpCtrlReq, 0), (F.cpLpStatusLastWake, 2), (F.cpLpStatusState, 4)] else []) s) ∧
  (∀ (s : State) (m : Master) (c : Cls) (v : Word), Takes s m (0x200C + 0x100 * c.val) → places s c.val < pendingWith s c.val v →
    Does (.dqTailWrite m c v) s [(F.dqStatusOverflow c.val, 1)] s) ∧
  (∀ (s : State) (m : Master) (c : Cls), Takes s m (0x2014 + 0x100 * c.val) → ∃ t, exec (.queueEnable m c) s = .next t ∧
    QueueIs s t c.val { s.queue c.val with enabled := true } ∧
    Sets [(F.dqStatusState c.val, if (s.queue c.val).flushTo.isSome then 2 else 1)] { s with queues := t.queues } t) ∧
  (∀ (s : State) (m : Master) (c : Cls), Takes s m (0x2014 + 0x100 * c.val) → ∃ t, exec (.queuePause m c) s = .next t ∧
    QueueIs s t c.val { s.queue c.val with enabled := false } ∧
    Sets [(F.dqStatusState c.val, if (s.queue c.val).flushTo.isSome then 2 else 0)] { s with queues := t.queues } t) ∧
  (∀ (s : State) (m : Master) (c : Cls), Takes s m (0x2014 + 0x100 * c.val) → s.get (F.dqTail c.val) ≠ s.get (F.dqHead c.val) →
    ∃ t, exec (.queueFlush m c) s = .next t ∧ QueueIs s t c.val { s.queue c.val with flushTo := some (s.get (F.dqTail c.val)) } ∧
    Sets [(F.dqStatusState c.val, 2)] { s with queues := t.queues } t) ∧
  (∀ (s : State) (m : Master) (c : Cls), Takes s m (0x2014 + 0x100 * c.val) → s.get (F.dqTail c.val) = s.get (F.dqHead c.val) →
    Stays (.queueFlush m c) s)

/-- DISPATCH_RECORD_READ keeps a copy of the record at the head of the queue, field by field from memory, or pauses the queue with the
record still at its head and raises INT_FAULT. DISPATCH_TAKE of a record that meets R102 and passes the checks of R107 advances HEAD and SEQ
and begins the dispatch; of one that fails a check it ends the dispatch with the status of the check and every item failed; a firing is
taken before the record at the head; and under FLUSH a record is taken without running. PARAM_BLOCK_READ starts the dispatch with its
parameter block, or ends it PARAM_FAULT. The model's choices in it are log entries 19, 78, 82 and 84. -/
def Obligations.DispatchStart : Prop :=
  (∀ (s : State) (c : Cls), HeadWanted s c → HeadReached s c → ((s.queue c.val).enabled = true ∨ (s.queue c.val).flushTo ≠ none) →
    ∃ t r, exec (.dispatchRecordRead c .ok) s = .next t ∧ t = { moved s t with queues := t.queues } ∧ SameEntries s t ∧
    RegsBut accessRegs s t ∧
    QueueIs s t c.val { s.queue c.val with head := some r } ∧
    let a := headAddr s c.val
    r.chain = s.memNat a 2 ∧ r.cls = s.memNat (a + 2) 1 ∧ r.irq = (s.memNat (a + 3) 1).testBit 0 ∧
    r.afterPrev = (s.memNat (a + 3) 1).testBit 1 ∧ r.itemCount = s.memNat (a + 4) 4 ∧ r.paramAddr = s.memNat (a + 8) 8 ∧
    r.doneAddr = s.memNat (a + 16) 8 ∧ r.failAddr = s.memNat (a + 24) 8 ∧ r.failCap = s.memNat (a + 32) 4 ∧ r.tag = s.memNat (a + 36) 4) ∧
  (∀ (s : State) (c : Cls) (r : ReadOutcome), HeadWanted s c → r ≠ .ok → (r = .unc → HeadReached s c) → ∃ t, exec (.dispatchRecordRead c r) s = .next t ∧
    QueueIs s t c.val { s.queue c.val with enabled := false, flushTo := none, head := none } ∧ t.get (F.dqStatusState c.val) = 0 ∧
    t.get (F.dqHead c.val) = s.get (F.dqHead c.val) ∧ (t.get F.intStatus).testBit 1 = true ∧
    SameEntries s t ∧ t = { moved s t with queues := t.queues, mgmt := t.mgmt }) ∧
  (∀ (s : State) (c : Cls) (r : DispRec) (im : Image) (ch : Chain), s.canonical = true → (s.queue c.val).flushTo = none →
    (s.queue c.val).firings = [] → (s.queue c.val).head = some r → MayBegin s c.val r im → r.cls = c.val →
    im.chains[r.chain]? = some ch → ch.classMask.testBit c.val = true → (ch.paramSize = 0 ∨ r.paramAddr % 64 = 0) → r.doneAddr % 32 = 0 →
    r.failAddr % 16 = 0 → r.itemCount ≠ 0 → ∃ t d, exec (.dispatchTake c) s = .next t ∧
      t = { s with queues := t.queues, disps := t.disps, nextDisp := s.nextDisp + 1, preempts := t.preempts, regs := t.regs } ∧
      QueueIs s t c.val { s.queue c.val with head := none } ∧ Begun s c.val r d ∧ d.triggered = false ∧
        d.phase = (if ch.paramSize = 0 then .running else .paramWait) ∧
      t.disps.map (fun x => { x with preempted := false }) = (s.disps ++ [d]).map (fun x => { x with preempted := false }) ∧
      (c.val ≠ 0 → t.disps = s.disps ++ [d] ∧ t.preempts = s.preempts) ∧
      t.get (F.dqHead c.val) = (s.get (F.dqHead c.val) + 1) % 65536 ∧ t.get (F.dqSeq c.val) = (s.get (F.dqSeq c.val) + 1) % 2 ^ (F.dqSeq c.val).width ∧
      RegsBut [F.dqHead c.val, F.dqSeq c.val] s t) ∧
  (∀ (s : State) (c : Cls) (f : Firing) (rest : List Firing) (im : Image) (ch : Chain), s.canonical = true → c.val ≠ 0 →
    (s.queue c.val).flushTo = none → (s.queue c.val).firings = f :: rest → MayBegin s c.val f.rcd im → f.rcd.cls = c.val →
    im.chains[f.rcd.chain]? = some ch → ch.classMask.testBit c.val = true → (ch.paramSize = 0 ∨ f.rcd.paramAddr % 64 = 0) →
    f.rcd.doneAddr % 32 = 0 → f.rcd.failAddr % 16 = 0 → f.rcd.itemCount ≠ 0 → ∃ t d, exec (.dispatchTake c) s = .next t ∧
      Begun s c.val f.rcd d ∧ d.triggered = true ∧ t.disps = s.disps ++ [d] ∧ t.get (F.dqHead c.val) = s.get (F.dqHead c.val) ∧
      QueueIs s t c.val { s.queue c.val with firings := rest }) ∧
  (∀ (s : State) (c : Cls) (r : DispRec) (im : Image) (status : Nat), s.canonical = true → (s.queue c.val).flushTo = none →
    (s.queue c.val).firings = [] → (s.queue c.val).head = some r → MayBegin s c.val r im →
    (if r.cls ≠ c.val then status = 0x04 else match im.chains[r.chain]? with
      | none => status = 0x03
      | some ch => if ch.classMask.testBit c.val = false then status = 0x04
        else status = 0x05 ∧ ((ch.paramSize ≠ 0 ∧ r.paramAddr % 64 ≠ 0) ∨ r.doneAddr % 32 ≠ 0 ∨ r.failAddr % 16 ≠ 0)) →
    ∃ t, exec (.dispatchTake c) s = .next t ∧ Rejected s t r status ∧ t.nextDisp = s.nextDisp + 1 ∧
      t.get (F.dqHead c.val) = (s.get (F.dqHead c.val) + 1) % 65536) ∧
  (∀ (s : State) (c : Cls) (r : DispRec) (n : Nat), s.canonical = true → Advances s → (s.queue c.val).flushTo = some n →
    (s.queue c.val).head = some r → ∃ t, exec (.dispatchTake c) s = .next t ∧ Rejected s t r 0x07 ∧
      t.get (F.dqHead c.val) = (s.get (F.dqHead c.val) + 1) % 65536 ∧
      (t.queue c.val).flushTo = (if (s.get (F.dqHead c.val) + 1) % 65536 = n then none else some n)) ∧
  (∀ (s : State) (id : Nat) (d : Dispatch) (ch : Chain), s.disp id = some d → d.phase = .paramWait → s.chainOf d = some ch →
    (∀ w ∈ s.fwaits, w.acc ≠ .param id ∧ w.acc ≠ .asDesc id) → s.reaches (.param id) d.rcd.paramAddr ch.paramSize false = true →
    (∀ a, s.descWanted d ch = some a → s.reaches (.asDesc id) a 64 false = true) → ∃ t e, exec (.paramBlockRead id .ok .ok) s = .next t ∧
      t = { moved s t with disps := t.disps } ∧ SameEntries s t ∧ RegsBut accessRegs s t ∧ t.disp id = some e ∧ (∀ j, j ≠ id → t.disp j = s.disp j) ∧
      e = { d with param := bytesAt s.mem d.rcd.paramAddr ch.paramSize, asDesc := e.asDesc, asFail := 0, phase := .running } ∧
      ((∃ x ∈ ch.stages, x.kind = 3) → leVal (e.param.take 8) % 64 = 0 → e.asDesc = bytesAt s.mem (leVal (e.param.take 8)) 64)) ∧
  (∀ (s : State) (id : Nat) (d : Dispatch) (ch : Chain) (r desc : ReadOutcome), s.disp id = some d → d.phase = .paramWait →
    s.canonical = true → s.chainOf d = some ch → (∀ w ∈ s.fwaits, w.acc ≠ .param id ∧ w.acc ≠ .asDesc id) → r ≠ .ok →
    (r = .unc → s.reaches (.param id) d.rcd.paramAddr ch.paramSize false = true) → ∃ t e, exec (.paramBlockRead id r desc) s = .next t ∧
      t.disp id = some e ∧ e.rcd = d.rcd ∧ e.fixedStatus = 0x06 ∧ e.phase = .ended ∧ e.done = d.done ∧
      d.preempted = e.preempted ∧ (d.endedItems = [] → e.fail = d.fail + d.rcd.itemCount) ∧ t.mem = s.mem)

/-- COMPLETION_WRITE of the oldest dispatch of a queue, once it no longer runs, removes it and queues its end marker, where the failure list
has room, and then its record, behind every write that waits; the record has 32 bytes with every field of Table 35 in its place, DONE_MARK
with bit 31 set and the low 31 bits of SEQ. DONE_LOST_HI_READ by the owner clears VALID where nothing else is lost, or shows the next lost
write. The model's choices in it are log entries 20 and 21. -/
def Obligations.CompletionRecords : Prop :=
  (∀ (s : State) (c : Cls) (d : Dispatch) (l r : List Dispatch), s.canonical = true → s.disps = l ++ [d] ++ r → (∀ x ∈ l, x.queue ≠ c.val) →
    d.queue = c.val → s.runs d = false → ∃ t, exec (.completionWrite c) s = .next t ∧
      t.disps = s.disps.filter (fun x => x.id != d.id) ∧ t.mem = s.mem ∧ t.sf = s.sf ∧ t.rays = s.rays ∧ t.regs = s.regs ∧
      (t.queue c.val).sent ++ (t.queue c.val).writes = (s.queue c.val).sent ++ (s.queue c.val).writes ++
        (if d.rcd.failAddr ≠ 0 ∧ d.failEntries < d.rcd.failCap then
          [{ addr := d.rcd.failAddr + 16 * d.failEntries, bytes := List.replicate 16 0, entry := true, irq := false }] else []) ++
        [{ addr := d.rcd.doneAddr, bytes := d.record, entry := false, irq := d.rcd.irq }] ∧ ∀ j, j ≠ c.val → t.queue j = s.queue j) ∧
  (∀ d : Dispatch, d.record.length = 32 ∧ leVal (d.record.take 4) = d.rcd.tag % 2 ^ 32 ∧
    leVal ((d.record.drop 4).take 2) = d.rcd.chain % 65536 ∧ leVal ((d.record.drop 6).take 1) = d.rcd.cls % 256 ∧
    leVal ((d.record.drop 7).take 1) = (if d.fixedStatus ≠ 0 then d.fixedStatus % 256 else if d.fail = 0 then 0 else if d.done = 0 then 2 else 1) ∧
    leVal ((d.record.drop 8).take 4) = d.done % 2 ^ 32 ∧ leVal ((d.record.drop 12).take 4) = d.fail % 2 ^ 32 ∧
    leVal ((d.record.drop 16).take 2) = min d.failEntries 0xFFFF ∧
    (∀ b, (leVal ((d.record.drop 18).take 2)).testBit b =
      ((b == 0 && d.preempted) || (b == 1 && d.recovery) || (b == 2 && d.failFull) || (b == 3 && d.triggered))) ∧
    leVal ((d.record.drop 20).take 4) = d.imageId % 2 ^ 32 ∧ leVal ((d.record.drop 24).take 4) = d.seq % 2 ^ 32 ∧
    leVal (d.record.drop 28) = 2 ^ 31 + d.seq % 2 ^ 31) ∧
  (∀ (s : State) (m : Master) (c : Cls), let a := 0x2024 + 0x100 * c.val
    Reaches s m a → s.regOn a = true → s.isOwner m.val = true → s.get (F.doneLostLoValid c.val) = 1 → (s.queue c.val).lost = [] →
    ∃ t, exec (.doneLostHiRead m c) s = .next t ∧ t.get (F.doneLostLoValid c.val) = 0 ∧
      t = { s with
        queues := t.queues, ports := t.ports, tlbs := t.tlbs, nextReq := t.nextReq, out := s.out ++ [.regRead m.val a (s.readWord a)],
        regs := t.regs } ∧
      (t.queue c.val).sent ++ (t.queue c.val).writes = (s.queue c.val).sent ++ (s.queue c.val).writes ∧
      ((s.queue c.val).sent = [] → (∀ w ∈ s.fwaits, w.acc ≠ .completion c ∧ w.acc ≠ .failList c) → (t.queue c.val).sent = (s.queue c.val).writes.take 1) ∧
      RegsBut [F.doneLostLoValid c.val] s t) ∧
  (∀ (s : State) (m : Master) (c : Cls) (w : PWrite) (rest : List PWrite), let a := 0x2024 + 0x100 * c.val
    Reaches s m a → s.regOn a = true → s.isOwner m.val = true → s.get (F.doneLostLoValid c.val) = 1 → (s.queue c.val).lost = w :: rest →
    ∃ t, exec (.doneLostHiRead m c) s = .next t ∧ QueueIs s t c.val { s.queue c.val with lost := rest } ∧
      t.get (F.doneLostLoValid c.val) = 1 ∧ t.get (F.doneLostLoKind c.val) = (if w.entry then 1 else 0) ∧
      t.get (F.doneLostLoAddrLo c.val) = w.addr / 16 % 2 ^ (F.doneLostLoAddrLo c.val).width ∧ t.get (F.doneLostHi c.val) = w.addr / 2 ^ 32 % 2 ^ 32 ∧
      (∀ j, j < 8 → t.get (F.doneLostW c.val j) = leVal ((w.bytes.drop (4 * j)).take 4)) ∧ (t.get F.intStatus).testBit 1 = true ∧
      t.out = s.out ++ [.regRead m.val a (s.readWord a)])

/-! ## Preemption and standing schedules -/

namespace Sys2Proof.Claims

/-- Schedule entry `i` is enabled and its chain of the active image has TRIGGER 1 (frame event) with the argument `n` (R126). -/
def FrameEntry (s : State) (n i : Nat) : Prop :=
  (s.get F.schedEn).testBit i = true ∧ ∃ im c, s.active = some im ∧ im.chains[leAt s.mem (s.get2 F.schedBaseLo F.schedBaseHi + 64 * i) 2]? = some c ∧
    c.trigger = 1 ∧ c.triggerArg = n

/-- Entry `i` has a firing that waits to be read or to be taken (R129). -/
def FiringWaits (s : State) (i : Nat) : Prop := i ∈ s.schedWait ∨ ∃ q ∈ s.queues, ∃ f ∈ q.firings, f.entry = i

/-- No class 0 stage that includes unit `u` holds items for it, and no class 0 dispatch that names it waits (R123). -/
structure NoClass0 (s : State) (u : EUnit) : Prop where
  waiting : ∀ im, s.active = some im → ∀ r : DispRec, r.cls = 0 →
    ((s.queue 0).head = some r ∨ (∃ f ∈ (s.queue 0).firings, f.rcd = r) ∨ ∃ d ∈ s.disps, d.rcd = r ∧ d.phase = .paramWait) →
    ∀ c, im.chains[r.chain]? = some c → c.hasUnit u = false
  items : ∀ d ∈ s.disps, d.rcd.cls = 0 → d.fixedStatus = 0 → d.phase = .running → ∀ c k t, s.chainOf d = some c → c.stages[k]? = some t →
    t.hasUnit u = true → s.stageBusy d.id k = false ∧ (t.input ≠ 255 → (d.hq t.input).entries = []) ∧
      (t.input = 255 → ∀ x, d.stages[k]? = some x → x.finished = true)
  guests : ∀ r ∈ s.rays, r.guest ≠ none → r.cls = 0 → ∀ t, s.rayStage r = some t → t.hasUnit u = false

/-- The preemption of unit `u` has not come to its point yet (R118). -/
def Preempts (s : State) (u : EUnit) : Prop := ∃ p ∈ s.preempts, p.unit = u ∧ p.saved = false

/-- The preemptions with that of unit `u` at its point. -/
def pointReached (s : State) (u : EUnit) : List Preempt := s.preempts.map (fun p => if p.unit == u then { p with saved := true } else p)

/-- The save area of lane core `lc` has room for the registers of the groups that it is to keep and for its local store, and no two of its
bytes are one (R69). -/
structure SaveArea (s : State) (lc : Nat) : Prop where
  one : ∀ x y, x < s.saveBytes → y < s.saveBytes → s.saveAddr lc x = s.saveAddr lc y → x = y
  whole : s.saveBytes % 65536 = 0
  store : 0x40000 + localBytes (s.lcore lc).split ≤ s.saveBytes
  rows : ∀ e ∈ s.toSave lc, e.2 + (s.progOf e.1.prog).regs ≤ 2048

end Sys2Proof.Claims

/-- A frame event fires exactly the enabled entries that name its number: each waits to be read, or, where a firing of it waits already or
no firmware runs, is merged and sets its bit in SCHED_OVR; and in NAP it wakes the engine when FRAME is enabled and an entry fires.
SCHED_ENTRY_PLACED puts the entry's record, with its addresses advanced by the firing's number under DONE_RING, behind the firings of its
queue; an entry that cannot be read is dropped and logged. The model's choices in it are log entry 19. -/
def Obligations.StandingSchedules : Prop :=
  (∀ (s : State) (n : Fin 16), s.canonical = true → s.present = true → ∃ t, exec (.frameEvent n) s = .next t ∧
    t = { s with schedWait := t.schedWait, mgmt := t.mgmt, regs := t.regs } ∧
    (∀ i, i < 32 → FrameEntry s n.val i → ¬FiringWaits s i → s.mgmt.down = false → s.mgmt.running ≠ none → i ∈ t.schedWait) ∧
    (∀ i, i < 32 → FrameEntry s n.val i → (FiringWaits s i ∨ s.mgmt.down = true ∨ s.mgmt.running = none) →
      (t.get F.schedOvr).testBit i = true) ∧
    (∀ i, i ∈ t.schedWait → i ∈ s.schedWait ∨ (i < 32 ∧ FrameEntry s n.val i)) ∧
    (∀ i, ¬FrameEntry s n.val i → (t.get F.schedOvr).testBit i = (s.get F.schedOvr).testBit i) ∧
    (t.get F.cpLpStatusState = if s.get F.cpLpStatusState = 2 ∧ s.get F.cpLpCtrlFrame = 1 ∧ s.fires 1 n.val = true then 4
      else s.get F.cpLpStatusState) ∧
    RegsBut [F.schedOvr, F.schedOvrCount, F.cpLpCtrlReq, F.cpLpStatusLastWake, F.cpLpStatusState, F.mbEventLogDrop] s t) ∧
  (∀ (s : State) (n : Fin 16), s.present = false → Stays (.frameEvent n) s) ∧
  (∀ (s : State) (i : Fin 32) (k : Nat) (e : DispRec), s.canonical = true → i.val ∈ s.schedWait → (∀ w ∈ s.fwaits, w.acc ≠ .sched i) →
    s.reaches (.sched i) (s.get2 F.schedBaseLo F.schedBaseHi + 64 * i.val) 64 false = true → s.schedK[i.val]? = some k →
      e = s.readRecord (s.get2 F.schedBaseLo F.schedBaseHi + 64 * i.val) → ∃ t f, exec (.schedEntryPlaced i .ok) s = .next t ∧
      t = { moved s t with schedWait := s.schedWait.filter (fun j => j != i.val), schedK := t.schedK, queues := t.queues } ∧
      SameEntries s t ∧ RegsBut accessRegs s t ∧
      t.schedK[i.val]? = some (k + 1) ∧ (∀ j, j ≠ i.val → t.schedK[j]? = s.schedK[j]?) ∧
      QueueIs s t (e.cls % 4) { s.queue (e.cls % 4) with firings := (s.queue (e.cls % 4)).firings ++ [f] } ∧ f.entry = i.val ∧ f.k = k ∧
      f.rcd = (if e.doneRing < 2 then e else { e with
        doneAddr := e.doneAddr + 32 * (k % e.doneRing),
        failAddr := if e.failAddr = 0 then 0 else e.failAddr + 16 * e.failCap * (k % e.doneRing) })) ∧
  (∀ (s : State) (i : Fin 32) (r : ReadOutcome), i.val ∈ s.schedWait → (∀ w ∈ s.fwaits, w.acc ≠ .sched i) → r ≠ .ok →
    (r = .unc → s.reaches (.sched i) (s.get2 F.schedBaseLo F.schedBaseHi + 64 * i.val) 64 false = true) →
    ∃ t, exec (.schedEntryPlaced i r) s = .next t ∧ SameEntries s t ∧
      t = { moved s t with schedWait := s.schedWait.filter (fun j => j != i.val), mgmt := t.mgmt })

/-- PREEMPTION_POINT of a unit that is to be preempted marks its state as kept.  A cluster suspends the rays of classes 1 to 3 in its
contexts, their state lines written to the spill cache; a lane core with no load, copy or MMA outstanding writes the registers of every
group of classes 1 to 3 and its local store to its save area; and a quadrant drops the weight halves of such work. -/
def Sys2Proof.Claims.PreemptionPoints : Prop :=
  (∀ (s : State) (u : EUnit), (∀ i, u ≠ .lc i) → (∀ i, u ≠ .tc i) → (∀ i, u ≠ .quad i) → Preempts s u →
    exec (.preemptionPoint u) s = .next { s with preempts := pointReached s u }) ∧
  (∀ (s : State) (q : Fin 8), Preempts s (.quad q) → ∃ t, exec (.preemptionPoint (.quad q)) s = .next t ∧
    t = { s with preempts := pointReached s (.quad q), quads := t.quads } ∧ (∀ i, i ≠ q.val → t.quads[i]? = s.quads[i]?) ∧
    ∀ x y, s.quads[q.val]? = some x → t.quads[q.val]? = some y → y = { x with half0 := y.half0, half1 := y.half1 } ∧
      ∀ h h', (h, h') ∈ [(x.half0, y.half0), (x.half1, y.half1)] →
        (h' = none ∨ h' = h) ∧
        (∀ w, h = some w → w.query = true ∨ (w.next = none ∧ ∀ b, s.mbatch w.batch = some b → s.batchCls b ≠ 0) → h' = none) ∧
        ∀ w b, h = some w → w.query = false → w.next = none → s.mbatch w.batch = some b → s.batchCls b = 0 → h' = h) ∧
  (∀ (s : State) (i : Fin 32), Preempts s (.tc i) → (s.cachesOf i.val).ncMiss = [] → (s.cachesOf i.val).spcMiss = [] →
    (∀ r ∈ s.rays, r.tc = i.val → r.cls ≠ 0 → r.loc ≠ .ctx) →
    exec (.preemptionPoint (.tc i)) s = .next { s with preempts := pointReached s (.tc i) }) ∧
  (∀ (s u : State) (i : Fin 32) (r : Ray), Preempts s (.tc i) → (s.cachesOf i.val).ncMiss = [] → (s.cachesOf i.val).spcMiss = [] →
    s.rays.filter (fun x => x.tc == i.val && x.loc == .ctx && x.cls != 0) = [r] → s.spillFails r i.val (s.stateAccess r true) = none →
    s.spcAccess i.val 4 (s.stateAccess r true) = (true, u) → ∃ t, exec (.preemptionPoint (.tc i)) s = .next t ∧
      t = { u with preempts := pointReached u (.tc i),
                   rays := u.rays.map (fun x => if x.id == r.id then { x with loc := .batch, pipe := 4, lines := x.stateLines } else x) }) ∧
  (∀ (s : State) (i : Fin 16), s.canonical = true → Preempts s (.lc i) → SaveArea s i → s.toSave i ≠ [] →
    (∀ e ∈ s.toSave i, e.1.copies = [] ∧ (∀ x, e.1.wait ≠ .load x) ∧ ∀ m, (s.lcore i).mma = some m → m.group ≠ e.1.id) →
    ∃ t, exec (.preemptionPoint (.lc i)) s = .next t ∧
      t.groups = s.groups.map (fun g => match (s.toSave i).find? (fun e => e.1.id == g.id) with
        | some e => { g with saved := true, saveRow := e.2, regs := [] }
        | none => g) ∧
      (∀ e ∈ s.toSave i, ∀ l r, l < 32 → r < (s.progOf e.1.prog).regs → r < 255 →
        leAt t.sf (s.saveAddr i (128 * (e.2 + r)) + 4 * l) 4 = e.1.reg l r % 2 ^ 32) ∧
      (∀ x, x < localBytes (s.lcore i).split → byteAt t.sf (s.saveAddr i (0x40000 + x)) = byteAt (s.lcore i).store x) ∧
      (∀ a, (∀ x, x < s.saveBytes → s.saveAddr i x ≠ a) → byteAt t.sf a = byteAt s.sf a) ∧ RegsBut perfRegs s t ∧
      t = { s with preempts := pointReached s (.lc i), groups := t.groups, fwaits := t.fwaits, sf := t.sf, sfPoison := t.sfPoison,
                   regs := t.regs }) ∧
  ∀ (s : State) (i : Fin 16), Preempts s (.lc i) → s.toSave i = [] →
    exec (.preemptionPoint (.lc i)) s = .next { s with preempts := pointReached s (.lc i) }

/-- PREEMPT_RETURN, once no class 0 work is left for the unit, ends its preemption; a lane core reads the registers of its saved groups and
its local store back from its save area. -/
def Sys2Proof.Claims.PreemptionReturns : Prop :=
  (∀ (s : State) (i : Fin 16) (p : Preempt) (h : Group), s.canonical = true → p ∈ s.preempts → p.unit = .lc i → p.saved = true →
    NoClass0 s (.lc i) → s.groups.find? (fun g => g.lc == i.val && g.saved) = some h → s.sfPoison = [] →
    let split := (s.progOf h.prog).split
    ∃ t, exec (.preemptReturn (.lc i)) s = .next t ∧ t.preempts = s.preempts.filter (fun p => p.unit != .lc i) ∧
      t.groups.length = s.groups.length ∧
      (∀ (k : Nat) (g : Group), s.groups[k]? = some g → (g.lc ≠ i.val ∨ g.saved = false) → t.groups[k]? = some g) ∧
      (∀ (k : Nat) (g : Group), s.groups[k]? = some g → g.lc = i.val → g.saved = true → ∃ y, t.groups[k]? = some y ∧
        y = { g with saved := false, saveRow := 0, regs := y.regs } ∧
        ∀ l r, l < 32 → r < 255 → y.reg l r =
          if r < (s.progOf g.prog).regs then leAt s.sf (s.saveAddr i (128 * (g.saveRow + r)) + 4 * l) 4 else 0) ∧
      (t.lcore i).split = split ∧ (t.lcore i).cache = (if (s.lcore i).split = split then (s.lcore i).cache else []) ∧
      (∀ x, x < localBytes split → byteAt (t.lcore i).store x = byteAt s.sf (s.saveAddr i (0x40000 + x / 65536 * 65536) + x % 65536)) ∧
      (∀ j, j ≠ i.val → t.lcore j = s.lcore j) ∧ RegsBut perfRegs s t ∧
      t = { s with preempts := t.preempts, groups := t.groups, lcs := t.lcs, regs := t.regs }) ∧
  (∀ (s : State) (u : EUnit) (p : Preempt), p ∈ s.preempts → p.unit = u → p.saved = true → NoClass0 s u →
    (∀ i : Fin 16, u = .lc i → ∀ g ∈ s.groups, g.lc = i.val → g.saved = false) →
    exec (.preemptReturn u) s = .next { s with preempts := s.preempts.filter (fun p => p.unit != u) })

/-- Preemption: the point that a unit comes to, what it keeps there, and its return to the work of classes 1 to 3. The model's choices in it
are log entries 24 and 92. -/
def Obligations.PreemptionResults : Prop := Sys2Proof.Claims.PreemptionPoints ∧ Sys2Proof.Claims.PreemptionReturns

/-! ## The ray sorter -/

namespace Sys2Proof.Claims

/-- Byte `i` of a record. -/
def recByte (b : List Byte) (i : Nat) : Nat := leVal ((b.drop i).take 1)

/-- The ray at the front of the input queue of stage `k` of a running dispatch, which a TRAVERSE stage `j` is to walk, can be taken: PD_CORE works,
the ticket limit is not reached, its queue has room for it, its Shared Field lines are sound, its dispatch has not been lost whole, and no
dispatch of a lower class, and no older one of its own, has a record that can be taken (R33). -/
structure IntakeReady (s : State) (id k : Nat) (d : Dispatch) (c : Chain) (t0 : Stage) (j : Nat) (t : Stage) (e : QEntry) (b : List Byte) : Prop where
  canonical : s.canonical = true
  disp : s.disp id = some d
  running : d.phase = .running
  alive : s.domLive 5 = true
  chain : s.chainOf d = some c
  taker : c.stages[k]? = some t0 ∧ c.sorted k = some (j, t) ∧ t.kind = 3
  front : d.front t0.input = some e
  plain : ∀ x ∈ (d.hq t0.input).entries, x.marked = false ∧ (x.pos = e.pos → x.ray = 0)
  tickets : s.ticketRoom d = true
  bytes : b = s.entryBytes d e.slot t0.input ∧ b.length = 64
  sound : s.sfPoison = []
  descriptor : d.asFail = 0
  room : s.canBin id false (refTreelet (leVal ((d.asDesc.drop 16).take 4))) = true
  kept : d.lost = none
  first : ∀ x ∈ s.disps, x.phase = .running → x.fixedStatus = 0 → (x.rcd.cls < d.rcd.cls ∨ (x.rcd.cls = d.rcd.cls ∧ x.id < d.id)) →
    ∀ i y, s.taking x i = some y → s.canTake x y = false

/-- An item of a dispatch is failed: it was not ended, and is now, among the failed. -/
def ItemFails (s t : State) (id item : Nat) : Prop :=
  ∀ d, s.disp id = some d → inRuns d.endedItems item = false → item < d.rcd.itemCount →
    ∃ e, t.disp id = some e ∧ e.fail = d.fail + 1 ∧ inRuns e.endedItems item = true ∧ e.rcd = d.rcd

/-- A queue can be taken from by cluster `tc` now (R247). -/
def Offered (s : State) (tc : Nat) (q : TQueue) : Prop :=
  q ∈ s.tqs ∧ q.desc.isSome = true ∧ 0 < q.untaken ∧ s.eligible tc q = true ∧ (s.slotFor q .resident).isSome = true

/-- A queue wants its treelet fetched: some cluster in service may walk it, no slot holds or fetches it, and its class has a slot to take (R248,
R249). -/
def WantsFetch (s : State) (q : TQueue) : Prop :=
  q ∈ s.tqs ∧ q.desc.isSome = true ∧ 0 < q.untaken ∧ (∃ tc, tc < 32 ∧ s.inService (tcUnit tc) = true ∧ s.eligible tc q = true) ∧
  s.slotFor q .resident = none ∧ s.slotFor q .fetching = none ∧ (s.fetchSlot q.cls).isSome = true

/-- The rays that cluster `tc` takes from a queue for a batch: the oldest untaken ones, at most 256, as far as their stages name its group
(R244, R247). -/
def batchOf (s : State) (tc : Nat) (q : TQueue) : List Nat := (q.waiting.take 256).takeWhile (s.named tc)

/-- A ray `y` as it stands in a batch of pipeline `p` of cluster `tc` that stood as `x`: it has a home in the RAYQ regions, the one that it
brought if it had one (R196). -/
structure Batched (s : State) (tc p : Nat) (x y : Ray) : Prop where
  same : y = { x with loc := .batch, tc := tc, pipe := p, home := y.home, lines := y.lines }
  brought : s.ray x.id = some x → x.home.isSome = true → y.home = x.home ∧ y.lines = x.lines
  given : s.ray x.id = some x → s.homePlaces ≠ 0 → y.home.isSome = true

end Sys2Proof.Claims

/-- RAY_INTAKE takes the oldest record of the stage's input queue.  A valid ray with a good descriptor and a treelet of this engine is filed for
the treelet of ROOT, its CLASS byte written, with its intake position and sort key, and the queue entry and the intake position move on; an
invalid ray ends failed.  The upper 3 bits of the key are the signs of the direction. -/
def Sys2Proof.Claims.RayIntakeResult : Prop :=
  (∀ (s : State) (id k : Nat) (d : Dispatch) (c : Chain) (t0 : Stage) (j : Nat) (t : Stage) (e : QEntry) (b : List Byte),
    IntakeReady s id k d c t0 j t e b → rayValid b = true → descOk (leVal (d.param.take 8)) d.asDesc false = true →
    s.ttBad d.asDesc (refTreelet (leVal ((d.asDesc.drop 16).take 4))) = false → d.deadTreelets = [] → s.noCluster t = false →
    s.ttReach id d.asDesc (refTreelet (leVal ((d.asDesc.drop 16).take 4))) = true →
    ttRemote (s.ttEntry d.asDesc (refTreelet (leVal ((d.asDesc.drop 16).take 4)))) = false → ∃ u r d', exec (.rayIntake id k) s = .next u ∧
      r ∈ u.rays ∧ r.id = s.nextRay ∧ r.disp = id ∧ r.stage = j ∧ r.item = e.item ∧ r.query = false ∧ r.cls = d.rcd.cls ∧
      r.rcd = b.take 0x23 ++ leBytes 1 d.rcd.cls ++ b.drop 0x24 ∧ r.intake = d.intake ∧ r.started = false ∧
      r.treelet = refTreelet (leVal ((d.asDesc.drop 16).take 4)) ∧ r.key = sortKeyLow b d.asDesc ∧ r.ticket = c.ordered ∧
      ((r.loc = .queued ∧ ∃ q ∈ u.tqs, q.disp = id ∧ q.query = false ∧ q.treelet = r.treelet ∧
          ∃ g x, q.segs.getLast? = some g ∧ g.entries.getLast? = some x ∧ x.ray = s.nextRay ∧ x.st = 0) ∨
        (r.loc = .overflow ∧ u.overflow = s.overflow ++ [s.nextRay])) ∧
      u.nextRay = s.nextRay + 1 ∧ u.disp id = some d' ∧ d'.intake = d.intake + 1 ∧ d'.fail = d.fail ∧ d'.done = d.done ∧
      (d'.hq t0.input).entries = (d.hq t0.input).entries.filter (fun x => x.pos != e.pos) ∧ u.sf = s.sf ∧ u.mem = s.mem) ∧
  (∀ (s : State) (id k : Nat) (d : Dispatch) (c : Chain) (t0 : Stage) (j : Nat) (t : Stage) (e : QEntry) (b : List Byte),
    IntakeReady s id k d c t0 j t e b → rayValid b = false → e.ended = false → ∃ u, exec (.rayIntake id k) s = .next u ∧ ItemFails s u id e.item ∧
      u.nextRay = s.nextRay + 1 ∧ u.mem = s.mem) ∧
  (∀ b d : List Byte, sortKeyLow b d / 512 = (recByte b 19 / 128) + 2 * (recByte b 23 / 128) + 4 * (recByte b 27 / 128))

/-- BATCH_PICK by a pipeline whose batch is spent takes the oldest untaken rays, at most 256, of the queue that comes before every other one
on offer, as far as their stages name the cluster's group, in ascending order of their keys, those of one key in the order of the queue; the
rays enter the batch, the slot's last use is renewed and SRT_BATCHES counts 1. -/
def Sys2Proof.Claims.BatchPickResult : Prop :=
  ∀ (s : State) (tc : Fin 32) (p : Fin 4) (q : TQueue) (slot : Nat), s.canonical = true →
    (∀ b ∈ s.batches, b.tc = tc.val → b.pipe = p.val → s.preempted (tcUnit tc.val) = true ∧ ∀ x, s.tqs.find? (fun y => y.id == b.tq) = some x → x.cls ≠ 0) →
    Offered s tc.val q → (∀ x, Offered s tc.val x → x ≠ q → tqBetter q x = true) →
    s.slotFor q .resident = some slot → ∃ t b, exec (.batchPick tc p) s = .next t ∧
      let key := fun id => match s.ray id with | some r => r.key | none => 0
      t.batches = s.batches ++ [b] ∧ b.tc = tc.val ∧ b.pipe = p.val ∧ b.tq = q.id ∧ b.slot = slot ∧ b.rays ≠ [] ∧
      (b.rays.map key).Pairwise (· ≤ ·) ∧ (∀ k, b.rays.filter (fun x => key x == k) = (batchOf s tc q).filter (fun x => key x == k)) ∧
      t.rays.length = s.rays.length ∧ (∀ (k : Nat) (x : Ray), s.rays[k]? = some x → ∃ y, t.rays[k]? = some y ∧
        if x.id ∈ batchOf s tc q then Batched s tc p x y else y = x) ∧
      t.tqs = s.tqs.map (fun x => if x.id == q.id then { x with segs := x.segs.map (fun g => { g with
        entries := g.entries.map (fun e => if e.ray ∈ batchOf s tc q then { e with st := 1 } else e) }) } else x) ∧
      (∀ x ∈ t.tslots, x.1 = slot → x.2.lastUse = s.useClock + 1) ∧
      t = { s with batches := t.batches, tqs := t.tqs, rays := t.rays, tslots := t.tslots, useClock := s.useClock + 1, freeCtr := t.freeCtr,
                   regs := t.regs } ∧
      t.get F.srtBatches = min (s.get F.srtBatches + 1) (2 ^ F.srtBatches.width - 1) ∧ RegsBut [F.srtBatches] s t

/-- Rays enter the sorter, and batches of them go to the traversal pipelines. The model's choices in it are log entries 25, 84, 87, 90 and
95. -/
def Obligations.RayIntakeAndSort : Prop := Sys2Proof.Claims.RayIntakeResult ∧ Sys2Proof.Claims.BatchPickResult


/-- TREELET_FETCH_ISSUE for the queue that comes before every other one that wants a fetch takes the slot of R249 into FETCHING for that
queue's treelet and tag, with the address and size of its table entry, charged to the engine of R251, which takes what its limit of 6
transfers leaves. TREELET_FETCH_DONE makes the slot RESIDENT with the treelet's bytes of memory, every other slot's bytes as before, gives
the engine's transfers back and counts its bytes; a fetch that ends with ABORT frees the slot and closes the treelet for every running
dispatch that waits for it. The model's choices in it are log entries 54, 84, 91 and 95. -/
def Obligations.TreeletFetchResults : Prop :=
  (∀ (s : State) (q : TQueue) (slot : Nat) (e : Fin 16), let ds := (s.descFor q.disp q.query).2
    s.canonical = true → s.domLive 5 = true → s.fetches < 2 * ((List.range 32).filter (fun tc => s.inService (tcUnit tc))).length → WantsFetch s q →
    (∀ x, WantsFetch s x → x ≠ q → tqBetter q x = true) → s.fetchSlot q.cls = some slot → s.serviceSe = some e → s.seOutstanding e < 6 →
    (∀ c, s.runWants e = some c → q.cls ≤ c) → s.ttReach q.disp ds q.treelet = true → s.ttBad ds q.treelet = false → (∀ a, s.windowOf a = none) →
    ∃ t x, exec .treeletFetchIssue s = .next t ∧ t.tslots = s.tslots.filter (fun y => y.1 != slot) ++ [(slot, x)] ∧ x.state = .fetching ∧
      x.treelet = q.treelet ∧ x.asAddr = (s.descFor q.disp q.query).1 ∧ x.gen = descGen ds ∧
      x.addr = leAt s.mem (descBase ds + 16 * q.treelet) 8 ∧ x.bytes = min (64 * leAt s.mem (descBase ds + 16 * q.treelet + 8) 2) 65536 ∧
      x.se = e.val ∧ x.cls = q.cls ∧ x.charged ≤ 6 - s.seOutstanding e ∧ 0 < x.charged ∧ t.ts = s.ts ∧ t.mem = s.mem ∧ t.rays = s.rays ∧
      t.disps = s.disps ∧ (∃ a b, s.ses[e.val]? = some a ∧ t.ses[e.val]? = some b ∧ b.service = a.service + x.charged) ∧
      t.get F.srtFetches = min (s.get F.srtFetches + 1) (2 ^ F.srtFetches.width - 1)) ∧
  (∀ (s : State) (slot : Fin 256) (x : TSlot), s.canonical = true → s.tslots.find? (fun e => e.1 == slot.val && e.2.state == .fetching) = some (slot.val, x) →
    (∀ w ∈ s.fwaits, w.acc ≠ .treelet slot) → (∀ r ∈ s.plk.rreads, r.acc ≠ .treelet slot) →
    (∀ l ∈ linesOf x.addr x.bytes, s.windowOf (64 * l) = none) → x.bytes ≤ 65536 → x.se < 16 →
    ∃ t, exec (.treeletFetchDone slot .ok) s = .next t ∧
      t.tslots = s.tslots.filter (fun e => e.1 != slot.val) ++ [(slot.val, { x with state := .resident, lastUse := s.useClock + 1 })] ∧
      (∀ i, i < x.bytes → byteAt t.ts (65536 * slot.val + i) = byteAt s.mem (x.addr + i)) ∧
      (∀ i, x.bytes ≤ i → i < 65536 → byteAt t.ts (65536 * slot.val + i) = 0) ∧
      (∀ a, a / 65536 ≠ slot.val → byteAt t.ts a = byteAt s.ts a) ∧
      (∃ a b, s.ses[x.se]? = some a ∧ t.ses[x.se]? = some b ∧ b.service = a.service - x.charged) ∧
      t.get (F.seBytesLo x.se) + 2 ^ 32 * t.get (F.seBytesHi x.se) =
        (s.get (F.seBytesLo x.se) + 2 ^ 32 * s.get (F.seBytesHi x.se) + x.bytes) % 2 ^ 64 ∧
      RegsBut [F.seBytesLo x.se, F.seBytesHi x.se] s t ∧
      t = { s with tslots := t.tslots, ts := t.ts, tsPoison := t.tsPoison, useClock := s.useClock + 1, ses := t.ses, regs := t.regs }) ∧
  (∀ (s : State) (slot : Fin 256) (x : TSlot), s.canonical = true → s.tslots.find? (fun e => e.1 == slot.val && e.2.state == .fetching) = some (slot.val, x) →
    (∀ w ∈ s.fwaits, w.acc ≠ .treelet slot) → (∀ r ∈ s.plk.rreads, r.acc ≠ .treelet slot) →
    ∃ t, exec (.treeletFetchDone slot .abort) s = .next t ∧
      t.tslots = s.tslots.filter (fun e => e.1 != slot.val) ∧ t.ts = s.ts ∧
      ∀ q ∈ s.tqs, q.desc.isSome = true → q.treelet = x.treelet → s.tagged q x = true → ∀ d, s.disp q.disp = some d →
        ∃ d', t.disp q.disp = some d' ∧ (deadKey q.query x.treelet, 3) ∈ d'.deadTreelets)

namespace Sys2Proof.Claims

/-- The bytes at which a queue's segment of ordinal `ord` is spilled: the area's slot for the descriptor and the ordinal (R255). -/
def spillPlace (s : State) (desc ord : Nat) : Nat :=
  s.get F.spillBaseLo * 4096 + 2 ^ 32 * s.get F.spillBaseHi + 4096 * (desc * 2 ^ min 8 (s.get F.srtSpillCfgDepthLog2) + ord % 2 ^ min 8 (s.get F.srtSpillCfgDepthLog2)
    )

/-- A queue that can give a segment to the spill area: not all its depth is used and it has a segment to give (R254). -/
def CanSpill (s : State) (q : TQueue) : Prop :=
  q ∈ s.tqs ∧ q.desc.isSome = true ∧ q.victim.isSome = true ∧
  (q.segs.filter (fun g => g.place == .spilled)).length < 2 ^ min 8 (s.get F.srtSpillCfgDepthLog2)

end Sys2Proof.Claims

/-- SEGMENT_SPILL below SPILL_LOW free segments spills the victim segment of the queue that comes before every other one: it writes only the
segment's slot of the spill area, at least its first 2 KiB, with bytes that the manual leaves open, and SRT_SEG_SPILLS counts 1.
SEGMENT_REFILL, once the segment's page is mapped, brings the spilled segment of a queue back that R257 names, with every entry as it was.
The model's choices in it are log entries 27 and 84. -/
def Obligations.SegmentSpillAndRefill : Prop :=
  (∀ (s : State) (q : TQueue) (g : Seg) (desc : Nat), s.canonical = true → s.get F.srtSpillCfgEn = 1 → s.segFree < s.get F.srtSpillCfgSpillLow →
    s.domLive 5 = true → CanSpill s q → (∀ x, CanSpill s x → x ≠ q → victimBefore q x = true) → q.victim = some g → q.desc = some desc →
    s.overflow = [] → ∃ t n, exec .segmentSpill s = .next t ∧ (n = 2048 ∨ n = 4096) ∧
      (∀ a, (a < spillPlace s desc g.ord ∨ spillPlace s desc g.ord + n ≤ a) → byteAt t.mem a = byteAt s.mem a) ∧
      t.tqs = s.tqs.map (fun x => if x.id == q.id then { x with
        segs := x.segs.map (fun y => if y.ord == g.ord then { y with place := .spilled, raw := decide (n = 4096) } else y) } else x) ∧
      t.rays = s.rays ∧ t.disps = s.disps ∧ t.sf = s.sf ∧
      t.get F.srtSegSpills = min (s.get F.srtSegSpills + 1) (2 ^ F.srtSegSpills.width - 1) ∧
      t.get F.srtSegRaw = (if n = 4096 then min (s.get F.srtSegRaw + 1) (2 ^ F.srtSegRaw.width - 1) else s.get F.srtSegRaw)) ∧
  (∀ (s : State) (i : Nat) (q : TQueue) (g : Seg), s.canonical = true → s.tqs.find? (fun t => t.desc == some i) = some q → q.refill = some g →
    (∀ w ∈ s.fwaits, w.acc ≠ .segment i g.ord) → 0 < s.segFree →
    s.reaches (.segment i g.ord) (spillPlace s i g.ord) (if g.raw then 4096 else 2048) false = true → ∃ t, exec (.segmentRefill i .ok) s = .next t ∧
      t.tqs = s.tqs.map (fun x => if x.id == q.id then { x with segs := x.segs.map (fun y => if y.ord == g.ord then { y with place := .field } else y) } else x)
        ∧
      t = { moved s t with tqs := t.tqs } ∧ SameEntries s t ∧
      t.get F.srtSegRefills = min (s.get F.srtSegRefills + 1) (2 ^ F.srtSegRefills.width - 1) ∧ RegsBut (F.srtSegRefills :: accessRegs) s t)

/-! ## Traversal clusters -/

namespace Sys2Proof.Claims

/-- A ray stands in a pipeline of a cluster that may step it now, waits for no callout and no samples, and, where it resumes, its state lines are
at hand. -/
structure Steps (s : State) (tc : Fin 32) (p : Fin 4) (r : Ray) : Prop where
  canonical : s.canonical = true
  found : s.ray r.id = some r
  ray : r.query = false
  may : s.mayStep r tc.val p.val = true
  free : r.call = none ∧ r.neural = none
  back : (s.resume r tc.val).1 = true

/-- The spill lines that a stack of `m` entries in place of the present one touches are at hand and sound (R196, R538, R655). -/
def LinesAtHand (s : State) (r : Ray) (tc m : Nat) (p : Fin 4) : Prop :=
  s.spillPoison tc (s.stackAccess r r.stack.length m) = none ∧
  ((s.resume r tc).2.spcAccess tc p.val (s.stackAccess r r.stack.length m)).1 = true

/-- The registers that count cache accesses and events of a step (R555, R594). -/
def cacheRegs : List RField := [F.cmNcHit, F.cmNcMiss, F.cmSpcHit, F.cmSpcMiss, F.cmSpcSnoop] ++ perfRegs

/-- What a step of a ray moves beside the rays: the caches of its cluster, the counters of cache accesses and those `fs`; and, with the
spill cache disabled, spill lines in the Shared Field (R538, R556). -/
structure StepRest (fs : List RField) (s t : State) (tc : Nat) : Prop where
  rest : t = { s with rays := t.rays, caches := t.caches, freeCtr := t.freeCtr, sf := t.sf, sfPoison := t.sfPoison, regs := t.regs }
  field : (s.get F.cmSpcOn).testBit tc = true → t.sf = s.sf ∧ t.sfPoison = s.sfPoison
  others : ∀ i, i ≠ tc → t.cachesOf i = s.cachesOf i
  counts : RegsBut (fs ++ cacheRegs) s t

/-- The ray has taken a step in its pipeline and is now `q` up to its spill-line marks; the other rays, the treelets and memory are as before. -/
def Walks (s t : State) (tc : Fin 32) (p : Fin 4) (r q : Ray) : Prop :=
  (∃ x, t.ray r.id = some x ∧ x = { q with loc := .ctx, tc := tc.val, pipe := p.val, lines := x.lines }) ∧
  (∀ id, id ≠ r.id → t.ray id = s.ray id) ∧ StepRest [] s t tc.val

/-- A ray of this engine whose stage has no output queue, and whose item is not failed. -/
structure LastOut (s : State) (r : Ray) (d : Dispatch) : Prop where
  own : r.guest = none ∧ r.failed = false
  disp : s.disp r.disp = some d
  item : inRuns d.endedItems r.item = false ∧ r.item < d.rcd.itemCount

/-- An item of a dispatch is ended with a result: it was not ended, and is now, and no more items are failed. -/
def ItemEnds (s t : State) (id item : Nat) : Prop :=
  ∀ d, s.disp id = some d → inRuns d.endedItems item = false → item < d.rcd.itemCount →
    ∃ e, t.disp id = some e ∧ e.fail = d.fail ∧ inRuns e.endedItems item = true ∧ e.rcd = d.rcd

/-- The ray's stage names no output queue, so that its record is the final record of its item (R30, R231). -/
def FinalStage (s : State) (r : Ray) : Prop := ∃ g, s.rayStage r = some g ∧ g.out0 = 255 ∧ g.routeSel = 0

/-- The box of a descriptor's structure in the frame of a ray (R144). -/
def worldBox (d : List Byte) : List Fv × List Fv :=
  let f := fun o => fpBounds [leVal ((d.drop o).take 4), leVal ((d.drop (o + 4)).take 4), leVal ((d.drop (o + 8)).take 4)]
  (f 0x18, f 0x24)

/-- ROOT of a structure, as the entry of a new stack. -/
def rootEntry (ref te : Nat) : SEntry :=
  { exit := false, bad := 0, typ := 1, treelet := refTreelet ref, offset := refOffset ref, count := 0, raw := true, te := te }

/-- The ray is to pop the entry `e`, of its own treelet and well formed, above `rest`, and the best hit does not beat it (R193). -/
structure Pops (s : State) (tc : Fin 32) (p : Fin 4) (r : Ray) (e : SEntry) (rest : List SEntry) : Prop where
  steps : Steps s tc p r
  walking : r.started = true ∧ r.leaf = none
  stack : r.stack = e :: rest
  enters : e.exit = false ∧ e.bad = 0 ∧ ltF fp32 r.bestT e.te = false ∧ e.treelet = r.treelet

/-- The 128-byte lines of the treelet that hold the MASKs of the INSTANCE children of a node. -/
def maskLines (r : Ray) (b : List Byte) (size : Nat) : List Nat := dedup ((nodeMasks r b size).map (· / 2))

/-- MASK of the instance record at offset `o` (units of 64 bytes) in the bytes of those lines; 255 where the record is not among them. -/
def maskIn (ls : List Nat) (recs : List Byte) (o : Nat) : Nat :=
  match ls.findIdx? (· == o / 2) with
  | some i => leVal ((recs.drop (128 * i + 64 * (o % 2) + 0x37)).take 1)
  | none => 255

/-- The opacity for a ray of an object whose own opacity is `own` (R206). -/
def ownOpacity (r : Ray) (own : Bool) : Bool :=
  if r.flags.testBit 1 then true else if r.flags.testBit 2 then false else (r.frame.force).getD own

/-- The EXIT entry that an instance leaves on the stack. -/
def exitEntry : SEntry := { exit := true, bad := 0, typ := 0, treelet := 0, offset := 0, count := 0, raw := false, te := 0 }

end Sys2Proof.Claims

/-- NODE_STEP begins a walk with ROOT on the stack where the ray meets the structure's box, and ends the ray's item as a MISS where it does
not; pops the EXIT of an instance back to the frame that contains it; drops an entry that the best hit already beats; enters an INNER node,
whose enterable children go on the stack nearest first, before the rest; enters an INSTANCE in the frame of its child, above an EXIT; takes
up a triangle leaf, or a procedural one with an ISECT program; posts a callout for a procedural record; ends the item of a ray whose last
entry is popped, whose record without a hit is a MISS; and fails a ray whose entry is malformed. The model's choices in it are log entry 30.
-/
def Obligations.NodeStepResults : Prop :=
  (∀ (s : State) (tc : Fin 32) (p : Fin 4) (r : Ray) (te tx : Nat), Steps s tc p r → r.started = false → r.stack = [] →
    boxTest r.world r.tmin r.tmax (worldBox (s.descOf r).2).1 (worldBox (s.descOf r).2).2 = some (te, tx) →
    ∃ t, exec (.nodeStep tc p r.id) s = .next t ∧ Walks s t tc p r
      { r with started := true, frames := [r.world], bestT := r.tmax, stack := [rootEntry (descRoot (s.descOf r).2) te] }) ∧
  (∀ (s : State) (tc : Fin 32) (p : Fin 4) (r : Ray) (d : Dispatch), Steps s tc p r → r.started = false → r.stack = [] → r.leaf = none →
    boxTest r.world r.tmin r.tmax (worldBox (s.descOf r).2).1 (worldBox (s.descOf r).2).2 = none → LastOut s r d → FinalStage s r →
    ∃ t, exec (.nodeStep tc p r.id) s = .next t ∧ ItemEnds s t r.disp r.item ∧ t.mem = s.mem) ∧
  (∀ (s : State) (tc : Fin 32) (p : Fin 4) (r : Ray) (e x : SEntry) (rest : List SEntry), Steps s tc p r → r.started = true → r.leaf = none →
    r.stack = e :: x :: rest → e.exit = true → LinesAtHand s r tc.val (rest.length + 1) p → ∃ t, exec (.nodeStep tc p r.id) s = .next t ∧
      Walks s t tc p r { r with stack := x :: rest, frames := r.frames.drop 1 }) ∧
  (∀ (s : State) (tc : Fin 32) (p : Fin 4) (r : Ray) (e x : SEntry) (rest : List SEntry), Steps s tc p r → r.started = true → r.leaf = none →
    r.stack = e :: x :: rest → e.exit = false → ltF fp32 r.bestT e.te = true → LinesAtHand s r tc.val (rest.length + 1) p →
    ∃ t, exec (.nodeStep tc p r.id) s = .next t ∧ Walks s t tc p r { r with stack := x :: rest }) ∧
  (∀ (s : State) (tc : Fin 32) (p : Fin 4) (r : Ray) (d : Dispatch) (e : SEntry), Steps s tc p r → r.started = true → r.leaf = none →
    r.stack = [e] → (e.exit = true ∨ ltF fp32 r.bestT e.te = true) → LastOut s r d → FinalStage s r →
    ∃ t, exec (.nodeStep tc p r.id) s = .next t ∧ ItemEnds s t r.disp r.item ∧ t.mem = s.mem) ∧
  (∀ r : Ray, r.best = none → leVal (r.record.take 4) = r.tmax % 2 ^ 32 ∧ leVal ((r.record.drop 0x13).take 1) = 0 ∧
    leVal ((r.record.drop 0x17).take 1) = 1 ∧ leVal ((r.record.drop 0x18).take 4) = r.rayId % 2 ^ 32) ∧
  (∀ (s : State) (tc : Fin 32) (p : Fin 4) (r : Ray) (e : SEntry) (rest l : List SEntry) (b recs : List Byte),
    let slot := (s.slotOf r).1
    let size := (s.slotOf r).2
    let got := (s.resume r tc.val).2.ncRead tc.val p.val slot (e.offset * 64) 128
    let ls := maskLines r b size
    Pops s tc p r e rest → e.typ = 1 → e.offset % 2 = 0 → e.offset * 64 + 128 ≤ size → s.tsBad tc.val slot (e.offset * 64) 128 = false →
    got.1 = some b → (∀ o ∈ nodeMasks r b size, s.tsBad tc.val slot (o * 64) 64 = false) → (got.2.ncGather tc.val 4 slot ls).1 = some recs →
    nodeChildren r b (maskIn ls recs) = .ok l → l ++ rest ≠ [] → l.length + rest.length ≤ 136 →
    LinesAtHand s r tc.val (l.length + rest.length) p →
    ∃ t, exec (.nodeStep tc p r.id) s = .next t ∧ Walks s t tc p r { r with stack := l ++ rest, nodes := r.nodes + 1 }) ∧
  (∀ (r : Ray) (b : List Byte) (mask : Nat → Nat) (l : List SEntry), nodeChildren r b mask = .ok l →
    l.length ≤ 8 ∧ ((∀ e ∈ l, isNan fp32 e.te = false) → l.Pairwise (fun x y => ltF fp32 y.te x.te = false)) ∧ ∀ e ∈ l, e.typ ≠ 0 ∧ e.typ < 6 ∧ e.exit = false ∧
      (e.typ = 2 → r.flags.testBit 7 = false) ∧ (e.typ = 3 → r.flags.testBit 8 = false) ∧ (e.typ = 4 → r.flags.testBit 9 = false) ∧
      (e.typ = 5 → leVal ((r.rcd.drop 0x22).take 1) ≠ 0 ∧ (e.bad = 0 → mask e.offset &&& leVal ((r.rcd.drop 0x22).take 1) ≠ 0))) ∧
  (∀ (s : State) (tc : Fin 32) (p : Fin 4) (r : Ray) (e : SEntry) (rest : List SEntry) (g : Stage) (b : List Byte),
    let slot := (s.slotOf r).1
    let ref := leVal ((b.drop 0x30).take 4)
    Pops s tc p r e rest → e.typ = 5 → s.rayStage r = some g → r.frames.length - 1 < (s.travOf g).maxDepth →
    e.offset * 64 + 64 ≤ (s.slotOf r).2 → s.tsBad tc.val slot (e.offset * 64) 64 = false →
    ((s.resume r tc.val).2.ncRead tc.val 4 slot (e.offset * 64) 64).1 = some b → leVal ((b.drop 0x38).take 1) % 4 ≠ 3 →
    refTreelet ref < descCount (s.descOf r).2 → rest.length + 2 ≤ 136 → LinesAtHand s r tc.val (rest.length + 2) p →
    ∃ t, exec (.nodeStep tc p r.id) s = .next t ∧ Walks s t tc p r
      { r with stack := rootEntry ref e.te :: exitEntry :: rest, frames := r.frame.enter b :: r.frames }) ∧
  (∀ (s : State) (tc : Fin 32) (p : Fin 4) (r : Ray) (e : SEntry) (rest : List SEntry), Pops s tc p r e rest → e.typ = 2 →
    LinesAtHand s r tc.val rest.length p → ∃ t, exec (.nodeStep tc p r.id) s = .next t ∧
      Walks s t tc p r { r with stack := rest, leaf := some { entry := e, blk := 0, idx := 0, bytes := [], seq := s.leafSeq tc.val } }) ∧
  (∀ (s : State) (tc : Fin 32) (p : Fin 4) (r : Ray) (e : SEntry) (rest : List SEntry) (g : Stage), Pops s tc p r e rest → e.typ = 3 →
    s.rayStage r = some g → (s.travOf g).isect ≠ 0xFFFF → LinesAtHand s r tc.val rest.length p → ∃ t, exec (.nodeStep tc p r.id) s = .next t ∧
      Walks s t tc p r { r with stack := rest, leaf := some { entry := e, blk := 0, idx := 0, bytes := [], seq := 0 } }) ∧
  (∀ (s : State) (tc : Fin 32) (p : Fin 4) (r : Ray) (l : Leaf) (b : List Byte),
    let slot := (s.slotOf r).1
    let off := l.entry.offset * 64 + 32 * l.blk
    Steps s tc p r → r.started = true → r.leaf = some l → l.entry.typ = 3 → off + 32 ≤ (s.slotOf r).2 → s.tsBad tc.val slot off 32 = false →
    ((s.resume r tc.val).2.ncRead tc.val 4 slot off 32).1 = some b →
    let op := ownOpacity r ((leVal ((b.drop 3).take 1)).testBit 0)
    ((op = true → r.flags.testBit 5 = false) ∧ (op = false → r.flags.testBit 6 = false)) → ∃ t c, exec (.nodeStep tc p r.id) s = .next t ∧
      Walks s t tc p r { r with call := some c,
                                leaf := if l.entry.count ≤ l.blk then none else some { l with blk := l.blk + 1 } } ∧
      c.kind = 2 ∧ c.lc = none ∧ c.reply = none ∧ c.user = leVal ((b.drop 8).take 8) ∧ c.cand.prim = leVal ((b.drop 4).take 4) ∧
      c.cand.geom = leVal (b.take 3) ∧ c.cand.kind = 3 ∧ c.cand.inst = r.frame.inst) ∧
  (∀ (s : State) (tc : Fin 32) (p : Fin 4) (r : Ray) (d : Dispatch) (e : SEntry) (rest : List SEntry), Steps s tc p r → r.started = true →
    r.leaf = none → r.stack = e :: rest → e.exit = false → e.bad ≠ 0 → ltF fp32 r.bestT e.te = false → LastOut s r d →
    ∃ t, exec (.nodeStep tc p r.id) s = .next t ∧ ItemFails s t r.disp r.item ∧
      (s.get (F.tgFailInfoValid (tc.val / 4)) = 0 → t.get (F.tgFailInfoValid (tc.val / 4)) = 1 ∧
        t.get (F.tgFailInfoCause (tc.val / 4)) = e.bad % 2 ^ (F.tgFailInfoCause (tc.val / 4)).width ∧
        t.get (F.tgFailInfoStatus (tc.val / 4)) = 5 ∧ t.get (F.tgFailInfoCluster (tc.val / 4)) = tc.val % 4))

namespace Sys2Proof.Claims

/-- The offset in its treelet of the triangle block of a leaf, and the block's size (R152, R154). -/
def blockAt (l : Leaf) : Nat × Nat := let n := if l.entry.raw then 512 else 256; (l.entry.offset * 64 + l.blk * n, n)

/-- A ray works through a triangle leaf whose block `b`, at hand or read now, is well formed, in a cluster that may work, and asked first for a
test (R191). -/
structure Tests (s : State) (tc : Fin 32) (r : Ray) (l : Leaf) (b : List Byte) (next : Option Leaf) : Prop where
  canonical : s.canonical = true
  found : s.ray r.id = some r
  ray : r.query = false ∧ r.started = true
  leaf : r.leaf = some l ∧ l.entry.typ = 2 ∧ b ≠ [] ∧ blockOk b l.entry.raw = true
  got : l.bytes = b ∨ (l.bytes = [] ∧ (blockAt l).1 + (blockAt l).2 ≤ (s.slotOf r).2 ∧
    s.tsBad tc.val (s.slotOf r).1 (blockAt l).1 (blockAt l).2 = false ∧
    (s.ncRead tc.val 4 (s.slotOf r).1 (blockAt l).1 (blockAt l).2).1 = some b)
  here : r.loc = .ctx ∧ r.tc = tc.val ∧ r.call = none ∧ s.mayWork (tcUnit tc.val) r.cls = true ∧ s.stageBlocked r = false
  first : s.firstTest tc.val l.seq = true
  next : next = (if l.idx + 1 < leVal ((b.drop 0x10).take 1) then some { l with bytes := b, idx := l.idx + 1 }
    else if l.blk < l.entry.count then some { l with blk := l.blk + 1, idx := 0, bytes := [] } else none)

/-- The ray tested is now `q` up to its spill-line marks; the other rays, the Shared Field and memory are as before. -/
def Tested (s t : State) (tc : Nat) (r q : Ray) : Prop :=
  (∃ x, t.ray r.id = some x ∧ x = { q with lines := x.lines }) ∧ (∀ id, id ≠ r.id → t.ray id = s.ray id) ∧
  t = { s with rays := t.rays, caches := t.caches, regs := t.regs } ∧ (∀ i, i ≠ tc → t.cachesOf i = s.cachesOf i) ∧ RegsBut cacheRegs s t

/-- The opacity of the leaf's triangle for the ray (R206). -/
def triOpaque (r : Ray) (l : Leaf) (b : List Byte) : Bool := ownOpacity r ((leVal ((b.drop 0x12).take 2)).testBit l.idx)

/-- The candidate of the leaf's triangle, if the ray hits it and it is not culled. -/
def candOf (r : Ray) (l : Leaf) (b : List Byte) : Option Hit := r.triCand b l.entry.raw l.idx (triOpaque r l b)

/-- The ray's stage has no ANYHIT program. -/
def NoAnyhit (s : State) (r : Ray) : Prop := ∀ g, s.rayStage r = some g → (s.travOf g).anyhit = 0xFFFF

/-- The key of a hit record, compared element by element (R205). -/
def hitKey (h : Hit) : Nat × Nat × Nat × Nat := (h.inst, h.geom, h.prim, h.kind)

/-- Whether `a` is less than `b` in the order of their elements. -/
def keyLess (a b : Nat × Nat × Nat × Nat) : Prop :=
  a.1 < b.1 ∨ (a.1 = b.1 ∧ (a.2.1 < b.2.1 ∨ (a.2.1 = b.2.1 ∧ (a.2.2.1 < b.2.2.1 ∨ (a.2.2.1 = b.2.2.1 ∧ a.2.2.2 < b.2.2.2)))))

end Sys2Proof.Claims

/-- A candidate is accepted only inside [TMIN, TMAX], and nearer than the best hit, or as near with no hit held or a lesser key (R205).  No sign,
no rounding: the parameters are compared as FP32 numbers. -/
def Obligations.HitSelection : Prop :=
  ∀ (tmin tmax best : Nat) (held : Option Hit) (h : Hit), h.geom < 2 ^ 24 → h.prim < 2 ^ 32 → h.kind < 256 →
    (∀ b, held = some b → b.geom < 2 ^ 24 ∧ b.prim < 2 ^ 32 ∧ b.kind < 256) →
    (hitBetter tmin tmax best held h = true ↔ leF fp32 tmin h.t = true ∧ leF fp32 h.t tmax = true ∧
      (ltF fp32 h.t best = true ∨ (eqF fp32 h.t best = true ∧ ∀ b, held = some b → keyLess (hitKey h) (hitKey b))))

/-- TRIANGLE_TEST of the next triangle of a block: with no candidate, or one that is not accepted, the ray goes on to the next triangle; an
accepted candidate of an opaque triangle, or with no ANYHIT program, becomes the best hit; one of a non-opaque triangle waits for a
callout; and with FIRST_HIT the first hit ends the ray's item. -/
def Obligations.TriangleTestResult : Prop :=
  (∀ (s : State) (tc : Fin 32) (r : Ray) (l : Leaf) (b : List Byte) (next : Option Leaf), Tests s tc r l b next → (next ≠ none ∨ r.stack ≠ []) →
    (candOf r l b = none ∨ ∃ h, candOf r l b = some h ∧ hitBetter r.tmin r.tmax r.bestT r.best h = false) →
    ∃ t, exec (.triangleTest tc r.id) s = .next t ∧ Tested s t tc.val r { r with leaf := next }) ∧
  (∀ (s : State) (tc : Fin 32) (r : Ray) (l : Leaf) (b : List Byte) (next : Option Leaf) (h : Hit), Tests s tc r l b next →
    (next ≠ none ∨ r.stack ≠ []) → r.flags.testBit 0 = false → candOf r l b = some h →
    hitBetter r.tmin r.tmax r.bestT r.best h = true → (triOpaque r l b = true ∨ NoAnyhit s r) →
    ∃ t, exec (.triangleTest tc r.id) s = .next t ∧ Tested s t tc.val r { r with best := some h, bestT := h.t, leaf := next }) ∧
  (∀ (s : State) (tc : Fin 32) (r : Ray) (l : Leaf) (b : List Byte) (next : Option Leaf) (h : Hit) (d : Dispatch), Tests s tc r l b next →
    r.flags.testBit 0 = true → candOf r l b = some h → hitBetter r.tmin r.tmax r.bestT r.best h = true →
    (triOpaque r l b = true ∨ NoAnyhit s r) → r.neural = none → s.spillPoison tc.val (s.stackAccess r r.stack.length 0) = none →
    (s.spcAccess tc.val r.pipe (s.stackAccess r r.stack.length 0)).1 = true → LastOut s r d → FinalStage s r →
    ∃ t, exec (.triangleTest tc r.id) s = .next t ∧ ItemEnds s t r.disp r.item) ∧
  (∀ (s : State) (tc : Fin 32) (r : Ray) (l : Leaf) (b : List Byte) (next : Option Leaf) (h : Hit), Tests s tc r l b next → triOpaque r l b = false →
    (∃ g, s.rayStage r = some g ∧ (s.travOf g).anyhit ≠ 0xFFFF) → candOf r l b = some h →
    hitBetter r.tmin r.tmax r.bestT r.best h = true → ∃ t c, exec (.triangleTest tc r.id) s = .next t ∧
      Tested s t tc.val r { r with leaf := next, call := some c } ∧ c.kind = 1 ∧ c.cand = h ∧ c.lc = none ∧ c.reply = none)

namespace Sys2Proof.Claims

/-- The ray waits in the cluster for a callout that has not been posted: in a context, or, after a neural leaf, out of one. -/
structure Posts (s : State) (tc : Fin 32) (r : Ray) (c : Callout) (g : Stage) (lc : Nat) : Prop where
  canonical : s.canonical = true
  found : s.ray r.id = some r
  call : r.call = some c ∧ c.lc = none
  here : r.tc = tc.val ∧ s.mayWork (tcUnit tc.val) r.cls = true
  place : r.loc = .callout ∨ (r.loc = .ctx ∧ s.suspendedIn tc.val < 512 ∧ s.spillPoison tc.val (s.stateAccess r true) = none ∧
    (s.spcAccess tc.val 4 (s.stateAccess r true)).1 = true)
  stage : s.rayStage r = some g
  core : lc / 2 = tc.val / 4 ∧ s.inService (lcUnit lc) = true ∧ (s.callouts.filter (fun x => x.lc == lc)).length < 256
  fewest : ∀ o, o / 2 = tc.val / 4 → o ≠ lc → s.inService (lcUnit o) = true →
    (s.callouts.filter (fun x => x.lc == lc)).length < (s.callouts.filter (fun x => x.lc == o)).length ∨
    (lc < o ∧ (s.callouts.filter (fun x => x.lc == lc)).length = (s.callouts.filter (fun x => x.lc == o)).length)

/-- The ray waits in the cluster for a callout whose reply has come. -/
structure Replied (s : State) (tc : Fin 32) (r : Ray) (c : Callout) (code t u v : Nat) (fault : Bool) : Prop where
  canonical : s.canonical = true
  found : s.ray r.id = some r
  call : r.query = false ∧ r.call = some c ∧ c.reply = some (code, t, u, v) ∧ c.fault = fault
  here : r.loc = .callout ∧ r.tc = tc.val ∧ r.started = true ∧ r.neural = none

/-- The ray goes on as `q` from the reply to its callout, in any pipeline of its cluster. -/
def Resumes (s t : State) (r q : Ray) : Prop :=
  t.ray r.id = some { q with call := none, loc := .batch, pipe := 4 } ∧ (∀ id, id ≠ r.id → t.ray id = s.ray id) ∧ t = { s with rays := t.rays }

end Sys2Proof.Claims

/-- CALLOUT_POST suspends the ray, with its state lines written, and puts its record behind the callouts of the lane core of the group, in
service, that has fewer waiting, the lower on a tie. CALLOUT_REPLY: REJECT drops the candidate, ACCEPT of an ANYHIT makes it the best hit,
ACCEPT_END ends the walk and the item, the values of an ISECT, and those of a REFINE inside its bracket, go to hit selection, and code 3 or
more, a NaN, or a fault of the program, fails the ray. The model's choices in it are log entry 26. -/
def Obligations.CalloutResults : Prop :=
  (∀ (s : State) (tc : Fin 32) (r : Ray) (c : Callout) (g : Stage) (lc : Nat), Posts s tc r c g lc → ∃ t x rc, exec (.calloutPost tc r.id) s = .next t ∧
    t.callouts = s.callouts ++ [rc] ∧ rc.lc = lc ∧ rc.tc = tc.val ∧ rc.ray = r.id ∧ rc.kind = c.kind ∧ rc.disp = r.disp ∧
    rc.prog = (if c.kind = 1 then (s.travOf g).anyhit else if c.kind = 2 then (s.travOf g).isect else (s.travOf g).refine) ∧
    rc.bytes = r.calloutBytes c ∧ leVal (rc.bytes.take 4) = r.id % 2 ^ 32 ∧ leVal ((rc.bytes.drop 4).take 1) = c.kind % 256 ∧
    t.ray r.id = some x ∧ x = { r with loc := .callout, pipe := 4, call := some { c with lc := some lc }, lines := x.lines } ∧
    (∀ id, id ≠ r.id → t.ray id = s.ray id) ∧ StepRest [] s { t with callouts := s.callouts } tc.val) ∧
  (∀ (s : State) (tc : Fin 32) (r : Ray) (c : Callout) (t u v : Nat), Replied s tc r c 0 t u v false →
    (c.kind = 1 ∨ [t, u, v].any (isNan fp32) = false) → (r.stack ≠ [] ∨ r.leaf ≠ none) →
    ∃ n, exec (.calloutReply tc r.id) s = .next n ∧ Resumes s n r r) ∧
  (∀ (s : State) (tc : Fin 32) (r : Ray) (c : Callout) (t u v : Nat), Replied s tc r c 1 t u v false → c.kind = 1 → r.flags.testBit 0 = false →
    (r.stack ≠ [] ∨ r.leaf ≠ none) → ∃ n, exec (.calloutReply tc r.id) s = .next n ∧ Resumes s n r { r with best := some c.cand, bestT := c.cand.t }) ∧
  (∀ (s : State) (tc : Fin 32) (r : Ray) (c : Callout) (t u v : Nat), Replied s tc r c 1 t u v false → c.kind ≠ 1 →
    [t, u, v].any (isNan fp32) = false → r.flags.testBit 0 = false → (r.stack ≠ [] ∨ r.leaf ≠ none) →
    ∃ n, exec (.calloutReply tc r.id) s = .next n ∧
      Resumes s n r (if (c.kind = 3 → leF fp32 c.tLo t = true ∧ leF fp32 t c.tHi = true) ∧
          hitBetter r.tmin r.tmax r.bestT r.best { c.cand with t := t, u := u, v := v } = true then
        { r with best := some { c.cand with t := t, u := u, v := v }, bestT := t } else r)) ∧
  (∀ (s : State) (tc : Fin 32) (r : Ray) (c : Callout) (d : Dispatch) (t u v : Nat), Replied s tc r c 2 t u v false → c.kind = 1 → LastOut s r d →
    FinalStage s r → ∃ n, exec (.calloutReply tc r.id) s = .next n ∧ ItemEnds s n r.disp r.item) ∧
  (∀ (s : State) (tc : Fin 32) (r : Ray) (c : Callout) (d : Dispatch) (code t u v : Nat), Replied s tc r c code t u v false →
    (3 ≤ code ∨ (c.kind ≠ 1 ∧ [t, u, v].any (isNan fp32) = true)) → LastOut s r d → ∃ n, exec (.calloutReply tc r.id) s = .next n ∧
      ItemFails s n r.disp r.item ∧ (s.get (F.tgFailInfoValid (tc.val / 4)) = 0 → n.get (F.tgFailInfoCause (tc.val / 4)) = 0x0C)) ∧
  (∀ (s : State) (tc : Fin 32) (r : Ray) (c : Callout) (d : Dispatch) (code t u v : Nat), Replied s tc r c code t u v true → LastOut s r d →
    ∃ n, exec (.calloutReply tc r.id) s = .next n ∧ ItemFails s n r.disp r.item ∧
      (s.get (F.tgFailInfoValid (tc.val / 4)) = 0 →
        n.get (F.tgFailInfoCause (tc.val / 4)) = code % 2 ^ (F.tgFailInfoCause (tc.val / 4)).width))

namespace Sys2Proof.Claims

/-- The stage of every sample of a batch sends it to quadrant `q`, which is in service and admits the sample's class: ARRAY_BATCH is not 0 and
not above the batch's samples, and QUAD_MASK names the quadrant (R225). -/
def QuadTakes (s : State) (b : NBatch) (q : Fin 8) : Prop :=
  b.samples ≠ [] ∧ ∀ y ∈ b.samples, ∃ r g, s.ray y.ray = some r ∧ s.rayStage r = some g ∧ (s.travOf g).arrayBatch ≠ 0 ∧
    (s.travOf g).arrayBatch ≤ b.samples.length ∧ g.quadMask.testBit q.val = true ∧ s.inService (.quad q) = true ∧
    s.unitAdmits (.quad q) r.cls = true

/-- A closed batch of samples of one ray alone, whose place can take it, is evaluated. -/
structure Evaluates (s : State) (tg : Fin 8) (b : NBatch) (r : Ray) (n : Neural) (l : Leaf) : Prop where
  canonical : s.canonical = true
  found : s.nbatches.find? (fun x => x.id == b.id && x.tg == tg.val && x.closed) = some b
  one : b.samples ≠ [] ∧ ∀ x ∈ b.samples, x.ray = r.id
  ray : s.ray r.id = some r ∧ r.neural = some n ∧ r.leaf = some l ∧ r.loc = .neural
  place : b.quad ≠ none ∨ b.lc ≠ 99
  turn : s.neuralTurn b = true
  unmarked : ∀ w ∈ s.fwaits, w.acc ≠ .neural tg b.id

/-- The weight block of a leaf's batch can be read. -/
def WeightsReached (s : State) (tg : Fin 8) (b : NBatch) (l : Leaf) : Prop :=
  s.reaches (.neural tg b.id) b.weights (weightBytes l.bytes) false = true

/-- The values of the leaf's field at the parameters of its samples, with the parameters, in order (R223). -/
def fieldValues (s : State) (r : Ray) (n : Neural) (l : Leaf) : List (Nat × Nat) :=
  ((List.range n.n).map (sampleAt n.t0 n.t1 n.h n.n)).map (fun t =>
    (t, neuralField r.frame l.bytes (bytesAt s.mem (leVal ((l.bytes.drop 0x10).take 8)) (weightBytes l.bytes)) t))

/-- The batch has left, and its one ray is now `q`; the accesses and the work have counted. -/
def Evaluated (s t : State) (b : NBatch) (r q : Ray) : Prop :=
  t.nbatches = s.nbatches.filter (fun y => y.id != b.id) ∧ t.ray r.id = some q ∧ (∀ id, id ≠ r.id → t.ray id = s.ray id) ∧
  t = { moved s t with nbatches := t.nbatches, rays := t.rays, macRem := t.macRem } ∧ SameEntries s t ∧
  RegsBut (accessRegs ++ [F.mxMacLo 0, F.mxMacHi 0, F.mxMacLo 1, F.mxMacHi 1]) s t

end Sys2Proof.Claims

/-- NEURAL_BATCH_TIMEOUT closes an open sample batch and gives it to the lowest quadrant that every sample's stage allows, and else to the
lower lane core of its group that is in service. NEURAL_BATCH_DONE ends the batch: a ray that still waits for samples waits on; one whose
last samples these are, with no bracket among them, resumes after its leaf; one with a bracket goes to its REFINE program; and, where the
weight block could not be read, its item fails. The model's choices in it are log entries 28 and 84. -/
def Obligations.NeuralBatchResults : Prop :=
  (∀ (s : State) (tg : Fin 8) (b : NBatch), s.nbatches.find? (fun x => x.id == b.id && x.tg == tg.val && !x.closed) = some b →
    ∃ t x, exec (.neuralBatchTimeout tg b.id) s = .next t ∧ t = { s with nbatches := t.nbatches } ∧ x ∈ t.nbatches ∧
      x = { b with closed := true, quad := x.quad, lc := x.lc } ∧
      (∀ q : Fin 8, x.quad = some q.val ↔ QuadTakes s b q ∧ ∀ p : Fin 8, p.val < q.val → ¬QuadTakes s b p) ∧
      (∀ k, x.quad = some k → k < 8) ∧
      (∀ lc : Fin 16, lc.val / 2 = tg.val → (x.lc = lc.val ↔ s.inService (.lc lc) = true ∧
        ∀ o : Fin 16, o.val / 2 = tg.val → o.val < lc.val → s.inService (.lc o) = false)) ∧
      ∀ y ∈ s.nbatches, y.id ≠ b.id → y ∈ t.nbatches) ∧
  (∀ (s : State) (tg : Fin 8) (b : NBatch) (r : Ray) (n : Neural) (l : Leaf), Evaluates s tg b r n l → WeightsReached s tg b l → b.samples.length < n.left →
    ∃ t, exec (.neuralBatchDone tg b.id .ok) s = .next t ∧
      Evaluated s t b r { r with neural := some { n with left := n.left - b.samples.length } }) ∧
  (∀ (s : State) (tg : Fin 8) (b : NBatch) (r : Ray) (n : Neural) (l : Leaf), Evaluates s tg b r n l → WeightsReached s tg b l → n.left ≤ b.samples.length →
    n.refining = false → r.stack ≠ [] → bracketOf (fieldValues s r n l) = none →
    ∃ t, exec (.neuralBatchDone tg b.id .ok) s = .next t ∧
      Evaluated s t b r { r with neural := none, leaf := none, loc := .batch, pipe := 4 }) ∧
  (∀ (s : State) (tg : Fin 8) (b : NBatch) (r : Ray) (n : Neural) (l : Leaf) (g : Stage) (lo hi gl gh : Nat), Evaluates s tg b r n l →
    WeightsReached s tg b l → n.left ≤ b.samples.length → n.refining = false → bracketOf (fieldValues s r n l) = some (lo, hi, gl, gh) → s.rayStage r = some g →
    (s.travOf g).refine ≠ 0xFFFF → ∃ t c, exec (.neuralBatchDone tg b.id .ok) s = .next t ∧
      Evaluated s t b r { r with neural := none, leaf := none, call := some c, loc := .callout } ∧
      c.kind = 3 ∧ c.tLo = lo ∧ c.tHi = hi ∧ c.gLo = gl ∧ c.gHi = gh ∧ c.user = n.desc ∧ c.lc = none ∧ c.reply = none ∧ c.cand.kind = 4) ∧
  (∀ (s : State) (tg : Fin 8) (b : NBatch) (r : Ray) (n : Neural) (l : Leaf) (d : Dispatch) (o : ReadOutcome), Evaluates s tg b r n l → o ≠ .ok →
    (o = .unc → WeightsReached s tg b l) → r.query = false → LastOut s r d → ∃ t, exec (.neuralBatchDone tg b.id o) s = .next t ∧ ItemFails s t r.disp r.item ∧
      t.nbatches = s.nbatches.filter (fun y => y.id != b.id) ∧ t.mem = s.mem)

/-! ## The hit return port -/

namespace Sys2Proof.Claims

/-- The record at the front of the input queue of RETURN stage `k` of a dispatch, with the hit return port in service, where no dispatch of a lower
class, and no older one of its own, has a record to return (R33). -/
structure Returning (s : State) (id k : Nat) (d : Dispatch) (c : Chain) (g : Stage) (e : QEntry) : Prop where
  canonical : s.canonical = true
  disp : s.disp id = some d
  chain : s.chainOf d = some c
  stage : s.stageOf d k = some g ∧ g.kind = 8
  front : d.front g.input = some e
  port : s.inService .hrp = true
  first : ∀ x ∈ s.disps, x.phase = .running → x.fixedStatus = 0 → (x.rcd.cls < d.rcd.cls ∨ (x.rcd.cls = d.rcd.cls ∧ x.id < d.id)) →
    ∀ j, s.canReturn x j = false

/-- The record at the front is sound (R655). -/
def RecordSound (s : State) (d : Dispatch) (q : Nat) (e : QEntry) : Prop := ∀ l ∈ linesOf (s.entryAddr d e.slot q) 32, l ∉ s.sfPoison

/-- Channel `ch` has the most free entries, the lowest such (R264). -/
def Freest (s : State) (ch : Nat) : Prop :=
  ch < 4 ∧ (s.hrBuffer ch).length < 128 ∧ ∀ o, o < 4 → (s.hrBuffer ch).length ≤ (s.hrBuffer o).length ∧
    (o < ch → (s.hrBuffer ch).length < (s.hrBuffer o).length)

/-- Whether an ordered chain's records of queue `q` leave in the order of their tickets: a TRAVERSE stage appends them (R265). -/
def Ordered (c : Chain) (q : Nat) : Prop := c.ordered = true ∧ (∃ t ∈ c.stages, t.kind = 8 ∧ t.input = q) ∧
  ∃ t ∈ c.stages, t.kind = 3 ∧ (t.out0 = q ∨ t.out1 = q)

/-- A held record may leave: its ray holds no ticket, or no ray of its dispatch and key with an earlier intake position holds one, or its ray
was replayed and a recovery window is open (R267, R270). -/
def MayLeave (s : State) (h : HoldRec) : Prop :=
  ∀ n, h.intake = some n → (h.replayed = true ∧ s.window ≠ none) ∨
    ∀ r ∈ s.rays, r.disp = h.disp → r.ticket = true → r.guest = none → r.route / 65536 = h.hit.key → n ≤ r.intake

end Sys2Proof.Claims

/-- HIT_RELEASE without order puts the oldest record of the queue, whole, with its PIXEL_KEY and class, behind the records of the channel with the
most free entries; under order it enters the order hold with its ray's ticket.  With every buffer full the record waits; a record in a
poisoned line fails its item. -/
def Sys2Proof.Claims.HitReleaseResult : Prop :=
  (∀ (s : State) (id k : Nat) (d : Dispatch) (c : Chain) (g : Stage) (e : QEntry) (ch : Nat), Returning s id k d c g e → ¬Ordered c g.input →
    RecordSound s d g.input e → Freest s ch → ∃ t x d' l, exec (.hitRelease id k) s = .next t ∧ t.hrBuffer ch = s.hrBuffer ch ++ [x] ∧
      (∀ o, o ≠ ch → t.hrBuffer o = s.hrBuffer o) ∧ x.disp = id ∧ x.item = e.item ∧ x.ended = e.ended ∧
      x.hit = { bytes := s.entryBytes d e.slot g.input, key := e.flags / 65536, cls := d.rcd.cls, ordered := false } ∧
      t.disp id = some d' ∧ (d'.hq g.input).entries = (d.hq g.input).entries.filter (fun y => y.pos != e.pos) ++ l ∧ t.hold = s.hold ∧
      t.mem = s.mem) ∧
  (∀ (s : State) (id k : Nat) (d : Dispatch) (c : Chain) (g : Stage) (e : QEntry), Returning s id k d c g e → ¬Ordered c g.input →
    (∀ ch, ch < 4 → 128 ≤ (s.hrBuffer ch).length) → Stays (.hitRelease id k) s) ∧
  (∀ (s : State) (id k : Nat) (d : Dispatch) (c : Chain) (g : Stage) (e : QEntry), Returning s id k d c g e → Ordered c g.input →
    RecordSound s d g.input e → ∃ t h d', exec (.hitRelease id k) s = .next t ∧ t.hold = s.hold ++ [h] ∧ h.disp = id ∧ h.item = e.item ∧
      h.queue = g.input ∧ h.pos = e.pos ∧
      h.hit = { bytes := s.entryBytes d e.slot g.input, key := e.flags / 65536, cls := d.rcd.cls, ordered := true } ∧
      (∀ r, e.ray ≠ 0 → s.ray (e.ray - 1) = some r → h.intake = (if r.ticket then some r.intake else none)) ∧
      t.disp id = some d' ∧ (d'.hq g.input).entries =
        (d.hq g.input).entries.map (fun y => if y.pos == e.pos then { y with held := true } else y) ∧
      t = { s with hold := t.hold, disps := t.disps, regs := t.regs } ∧ RegsBut perfRegs s t) ∧
  (∀ (s : State) (id k : Nat) (d : Dispatch) (c : Chain) (g : Stage) (e : QEntry), Returning s id k d c g e → e.ended = false →
    (Ordered c g.input ∨ ∃ ch, Freest s ch) → ¬RecordSound s d g.input e → ∃ t, exec (.hitRelease id k) s = .next t ∧ ItemFails s t id e.item ∧
      t.hold = s.hold ∧ t.hrBuf = s.hrBuf ∧ t.mem = s.mem)

/-- ORDER_HOLD_RELEASE: of the records of a dispatch and channel that may leave, the one of the earliest intake enters the channel's buffer; no
record leaves the hold while a ray of its dispatch and key with an earlier intake holds a ticket, save one replayed in an open recovery
window. -/
def Sys2Proof.Claims.OrderHoldResult : Prop :=
  (∀ (s : State) (id n : Nat) (ch : Fin 4) (h : HoldRec), s.canonical = true → (s.disp id).isSome = true → s.inService .hrp = true →
    (s.hrBuffer ch.val).length < 128 → h ∈ s.hold → h.disp = id → h.hit.key % 4 = ch.val → MayLeave s h → h.intake = some n →
    (∀ x ∈ s.hold, x.disp = id → x.hit.key % 4 = ch.val → MayLeave s x → x ≠ h → ∃ m, x.intake = some m ∧ n < m) →
    ∃ t, exec (.orderHoldRelease id ch) s = .next t ∧ t.hold = s.hold.filter (fun x => x != h) ∧
      t.hrBuffer ch.val = s.hrBuffer ch.val ++ [{ hit := h.hit, disp := id, item := h.item, ended := h.ended }] ∧
      ∀ o, o ≠ ch.val → t.hrBuffer o = s.hrBuffer o) ∧
  (∀ (s t : State) (id : Nat) (ch : Fin 4), exec (.orderHoldRelease id ch) s = .next t →
    ∀ h ∈ s.hold, h ∉ t.hold → h.disp = id ∧ h.hit.key % 4 = ch.val ∧ MayLeave s h)

/-- HIT_TRANSFER spends one credit of a channel that has some, puts the oldest record of its buffer on the port with its sideband, counts it and
ends its item; without credit it waits.  A returned credit adds 1, up to 255. -/
def Sys2Proof.Claims.HitTransferAndCredits : Prop :=
  (∀ (s : State) (ch : Fin 4) (x : HitSlot) (rest : List HitSlot), s.canonical = true → s.hrBuffer ch.val = x :: rest → s.inService .hrp = true →
    s.get (hrCredit ch.val) ≠ 0 → ∃ t, exec (.hitTransfer ch) s = .next t ∧ t.hrBuffer ch.val = rest ∧
      (∀ o, o ≠ ch.val → t.hrBuffer o = s.hrBuffer o) ∧ t.out = s.out ++ [.hit ch.val x.hit] ∧
      t.get (hrCredit ch.val) = s.get (hrCredit ch.val) - 1 ∧
      t.get F.hrpRecords = min (s.get F.hrpRecords + 1) (2 ^ F.hrpRecords.width - 1) ∧
      (x.ended = false → ItemEnds s t x.disp x.item) ∧ (x.ended = true → t.disps = s.disps) ∧
      t = { s with hrBuf := t.hrBuf, out := t.out, disps := t.disps, regs := t.regs } ∧
      RegsBut ([hrCredit ch.val, F.hrpRecords] ++ perfRegs) s t) ∧
  (∀ (s : State) (ch : Fin 4), s.get (hrCredit ch.val) = 0 → Stays (.hitTransfer ch) s) ∧
  (∀ (s : State) (ch : Fin 4), s.canonical = true →
    Does (.hrCreditReturn ch) s [(hrCredit ch.val, if s.get (hrCredit ch.val) = 255 then 255 else s.get (hrCredit ch.val) + 1)] s)

/-- The hit return port: release of records, the order hold, transfer and credit. The model's choices in it are log entries 31 and 32. -/
def Obligations.HitReturnResults : Prop := Sys2Proof.Claims.HitReleaseResult ∧ Sys2Proof.Claims.OrderHoldResult ∧ Sys2Proof.Claims.HitTransferAndCredits


/-! ## Queries -/

namespace Sys2Proof.Claims

/-- A query stands in a pipeline of a cluster that may step it now. -/
structure QSteps (s : State) (tc : Fin 32) (p : Fin 4) (r : Ray) (g : Stage) : Prop where
  canonical : s.canonical = true
  found : s.ray r.id = some r
  query : r.query = true
  may : s.mayStep r tc.val p.val = true
  back : (s.resume r tc.val).1 = true
  stage : s.rayStage r = some g

/-- The spill lines that the query's new stack and list touch are at hand and sound (R292, R538, R655). -/
def QLinesAtHand (s : State) (r q : Ray) (tc : Nat) (p : Fin 4) : Prop :=
  let l := s.stackAccess r r.stack.length q.stack.length ++ s.listAccess r q
  s.spillPoison tc l = none ∧ ((s.resume r tc).2.spcAccess tc p.val l).1 = true

/-- The most entries that the query's list keeps: K, or CAND_MAX where candidates are gathered (R288). -/
def keeps (s : State) (g : Stage) (r : Ray) : Nat := if (s.qryOf g).output = 1 then (s.qryOf g).candMax else leVal ((r.rcd.drop 3).take 1)

/-- The order of a query's list: by distance, then key index, for NEAREST; by key index for RANGE (R288). -/
def listBefore (near : Bool) (a b : Nat × Nat) : Bool :=
  if near && !eqF fp32 a.2 b.2 then ltF fp32 a.2 b.2 else decide (a.1 < b.1)

end Sys2Proof.Claims

/-- QUERY_NODE_STEP enters the key node on top of the stack, whose children that may hold keys go on the stack nearest first, before the
rest; or takes up a key block and puts the keys inside into the list; a block with no keys or more than 12 fails the query. A query with
nothing left, of a stage with no output queue, has its result record written at RES_BASE and its item ended. A list put together one key at
a time stays in the order of R288 and within its length. -/
def Sys2Proof.Claims.QueryStepResults : Prop :=
  (∀ (s : State) (tc : Fin 32) (p : Fin 4) (r : Ray) (g : Stage) (e : SEntry) (rest l : List SEntry) (b : List Byte), let (slot, size) := s.slotOf r
    QSteps s tc p r g → r.started = true → r.leaf = none → r.stack = e :: rest →
    (r.ball = true → ltF fp32 (r.bound (keeps s g r)) e.te = false) → e.bad = 0 → e.treelet = r.treelet → e.typ ≠ 2 → e.offset % 4 = 0 →
    e.offset * 64 + 256 ≤ size → s.tsBad tc.val slot (e.offset * 64) 256 = false →
    ((s.resume r tc.val).2.ncRead tc.val p.val slot (e.offset * 64) 256).1 = some b → keyChildren { r with stack := rest } b (r.bound (keeps s g r)) = .ok l →
    l ++ rest ≠ [] → l.length + rest.length ≤ 136 → QLinesAtHand s r { r with stack := l ++ rest } tc.val p →
    ∃ t x, exec (.queryNodeStep tc p r.id) s = .next t ∧ t.ray r.id = some x ∧
      x = { r with stack := l ++ rest, nodes := r.nodes + 1, loc := .ctx, tc := tc.val, pipe := p.val, lines := x.lines } ∧
      (∀ id, id ≠ r.id → t.ray id = s.ray id) ∧ StepRest [F.qryNodeSteps] s t tc.val ∧
      t.get F.qryNodeSteps = min (s.get F.qryNodeSteps + 1) (2 ^ F.qryNodeSteps.width - 1)) ∧
  (∀ (s : State) (tc : Fin 32) (p : Fin 4) (r q : Ray) (g : Stage) (l : Leaf) (b : List Byte), let (slot, size) := s.slotOf r
    let off := l.entry.offset * 64 + 256 * l.blk
    QSteps s tc p r g → r.started = true → r.leaf = some l → off + 256 ≤ size → s.tsBad tc.val slot off 256 = false →
    ((s.resume r tc.val).2.ncRead tc.val 4 slot off 256).1 = some b → 1 ≤ recByte b 0 → recByte b 0 ≤ 12 →
    keyTests r (keeps s g r) (leVal (((s.descOf r).2.drop 24).take 4)) b 0 (recByte b 0) = some q →
    (l.blk < l.entry.count ∨ r.stack ≠ []) →
      QLinesAtHand s r { q with leaf := if l.blk < l.entry.count then some { l with blk := l.blk + 1 } else none } tc.val p →
    ∃ t x, exec (.queryNodeStep tc p r.id) s = .next t ∧ t.ray r.id = some x ∧
      x = { q with leaf := if l.blk < l.entry.count then some { l with blk := l.blk + 1 } else none, loc := .ctx, tc := tc.val, pipe := p.val,
                   lines := x.lines } ∧
      (∀ id, id ≠ r.id → t.ray id = s.ray id) ∧ StepRest [F.qryKeyTests] s t tc.val ∧
      t.get F.qryKeyTests = min (s.get F.qryKeyTests + recByte b 0) (2 ^ F.qryKeyTests.width - 1)) ∧
  (∀ (s : State) (tc : Fin 32) (p : Fin 4) (r : Ray) (g : Stage) (d : Dispatch) (l : Leaf) (b : List Byte), let (slot, size) := s.slotOf r
    let off := l.entry.offset * 64 + 256 * l.blk
    QSteps s tc p r g → r.started = true → r.leaf = some l → off + 256 ≤ size → s.tsBad tc.val slot off 256 = false →
    ((s.resume r tc.val).2.ncRead tc.val 4 slot off 256).1 = some b → (recByte b 0 = 0 ∨ 12 < recByte b 0) → LastOut s r d →
    (s.qryOf g).output ≠ 1 → ∃ t, exec (.queryNodeStep tc p r.id) s = .next t ∧ ItemFails s t r.disp r.item ∧
      (s.get F.qryFailInfoValid = 0 → t.get F.qryFailInfoValid = 1 ∧ t.get F.qryFailInfoCause = 5 ∧ t.get F.qryFailInfoStatus = 5 ∧
        t.get F.qryFailId = leVal ((r.rcd.drop 4).take 4) % 2 ^ F.qryFailId.width)) ∧
  (∀ (s : State) (tc : Fin 32) (p : Fin 4) (r : Ray) (g : Stage) (d : Dispatch), QSteps s tc p r g → r.started = true → r.leaf = none →
    r.stack = [] → LastOut s r d → FinalStage s r → (s.qryOf g).output ≠ 1 → r.list.length < 64 →
    ∃ t, exec (.queryNodeStep tc p r.id) s = .next t ∧ ItemEnds s t r.disp r.item ∧
      let a := leVal ((d.param.drop 8).take 8) + 32 * r.item
      leAt t.mem a 4 = leVal ((r.rcd.drop 4).take 4) ∧ leAt t.mem (a + 4) 4 = r.item % 2 ^ 32 ∧
      leAt t.mem (a + 12) 1 = r.list.length ∧ leAt t.mem (a + 13) 1 = 0 ∧
      ∀ x, (∀ i, i < 32 → x ≠ a + i) → (∀ i, i < 8 * r.list.length → x ≠ leVal ((d.param.drop 0x10).take 8) + 512 * r.item + i) →
        byteAt t.mem x = byteAt s.mem x) ∧
  (∀ (near : Bool) (n : Nat) (e : Nat × Nat) (l : List (Nat × Nat)), (∀ x ∈ e :: l, isNan fp32 x.2 = false) →
    l.Pairwise (fun x y => listBefore near y x = false) → let m := insertKeyed near n e l
    m.Pairwise (fun x y => listBefore near y x = false) ∧ m.length ≤ n ∧ (∀ x ∈ m, x = e ∨ x ∈ l) ∧
    (l.length < n → m.length = l.length + 1 ∧ e ∈ m ∧ ∀ x ∈ l, x ∈ m))

/-- The open block `b` of a dispatch, alone, and the output queue of its stage. -/
structure OpenBlock (s : State) (id : Nat) (b : GBlock) (d : Dispatch) (g : Stage) (r : QueueRec) : Prop where
  canonical : s.canonical = true
  block : s.gblocks.filter (fun x => x.disp == id && !x.closed) = [b]
  one : ∀ x ∈ s.gblocks, x.id = b.id → x = b
  disp : s.disp id = some d
  stage : s.stageFor id b.stage = some g
  queue : s.queueRec d g.out0 = some r ∧ g.out0 ≠ 255 ∧ g.out0 < d.queues.length ∧ 0xD040 ≤ r.bytes

/-- A closed block `b` of the queries `l` and `q`, of stage `src`, which SCORE stage `k` scores in quadrant `quad`, its gather tile sound and its
vectors read (R301, R302), and whose queries end at that stage. -/
structure Scores (s : State) (id k : Nat) (d : Dispatch) (b : GBlock) (src g : Stage) (c : Chain) (e : QEntry) (quad : Fin 8) (l : List GQuery)
    (q : GQuery) : Prop where
  canonical : s.canonical = true
  disp : s.disp id = some d
  block : s.gblocks.find? (fun x => x.id == b.id && x.disp == id && x.closed) = some b
  one : ∀ x ∈ s.gblocks, x.id = b.id → x = b
  chain : s.chainOf d = some c
  source : s.stageFor id b.stage = some src
  stage : c.stages.findIdx? (fun t => t.kind == 5 && t.input == src.out0) = some k ∧ c.stages[k]? = some g
  entry : (d.hq src.out0).entries.find? (fun x => x.flags == b.id) = some e
  quadrant : b.quad = some quad.val ∧ g.quadMask.testBit quad.val = true ∧ s.mayWork (.quad quad) d.rcd.cls = true
  sound : s.fwaits = [] ∧ s.sfPoison = []
  reads : ∀ x ∈ b.reads (s.scoreSet d src), s.reaches x.2.2.1 x.2.2.2 (s.scoreSet d src).bytes false = true
  last : g.out0 = 255 ∧ g.routeSel = 0
  fresh : b.scored = false ∧ b.done = 0 ∧ b.lost = []
  dim : (s.qryOf src).scoreDim ≤ leVal (((d.ksDesc.getD []).drop 28).take 2)
  queries : b.queries = l ++ [q] ∧ q.status = 0 ∧ q.k < 256 ∧ q.cands.length < 256
  items : ∀ x ∈ b.queries, x.item < d.rcd.itemCount

/-- KEYSET_DESC_READ gives the dispatch its copy of the key-set descriptor, or the status with which its queries fail.  GATHER_BLOCK_TIMEOUT closes
an open block, which becomes an entry of the stage's output queue with the gather tile's bytes; with no room there it takes no query more
and waits.  SCORE_BLOCK_DONE of a closed block whose reads succeeded ends the item of every query and takes the block away, and the last
query's result record stands in memory with its SCORED count. -/
def Sys2Proof.Claims.QueryBlocks : Prop :=
  (∀ (s : State) (id a : Nat) (d : Dispatch), s.disp id = some d → d.ksAddr = some a → d.ksDesc = none → d.ksFail = 0 →
    (∀ w ∈ s.fwaits, w.acc ≠ .keyset id) → s.reaches (.keyset id) a 64 false = true → ∃ t, exec (.keysetDescRead id .ok) s = .next t ∧
      t.disp id = some { d with ksDesc := some (bytesAt s.mem a 64) } ∧ (∀ j, j ≠ id → t.disp j = s.disp j) ∧
      t = { moved s t with disps := t.disps } ∧ SameEntries s t ∧ RegsBut accessRegs s t) ∧
  (∀ (s : State) (id a : Nat) (d : Dispatch) (o : ReadOutcome), s.disp id = some d → d.ksAddr = some a → d.ksDesc = none → d.ksFail = 0 →
    (∀ w ∈ s.fwaits, w.acc ≠ .keyset id) → o ≠ .ok → (o = .unc → s.reaches (.keyset id) a 64 false = true) →
    ∃ t, exec (.keysetDescRead id o) s = .next t ∧ t.disp id = some { d with ksFail := if o = .abort then 3 else 4 } ∧
      (∀ j, j ≠ id → t.disp j = s.disp j) ∧ SameEntries s t ∧ t = { moved s t with disps := t.disps, mgmt := t.mgmt }) ∧
  (∀ (s : State) (id : Nat) (b : GBlock) (d : Dispatch) (g : Stage) (r : QueueRec), OpenBlock s id b d g r →
    (d.hq g.out0).entries.length < r.capacity → ∃ t e d' k, exec (.gatherBlockTimeout id) s = .next t ∧
      t.gblocks = s.gblocks.map (fun x => if x.id == b.id then { x with full := true, closed := true, quad := k } else x) ∧
      t.disp id = some d' ∧ (∀ j, j ≠ id → t.disp j = s.disp j) ∧
      (d'.hq g.out0).entries = (d.hq g.out0).entries ++ [e] ∧ e.flags = b.id ∧ e.count = b.queries.length ∧
      e.pos = (d.hq g.out0).appended ∧ bytesAt t.sf (s.queueAddr r e.slot) b.tile.length = b.tile ∧
      t.get F.qryBlocks = min (s.get F.qryBlocks + 1) (2 ^ F.qryBlocks.width - 1) ∧
      t = { s with gblocks := t.gblocks, disps := t.disps, sf := t.sf, sfPoison := t.sfPoison, regs := t.regs }) ∧
  (∀ (s : State) (id : Nat) (b : GBlock) (d : Dispatch) (g : Stage) (r : QueueRec), OpenBlock s id b d g r →
    r.capacity ≤ (d.hq g.out0).entries.length → exec (.gatherBlockTimeout id) s =
      .next { s with gblocks := s.gblocks.map (fun x => if x.id == b.id then { x with full := true } else x) }) ∧
  (∀ (s : State) (id k : Nat) (d : Dispatch) (b : GBlock) (src g : Stage) (c : Chain) (e : QEntry) (quad : Fin 8) (l : List GQuery) (q : GQuery),
    Scores s id k d b src g c e quad l q →
    ∃ t d', exec (.scoreBlockDone id b.id quad []) s = .next t ∧ (∀ x ∈ t.gblocks, x.id ≠ b.id) ∧ t.disp id = some d' ∧
      (∀ x ∈ b.queries, inRuns d'.endedItems x.item = true) ∧
      let a := leVal ((d.param.drop 8).take 8) + 32 * q.item
      leAt t.mem a 4 = q.qid % 2 ^ 32 ∧ leAt t.mem (a + 4) 4 = q.item % 2 ^ 32 ∧ leAt t.mem (a + 12) 1 = min q.k q.cands.length ∧
      leAt t.mem (a + 13) 1 = 0 ∧ leAt t.mem (a + 14) 1 = 1)

/-- Queries: the steps of a walk, the key-set descriptor, gather blocks and scored blocks. The model's choices in it are log entries 27, 33,
84 and 89. -/
def Obligations.QueryResults : Prop := Sys2Proof.Claims.QueryStepResults ∧ Sys2Proof.Claims.QueryBlocks


/-! ## Matrix arrays -/

namespace Sys2Proof.Claims

/-- A MATMUL stage of a running dispatch whose input queue holds one tile, whole and unbegun, whose vectors are all to be computed and whose
header goes with layer 0, with a free group of array `arr` and vectors enough for a batch, where no dispatch that comes before has one (R33),
and whose layer table can be read. -/
structure TileFits (s : State) (id k arr : Nat) (d : Dispatch) (c : Chain) (g : Stage) (im : Image) (e : QEntry) (vb stride : Nat) : Prop where
  canonical : s.canonical = true
  disp : s.disp id = some d ∧ d.phase = .running ∧ d.deadTreelets = []
  chain : s.chainOf d = some c
  stage : s.stageOf d k = some g ∧ g.kind = 5
  image : s.active = some im ∧ ∃ w, im.wrefs[g.model]? = some w ∧ w.layerCount ≠ 0
  table : s.tableOk g.model g.quadMask = true ∧ vb = (readHead s.mem (im.layerTable g.model)).vb ∧ 1 ≤ vb ∧
    vb * 512 ≤ s.accLimit arr d.rcd.cls (s.mxGroup g arr d.rcd.cls)
  reached : (∀ w ∈ s.fwaits, w.acc ≠ .layerTable id k) ∧
    s.reaches (.layerTable id k) (im.layerTable g.model) (s.tableBytes g.model) false = true
  entry : (d.hq g.input).entries = [e] ∧ e.held = false ∧ e.ended = false ∧ e.used = 0 ∧ vb ≤ e.count ∧ e.count ≤ 256
  fresh : ∀ b ∈ s.mbatches, b.id ≠ s.nextMb ∧ ¬(b.disp = id ∧ b.stage = k ∧ (b.arr = noArray ∨ b.emitted ≠ none))
  free : s.groupFree arr d.rcd.cls (s.mxGroup g arr d.rcd.cls) = true ∧
    (arr = 1 → s.groupFree 0 d.rcd.cls (s.mxGroup g 0 d.rcd.cls) = false)
  first : ∀ x ∈ s.disps, x.phase = .running → x.fixedStatus = 0 → (x.rcd.cls < d.rcd.cls ∨ (x.rcd.cls = d.rcd.cls ∧ x.id < d.id)) →
    s.mxWaits g arr x = false
  sound : s.sfPoison = []
  live : ∀ i, i < e.count → inRuns d.endedItems (e.item + i) = false ∧ e.item + i < d.rcd.itemCount
  header : let h := s.sfGet (s.entryAddr d e.slot g.input) 64
    let l := readLayer s.mem (im.layerTable g.model) 0
    le h 4 2 = e.count ∧ le h 6 1 = l.aFmt ∧ le h 8 4 = l.k ∧ le h 0x0C 4 = stride ∧ stride % 64 = 0 ∧ strideOf l.aFmt l.k ≤ stride ∧
      64 + e.count * stride ≤ 65536 ∧ le h 0x20 32 = 0

/-- Vector `i` of the tile of an entry at address `a`, to be computed. -/
def tileVec (s : State) (e : QEntry) (a stride i : Nat) : MVec :=
  { item := e.item + i, dead := false, bytes := s.sfGet (a + 64 + i * stride) stride }

/-- A quadrant works for batch `b`, which runs layer `l` of operand class `c` by a layer table that follows R340. -/
structure WorksFor (s : State) (arr : Fin 2) (q : Fin 4) (b : MBatch) (l : Layer) (c : MxClass) : Prop where
  canonical : s.canonical = true
  batch : s.batchOn arr.val q.val = some b
  layer : l = s.batchLayer b b.layer
  cls : pairClass l.wFmt l.aFmt = some c
  table : s.batchOk b = true

/-- A quadrant tile of the running layer loads next into the idle half: it is in the layer, some vector lacks it, no half holds it, every
earlier K-slice of its N-block is at hand (R327), the idle half's own tile is not needed, and the active half is in use; and the batch waits
for no fetch. -/
structure LoadsNext (s : State) (arr : Fin 2) (q : Fin 4) (b : MBatch) (l : Layer) (c : MxClass) (kslice nblk : Nat) : Prop where
  works : WorksFor s arr q b l c
  inside : kslice < l.slices ∧ nblk < l.blocks c
  wanted : s.inHalf b false b.layer kslice nblk = false ∧ ∃ v ∈ b.live, b.added nblk v ≤ kslice
  turn : s.tileInTurn b false b.layer kslice nblk = true
  active : (s.quad arr.val q.val).applied = true ∨
    ∃ w, (s.quad arr.val q.val).half (s.activeHalf arr.val q.val) = some w ∧ s.halfNeeded w = true
  idle : ∀ w, (s.quad arr.val q.val).half (!s.activeHalf arr.val q.val) = some w → s.halfNeeded w = false ∨ (w.batch ≠ b.id ∧ w.next = none)
  noWait : ∀ w ∈ s.fwaits, w.acc ≠ .weights arr b.id
  aligned : (s.tileHome b l (tileOf l c kslice nblk).1).1 % 64 = 0 ∧ (s.tileHome b l (tileOf l c kslice nblk).1).2 % 64 = 0

/-- The streaming tile of a half that holds weight tile `i` of the running layer of a batch, arrived (R348). -/
def arrivedTile (s : State) (arr : Fin 2) (b : MBatch) (i : Nat) : Option STile :=
  ((s.ws[arr.val]?).getD WStore.init).tiles.find? (fun y => y.disp == b.disp && y.model == b.model && y.layer == b.layer && y.tile == i && y.arrived)

/-- A weight tile of the running layer, which no half holds resident, is fetched: its table entry, its data and its attributes can be read, and a
streaming tile can be taken for it (R348, R360). -/
structure FetchesTile (s : State) (arr : Fin 2) (b : MBatch) (l : Layer) (c : MxClass) (i : Nat) : Prop where
  streamed : s.placedLayer arr.val b.model b.layer = none
  here : arrivedTile s arr b i = none
  kept : ∃ d, s.disp b.disp = some d ∧ d.deadTreelets = []
  room : s.tileRoom arr.val b b.layer i = true
  entry : s.reaches (.layerTable b.disp b.stage) (s.batchTable b + l.tileFirst + 16 * i) 16 false = true
  data : s.reaches (.weights arr b.id) (s.tileHome b l i).1 65536 false = true
  attr : s.reaches (.weights arr b.id) (s.tileHome b l i).2 (attrBlock c l.wFmt l.sparse) false = true

/-- A quadrant tile of the running layer of a batch, as a half holds it. -/
def halfOf (b : MBatch) (kslice nblk : Nat) (data attr : List Byte) : HalfW :=
  { query := false, next := none, batch := b.id, layer := b.layer, kslice := kslice, nblk := nblk, data := data, attr := attr }

/-- One quadrant has changed to `x`; the others are as before. -/
def QuadIs (s t : State) (arr q : Nat) (x : Quad) : Prop :=
  t.quad arr q = x ∧ ∀ a p, a < 2 → p < 4 → 4 * a + p ≠ 4 * arr + q → t.quad a p = s.quad a p

/-- An N-block of the only batch of an array is finished and the post-unit can take it. -/
structure BlockReady (s : State) (arr : Fin 2) (nblk : Nat) (b : MBatch) (l : Layer) (d : Dispatch) (g : Stage) : Prop where
  canonical : s.canonical = true
  only : s.mbatches.filter (fun x => x.arr == arr.val) = [b] ∧ (∀ x ∈ s.mbatches, x.id = b.id → x = b) ∧ b.emitted = none
  layer : l = s.batchLayer b b.layer
  block : nblk < l.liveBlocks ∧ b.blockDone l nblk = true ∧ ∀ x ∈ b.outs, x.1 ≠ nblk
  disp : s.disp b.disp = some d ∧ d.deadTreelets = [] ∧ s.stageOf d b.stage = some g
  goesOn : s.mxBlocked b.disp b.stage = false
  quad : ∃ q ∈ s.mxGroup g arr.val (s.batchCls b), s.mayWork (quadUnit arr.val q) (s.batchCls b) = true
  read : (∀ w ∈ s.fwaits, w.acc ≠ .weights arr b.id) ∧
    s.reaches (.weights arr b.id) (l.paramAddr + 1024 * nblk) (8 * min 128 (l.n - 128 * nblk)) false = true
  table : s.batchOk b = true ∧ l.paramAddr % 64 = 0

/-- Every vector of a batch that is still computed has its item ended. -/
def BatchEnds (s t : State) (b : MBatch) : Prop :=
  ∀ v ∈ b.vecs, v.dead = false → (∃ d, s.disp b.disp = some d ∧ v.item < d.rcd.itemCount) →
    ∃ d', t.disp b.disp = some d' ∧ inRuns d'.endedItems v.item = true

/-- The output slot of vector `v` once the layer's last N-block has the results `zs` (R343). -/
def lastSlot (b : MBatch) (l : Layer) (nblk : Nat) (zs : List (List Nat)) (v : Nat) : List Byte :=
  (outSlot l (MBatch.results { b with outs := b.outs ++ [(nblk, zs)] } l v)).1

/-- The results of a finished N-block: for each live vector, one for each live column, from its accumulator word and the scale and bias of the
column (R352). -/
def BlockOut (s : State) (b : MBatch) (l : Layer) (nblk : Nat) (zs : List (List Nat)) : Prop :=
  zs.length = b.vecs.length ∧ ∀ v ∈ b.live, ∃ z, zs[v]? = some z ∧ z.length = min 128 (l.n - 128 * nblk) ∧
    ∀ c, c < min 128 (l.n - 128 * nblk) → z[c]? = some (postZ l (b.word nblk v c) (leAt s.mem (l.paramAddr + 8 * (128 * nblk + c)) 4)
      (leAt s.mem (l.paramAddr + 8 * (128 * nblk + c) + 4) 4))

end Sys2Proof.Claims

/-- MATMUL_BATCH_ASSIGN gives VB vectors of the input queue, in item order and whole, to the array group that is free, which starts at layer
0; WEIGHT_HALF_LOADED puts a quadrant tile of the running layer and its attributes into the idle half, from the Weight Store or by a fetch,
whose ABORT ends the batch's items; SWAP makes the loaded idle half the active one, flips the quadrant's bit of MX_HALF and empties the
other; TILE_STEP adds the slice sum of every column of the active tile to the accumulator word of each vector of the run, one K-slice in
order, and counts the multiplications; and POST_UNIT gives the results of a finished N-block, which with the last block of the layer go to
the work area as the inputs of the next, or end the items. The model's choices in it are log entries 34, 35, 84, 93, 94 and 97. -/
def Obligations.MatrixArrayResults : Prop :=
  (∀ (s : State) (id k : Nat) (arr : Fin 2) (d : Dispatch) (c : Chain) (g : Stage) (im : Image) (e : QEntry) (vb stride : Nat),
    TileFits s id k arr.val d c g im e vb stride → ∃ t b, exec (.matmulBatchAssign id k arr) s = .next t ∧ b ∈ t.mbatches ∧
      b = { id := s.nextMb, disp := id, stage := k, arr := arr.val, model := g.model, area := arr.val, layer := 0, input := none, acc := [],
            slices := [], outs := [], emitted := none, vecs := (List.range vb).map (tileVec s e (s.entryAddr d e.slot g.input) stride) } ∧
      (∀ x ∈ s.mbatches, x ∈ t.mbatches) ∧ t.mem = s.mem ∧ t.nextMb = s.nextMb + 1 ∧
      t.quads = (List.range 8).map (fun i =>
        let x := (s.quads[i]?).getD Quad.init; if i / 4 = arr.val then x.forBatch id k s.nextMb else x) ∧
      ∃ d' l, t.disp id = some d' ∧ d'.fail = d.fail ∧
        (d'.hq g.input).entries = (if e.count = vb then [] else [{ e with used := vb }]) ++ l) ∧
  (∀ (s : State) (arr : Fin 2) (q : Fin 4) (kslice nblk : Nat) (b : MBatch) (l : Layer) (c : MxClass) (p : PlacedLayer) (data attr : List Byte),
    LoadsNext s arr q b l c kslice nblk → s.placedLayer arr.val b.model b.layer = some p →
    s.residentData arr.val p l c kslice nblk = some (data, attr) → masksOk l c attr = true →
    ∃ t, exec (.weightHalfLoaded arr q kslice nblk .ok) s = .next t ∧ t = { s with quads := t.quads } ∧
      QuadIs s t arr.val q.val ((s.quad arr.val q.val).withHalf (!s.activeHalf arr.val q.val) (some (halfOf b kslice nblk data attr)))) ∧
  (∀ (s : State) (arr : Fin 2) (q : Fin 4) (kslice nblk : Nat) (b : MBatch) (l : Layer) (c : MxClass) (y : STile) (data attr : List Byte),
    let i := (tileOf l c kslice nblk).1
    let u := (tileOf l c kslice nblk).2
    let n := attrBlock c l.wFmt l.sparse / 4
    LoadsNext s arr q b l c kslice nblk → s.placedLayer arr.val b.model b.layer = none → arrivedTile s arr b i = some y →
    data = bytesAt ((s.ws[arr.val]?).getD WStore.init).bytes ((252 + y.slot) * 65536 + u * quadBytes c) (quadBytes c) →
    attr = (y.attr.drop (u * n)).take n → masksOk l c attr = true →
    ∃ t, exec (.weightHalfLoaded arr q kslice nblk .ok) s = .next t ∧ t = { s with quads := t.quads } ∧
      QuadIs s t arr.val q.val ((s.quad arr.val q.val).withHalf (!s.activeHalf arr.val q.val) (some (halfOf b kslice nblk data attr)))) ∧
  (∀ (s : State) (arr : Fin 2) (q : Fin 4) (kslice nblk : Nat) (b : MBatch) (l : Layer) (c : MxClass) (data attr : List Byte),
    let i := (tileOf l c kslice nblk).1
    let u := (tileOf l c kslice nblk).2
    let n := attrBlock c l.wFmt l.sparse
    LoadsNext s arr q b l c kslice nblk → FetchesTile s arr b l c i →
    data = bytesAt s.mem ((s.tileHome b l i).1 + u * quadBytes c) (quadBytes c) →
    attr = ((bytesAt s.mem (s.tileHome b l i).2 n).drop (u * (n / 4))).take (n / 4) → masksOk l c attr = true →
    ∃ t, exec (.weightHalfLoaded arr q kslice nblk .ok) s = .next t ∧ t = { moved s t with quads := t.quads, ws := t.ws } ∧ SameEntries s t ∧
      RegsBut accessRegs s t ∧
      QuadIs s t arr.val q.val ((s.quad arr.val q.val).withHalf (!s.activeHalf arr.val q.val) (some (halfOf b kslice nblk data attr)))) ∧
  (∀ (s : State) (arr : Fin 2) (q : Fin 4) (kslice nblk : Nat) (b : MBatch) (l : Layer) (c : MxClass),
    let i := (tileOf l c kslice nblk).1
    LoadsNext s arr q b l c kslice nblk → s.placedLayer arr.val b.model b.layer = none → arrivedTile s arr b i = none →
    (∃ d, s.disp b.disp = some d ∧ d.deadTreelets = []) → ∃ t d', exec (.weightHalfLoaded arr q kslice nblk .abort) s = .next t ∧
      BatchEnds s t b ∧ t.disp b.disp = some d' ∧ (2 ^ 32 + (s.tileHome b l i).1, 3) ∈ d'.deadTreelets ∧ t.mem = s.mem ∧ t.quads = s.quads) ∧
  (∀ (s : State) (arr : Fin 2) (q : Fin 4) (b : MBatch) (w : HalfW), let x := s.quad arr.val q.val
    let act := s.activeHalf arr.val q.val
    s.canonical = true → s.batchOn arr.val q.val = some b → x.half (!act) = some w → w.query = false → w.next = none → w.batch = b.id →
    (∀ v, x.half act = some v → v.batch = b.id → v.next = none → s.halfNeeded v = false) →
    ∃ t, exec (.swap arr q) s = .next t ∧ QuadIs s t arr.val q.val (x.withHalf act none) ∧
      (∀ i, i < 4 → (t.get (F.mxHalf arr.val)).testBit i = if i = q.val then !act else (s.get (F.mxHalf arr.val)).testBit i) ∧
      t = { s with quads := t.quads, regs := t.regs } ∧ RegsBut [F.mxHalf arr.val] s t) ∧
  (∀ (s : State) (arr : Fin 2) (q : Fin 4) (first count : Nat) (b : MBatch) (l : Layer) (c : MxClass) (w : HalfW),
    let run := b.live.filter (fun v => first ≤ v && v < first + count)
    let n := min 128 (l.n - 128 * w.nblk)
    WorksFor s arr q b l c → (s.quad arr.val q.val).half (s.activeHalf arr.val q.val) = some w → w.query = false → w.next = none →
    w.batch = b.id → w.layer = b.layer → (b.input = none ∨ s.sfPoison = []) →
    count ≤ (match c with | .c16 => 1024 | _ => 2048) → run ≠ [] → (∀ v ∈ run, b.added w.nblk v = w.kslice) → b.vecs.length ≤ 2048 →
    swf (fun _ => 0) b.acc = true → swf (fun _ => 0) b.slices = true →
    ∃ t b', exec (.tileStep arr q first count []) s = .next t ∧ t.mbatch b.id = some b' ∧
      b' = { b with acc := b'.acc, slices := b'.slices } ∧ swf (fun _ => 0) b'.acc = true ∧ swf (fun _ => 0) b'.slices = true ∧
      (∀ v ∈ run, b'.added w.nblk v = w.kslice + 1 ∧ ∀ i, i < n → b'.word w.nblk v i =
        let a := sliceElems l c (slotElems l.aFmt l.k (s.inputSlot b v)) w.kslice
        let sum := sliceSum c (columnWeights l c (rowVals (quadBytes c / 128) 128 w.data) (leVal w.attr) i) a
        if intAcc l.wFmt = true then (accInt (b.word w.nblk v i) sum).1 else accFp (b.word w.nblk v i) sum) ∧
      (∀ m v, v < 2048 → (m ≠ w.nblk ∨ v ∉ run) → b'.added m v = b.added m v ∧ ∀ i, i < 128 → b'.word m v i = b.word m v i) ∧
      QuadIs s t arr.val q.val { s.quad arr.val q.val with applied := true } ∧
      t.get (F.mxMacLo arr.val) + 2 ^ 32 * t.get (F.mxMacHi arr.val) =
        (s.get (F.mxMacLo arr.val) + 2 ^ 32 * s.get (F.mxMacHi arr.val) + run.length * sliceLen c l.sparse * 128) % 2 ^ 64 ∧
      t = { s with mbatches := t.mbatches, quads := t.quads, macRem := t.macRem, regs := t.regs } ∧
      RegsBut ([F.mxSatCount arr.val, F.mxMacLo arr.val, F.mxMacHi arr.val] ++ perfRegs) s t) ∧
  (∀ (s : State) (arr : Fin 2) (nblk : Nat) (b : MBatch) (l : Layer) (d : Dispatch) (g : Stage), BlockReady s arr nblk b l d g →
    (∃ k, k < l.liveBlocks ∧ k ≠ nblk ∧ ∀ x ∈ b.outs, x.1 ≠ k) → ∃ t zs, exec (.postUnit arr nblk .ok) s = .next t ∧ BlockOut s b l nblk zs ∧
      t.mbatch b.id = some { b with outs := b.outs ++ [(nblk, zs)] } ∧ t = { moved s t with mbatches := t.mbatches } ∧ SameEntries s t ∧
      RegsBut ([F.mxSatCount arr.val, F.mxNanCount arr.val] ++ accessRegs) s t) ∧
  (∀ (s : State) (arr : Fin 2) (nblk : Nat) (b : MBatch) (l : Layer) (d : Dispatch) (g : Stage), BlockReady s arr nblk b l d g →
    (∀ k, k < l.liveBlocks → k ≠ nblk → ∃ x ∈ b.outs, x.1 = k) → b.layer + 1 < s.batchLayers b →
    (∀ r ∈ s.rays, r.loc ≠ .ended) → (∀ x ∈ s.gblocks, x.closed = true) →
    ∃ t zs, exec (.postUnit arr nblk .ok) s = .next t ∧ BlockOut s b l nblk zs ∧
      t.mbatch b.id = some { b with vecs := b.vecs.map (fun x => { x with bytes := [] }), acc := [], slices := [], outs := [],
                                    input := some (s.workAddr b b.layer), layer := b.layer + 1 } ∧
      ((∀ v ∈ b.live, (lastSlot b l nblk zs v).length = l.stride) →
        ∀ v ∈ b.live, bytesAt t.sf (s.workAddr b b.layer + v * l.stride) l.stride = lastSlot b l nblk zs v) ∧
      t.mem = s.mem ∧ t.disps = s.disps) ∧
  (∀ (s : State) (arr : Fin 2) (nblk : Nat) (b : MBatch) (l : Layer) (d : Dispatch) (g : Stage), BlockReady s arr nblk b l d g →
    (∀ k, k < l.liveBlocks → k ≠ nblk → ∃ x ∈ b.outs, x.1 = k) → s.batchLayers b ≤ b.layer + 1 → g.out0 = 255 →
    ∃ t, exec (.postUnit arr nblk .ok) s = .next t ∧ t.mbatch b.id = none ∧ BatchEnds s t b ∧
      (∃ d', t.disp b.disp = some d' ∧ d'.fail = d.fail) ∧ t.mem = s.mem)

/-! ## Stream engines -/

namespace Sys2Proof.Claims

/-- The active run of an engine and the slot beside it. -/
def SlotsAre (t : State) (n : Nat) (active shadow : SSlot) : Prop := (t.se n).active = active ∧ (t.se n).shadow = shadow

/-- Only one stream engine has changed, beside registers. -/
def OnlyEngine (s t : State) (n : Nat) : Prop :=
  t = { s with ses := t.ses, regs := t.regs } ∧ ∀ i, i ≠ n → t.se i = s.se i

/-- As `OnlyEngine`, for a command that makes accesses through the memory ports. -/
def OnlyEngineBy (s t : State) (n : Nat) : Prop :=
  t = { moved s t with ses := t.ses } ∧ SameEntries s t ∧ ∀ i, i ≠ n → t.se i = s.se i

/-- A claimed slot that waits for its descriptor. -/
def isClaim : SSlot → Bool
  | .pending _ _ _ _ => true
  | _ => false

/-- A run armed by the owner whose first transfer is still reading, so that nothing more of it can be delivered. -/
def Reading (r : Run) : Prop := r.owner = .armed ∧ ∃ x rest, r.xfers = x :: rest ∧ x.phase = .reading

/-- Every other stream engine waits for a read or is idle. -/
def OthersWait (s : State) (n : Nat) : Prop := ∀ i, i < 16 → i ≠ n → ∀ r, s.activeRun i = some r → Reading r

/-- The descriptor that a claim of class `cls` has read, as a run. -/
def armedRun (cls : Nat) (b : List Byte) : Run := Run.begin .armed cls (SDesc.ofBytes b) (SDesc.ofBytes b).src (SDesc.ofBytes b).dst 0

/-- The registers of a run's start (R495). -/
def runRegs (n : Nat) : List RField :=
  [F.seStatusRunStatus n, F.seStatusDictExcess n, F.seTiles n, F.seDeliveredLo n, F.seDeliveredHi n, F.seRestart01I0 n, F.seRestart01I1 n,
   F.seRestart23I2 n, F.seRestart23I3 n, F.seRestart4 n]

/-- The stage of a running dispatch that takes item numbers for its items, whose next item may be taken, where no dispatch that comes before waits
for an engine (R33), and the engine of R467, idle. -/
structure RunFits (s : State) (id k : Nat) (d : Dispatch) (c : Chain) (g : Stage) (i : Nat) (e : Fin 16) : Prop where
  canonical : s.canonical = true
  disp : s.disp id = some d ∧ d.phase = .running ∧ d.fixedStatus = 0
  chain : s.chainOf d = some c
  stage : s.stageOf d k = some g ∧ s.stageFor id k = some g ∧ g.kind = 7 ∧ g.input = 255 ∧ g.out0 = 255
  noWait : ∀ w ∈ s.fwaits, w.acc ≠ .template id k
  item : s.itemsOf id k = [] ∧ (d.stages[k]?).map (fun x => x.taken) = some i ∧ i < d.rcd.itemCount
  first : ∀ x ∈ s.disps, x.phase = .running → x.fixedStatus = 0 → (x.rcd.cls < d.rcd.cls ∨ (x.rcd.cls = d.rcd.cls ∧ x.id < d.id)) →
    s.streamWaits g.seMask x = false
  engine : s.placeOn g.seMask = some e.val ∧ s.se e.val = { s.se e.val with active := .free, shadow := .free }

/-- The first template of a stage, read from the active image's stream table, is valid. -/
structure TemplateFits (s : State) (g : Stage) (ds : SDesc) : Prop where
  image : ∃ im, s.active = some im ∧ ds = SDesc.ofBytes (bytesAt s.mem (im.strmAddr + 64 * g.strmFirst) 64)
  valid : ds.valid true = true ∧ ds.srcBind ≠ 2 ∧ ds.dstBind ≠ 2

/-- That template can be read. -/
def TemplateReached (s : State) (id k : Nat) (g : Stage) : Prop :=
  ∀ im, s.active = some im → s.reaches (.template id k) (im.strmAddr + 64 * g.strmFirst) 64 false = true

/-- The base of a side of a template: its own, with SRC_BASE or DST_BASE of the parameter block where BIND is 1 (Table 123). -/
def sideBase (own bind : Nat) (d : Dispatch) (o : Nat) : Int := (own : Int) + ((if bind = 1 then leVal ((d.param.drop o).take 8) else 0 : Nat) : Int)

end Sys2Proof.Claims

/-- Arming: SE_CMD with ARM claims a free slot with the bytes that stand at SE_ARM_ADDR, and answers ARM_OVERRUN with no slot free and
NOT_IN_SERVICE on an engine out of service; ABORT marks the owner's run to end ABORTED once its transfers have completed, and CLEAR_SHADOW
frees the shadow slot of a claim or of an owner's run; ARM_DESC_READ takes a valid descriptor into its slot as a run, and frees the slot on a
bad descriptor or a failed read, with the result shown where no later ARM has been given. -/
def Sys2Proof.Claims.ArmingResults : Prop :=
  (∀ (s : State) (m : Master) (se : Fin 16) (v : Word), let n := se.val
    let armed := { s.se n with arms := (s.se n).arms + 1 }
    let claim := SSlot.pending ((s.se n).arms + 1) (v.toNat / 16 % 4) (64 * s.get (F.seArmAddrLo n) + 2 ^ 32 * s.get (F.seArmAddrHi n))
      (bytesAt s.mem (64 * s.get (F.seArmAddrLo n) + 2 ^ 32 * s.get (F.seArmAddrHi n)) 64)
    let gives := fun (e : StreamEng) (result : Nat) => ∃ t, exec (.seArm m se v) s = .next t ∧ t.se n = e ∧ t.get (F.seArmResult n) = result ∧
      OnlyEngine s t n ∧ RegsBut [F.seArmResult n] s t
    s.canonical = true → Takes s m (0x3000C + 0x400 * n) →
    (s.inService (.se se) = false → gives armed 7) ∧
    (s.inService (.se se) = true → (s.se n).active = .free → isClaim (s.se n).shadow = false → gives { armed with active := claim } 1) ∧
    (s.inService (.se se) = true → (s.se n).active ≠ .free → (s.se n).shadow = .free → gives { armed with shadow := claim } 1) ∧
    (s.inService (.se se) = true → ((s.se n).active ≠ .free ∨ isClaim (s.se n).shadow = true) → (s.se n).shadow ≠ .free → gives armed 4)) ∧
  (∀ (s : State) (m : Master) (se : Fin 16) (v : Word) (r : Run), Takes s m (0x3000C + 0x400 * se.val) → s.activeRun se.val = some r →
    Reading r → r.endWith = none → OthersWait s se.val → ∃ t, exec (.seAbort m se v) s = .next t ∧
      t.activeRun se.val = some { r with endWith := some 6 } ∧ (t.se se.val).shadow = (s.se se.val).shadow ∧ t.regs = s.regs ∧ t.mem = s.mem ∧
      ∀ w, w ∈ t.fwaits ↔ w ∈ s.fwaits ∧ w.acc ≠ .run se) ∧
  (∀ (s : State) (m : Master) (se : Fin 16) (v : Word), Takes s m (0x3000C + 0x400 * se.val) →
    (isClaim (s.se se.val).shadow = true ∨ ∃ r, (s.se se.val).shadow = .run r ∧ r.owner = .armed) →
    ∃ t, exec (.seClearShadow m se v) s = .next t ∧ SlotsAre t se.val (s.se se.val).active .free ∧ OnlyEngine s t se.val ∧ t.regs = s.regs) ∧
  (∀ (s : State) (se : Fin 16) (k c a : Nat) (b : List Byte), s.canonical = true → (s.se se.val).active = .pending k c a b →
    (∀ w ∈ s.fwaits, w.acc ≠ .armDesc se) → s.reaches (.armDesc se) a 64 false = true → OthersWait s se.val →
    (SDesc.ofBytes b).valid false = true → ∃ t, exec (.armDescRead se .ok) s = .next t ∧
      SlotsAre t se.val (.run (armedRun c b)) (s.se se.val).shadow ∧
      t.get (F.seArmResult se.val) = (if (s.se se.val).arms = k then 2 else s.get (F.seArmResult se.val)) ∧ t.get (F.seStatusRunStatus se.val) = 1 ∧
      t.get (F.seDeliveredLo se.val) = 0 ∧ t.get (F.seDeliveredHi se.val) = 0 ∧ t.get (F.seTiles se.val) = 0 ∧ OnlyEngineBy s t se.val ∧
      RegsBut (F.seArmResult se.val :: runRegs se.val ++ accessRegs) s t) ∧
  (∀ (s : State) (se : Fin 16) (k c a : Nat) (b : List Byte) (r : Run), s.canonical = true → (s.se se.val).active = .run r →
    (s.se se.val).shadow = .pending k c a b → (∀ w ∈ s.fwaits, w.acc ≠ .armDesc se) → s.reaches (.armDesc se) a 64 false = true →
    (SDesc.ofBytes b).valid false = true → ∃ t, exec (.armDescRead se .ok) s = .next t ∧ SlotsAre t se.val (.run r) (.run (armedRun c b)) ∧
      t.get (F.seArmResult se.val) = (if (s.se se.val).arms = k then 3 else s.get (F.seArmResult se.val)) ∧
      OnlyEngineBy s t se.val ∧ RegsBut (F.seArmResult se.val :: accessRegs) s t) ∧
  (∀ (s : State) (se : Fin 16) (k c a : Nat) (b : List Byte) (o : ReadOutcome), s.canonical = true → (s.se se.val).active = .pending k c a b →
    (∀ w ∈ s.fwaits, w.acc ≠ .armDesc se) → (o = .abort ∨ s.reaches (.armDesc se) a 64 false = true) → o ≠ .unc →
    (o = .ok → (SDesc.ofBytes b).valid false = false) → ∃ t, exec (.armDescRead se o) s = .next t ∧
      SlotsAre t se.val .free (s.se se.val).shadow ∧
      t.get (F.seArmResult se.val) = (if (s.se se.val).arms = k then (if o = .ok then 5 else 6) else s.get (F.seArmResult se.val)) ∧
      OnlyEngineBy s t se.val ∧ RegsBut (F.seArmResult se.val :: accessRegs) s t)

/-- Runs: STREAM_RUN_PLACE takes the next item and starts its template's run on the engine of R467, with the bases of Table 123, or fails the
item where the template's read fails;
STREAM_TRANSFER_ISSUE asks for the sectors of the next elements that translate and holds one transfer more; STREAM_TRANSFER_DONE of the last
element copies its bytes, ends the run OK, counts it and tells the owner; and DICT_POLL reads TAIL again. -/
def Sys2Proof.Claims.StreamRunResults : Prop :=
  (∀ (s : State) (id k : Nat) (d : Dispatch) (c : Chain) (g : Stage) (i : Nat) (ds : SDesc) (e : Fin 16), RunFits s id k d c g i e →
    let sb := sideBase ds.src ds.srcBind d 0x18
    let db := sideBase ds.dst ds.dstBind d 0x20
    TemplateFits s g ds → TemplateReached s id k g → ds.aligned sb = true → ds.aligned db = true → OthersWait s e.val →
    ∃ t d', exec (.streamRunPlace id k .ok) s = .next t ∧
      (∃ o, (t.se e.val).active = .run (Run.begin o d.rcd.cls ds sb db i) ∧ o = .stage id k i 0 none) ∧ (t.se e.val).shadow = .free ∧
      t.itemsOf id k = [{ disp := id, stage := k, item := i, entry := none, src := 0, dst := 0, tmpl := 0, busy := true, saved := none }] ∧
      t.disp id = some d' ∧ (d'.stages[k]?).map (fun x => x.taken) = some (i + 1) ∧ t.get (F.seStatusRunStatus e.val) = 1 ∧
      t.mem = s.mem ∧ t.sf = s.sf ∧ RegsBut (runRegs e.val ++ accessRegs) s t) ∧
  (∀ (s : State) (id k : Nat) (d : Dispatch) (c : Chain) (g : Stage) (i : Nat) (e : Fin 16) (o : ReadOutcome), RunFits s id k d c g i e →
    o ≠ .ok → (o = .unc → TemplateReached s id k g ∧ s.active.isSome = true) → OthersWait s e.val →
    ∃ t, exec (.streamRunPlace id k o) s = .next t ∧
      ItemFails s t id i ∧ t.get (F.seStatusRunStatus e.val) = (if o = .abort then 2 else 4) ∧ (t.se e.val).active = .free ∧
      t.get (F.seRuns e.val) = min (s.get (F.seRuns e.val) + 1) (2 ^ 32 - 1) ∧ t.itemsOf id k = [] ∧ t.mem = s.mem) ∧
  (∀ (s : State) (e : Fin 16) (r : Run) (last : Nat), s.canonical = true → s.activeRun e.val = some r → s.inService (.se e) = true →
    s.inSeq (.se e) = false → r.owner = .armed → r.endWith = none → (∀ w ∈ s.fwaits, w.acc ≠ .run e) → s.seOutstanding e.val < 6 → r.desc.mode = 0 →
    r.desc.srcSpace = 0 → (∀ x ∈ r.xfers, x.phase = .reading) → r.next < last → r.limit ≤ r.desc.total →
    (s.gatherElems e.val r (min r.limit (s.byteLimit r / r.desc.size)) (8192 / r.desc.size) r.next [] []).1 = last →
    (∀ i, r.next ≤ i → i < last → ∀ a ∈ sectorsOf (r.srcAt i).toNat r.desc.size, s.windowOf a = none ∧ (s.portOf (s.physical e.val a)).isSome = true) →
    OthersWait s e.val → ∃ t, exec (.streamTransferIssue e) s = .next t ∧
      t.activeRun e.val = some { r with xfers := r.xfers ++ [{ first := r.next, count := last - r.next, phase := .reading }], next := last,
                                            taken := false } ∧ (t.se e.val).wait = 0 ∧
      (∀ i, r.next ≤ i → i < last → ∀ a ∈ sectorsOf (r.srcAt i).toNat r.desc.size, ∃ p ∈ t.ports, ∃ q ∈ p.queue, q.acc = .run e ∧
        q.addr = a ∧ q.write = false) ∧ t.mem = s.mem ∧ t.sf = s.sf) ∧
  (∀ (s : State) (e : Fin 16) (r : Run), s.canonical = true → s.activeRun e.val = some r → r.owner = .armed → r.desc.mode = 0 →
    r.desc.srcSpace = 0 → r.desc.dstSpace = 1 → r.endWith = none → r.delivered + 1 = r.desc.total → r.limit = r.desc.total →
    r.xfers = [{ first := r.delivered, count := 1, phase := .reading }] → OthersWait s e.val → (s.se e.val).shadow = .free →
    (∀ a ∈ sectorsOf (r.srcAt r.delivered).toNat r.desc.size, a ∉ r.bad ∧ s.windowOf a = none) →
    s.openSector e false (sectorsOf (r.srcAt r.delivered).toNat r.desc.size) = false →
    ∃ t, exec (.streamTransferDone e 0) s = .next t ∧ (t.se e.val).active = .free ∧
      (∀ i, i < r.desc.size → byteAt t.sf ((r.dstAt r.delivered).toNat + i) = byteAt s.mem ((r.srcAt r.delivered).toNat + i)) ∧
      (∀ a, (a < (r.dstAt r.delivered).toNat ∨ (r.dstAt r.delivered).toNat + r.desc.size ≤ a) → byteAt t.sf a = byteAt s.sf a) ∧ t.mem = s.mem ∧
      t.get (F.seStatusRunStatus e.val) = 0 ∧ t.get (F.seRuns e.val) = min (s.get (F.seRuns e.val) + 1) (2 ^ 32 - 1) ∧
      (t.get F.seDonePend).testBit e.val = true ∧ (r.desc.flags.testBit 1 = true → (t.get F.intStatus).testBit 0 = true) ∧
      t.get (F.seBytesLo e.val) + 2 ^ 32 * t.get (F.seBytesHi e.val) =
        (s.get (F.seBytesLo e.val) + 2 ^ 32 * s.get (F.seBytesHi e.val) + r.desc.size) % 2 ^ 64) ∧
  (∀ (s : State) (e : Fin 16) (r : Run) (h : Nat), s.activeRun e.val = some r → r.desc.mode = 2 → r.ring = some (h, h) → r.endWith = none →
    ∃ t, exec (.dictPoll e) s = .next t ∧ t.activeRun e.val = some { r with ring := some (h, leAt s.mem (r.sbase.toNat + 8) 4) } ∧
      (t.se e.val).wait = 0 ∧ t = { s with ses := t.ses } ∧ ∀ i, i ≠ e.val → t.se i = s.se i)

/-- Stream engines: arming, and the life of a run. The model's choices in it are log entries 47, 48, 49 and 84. -/
def Obligations.StreamResults : Prop := Sys2Proof.Claims.ArmingResults ∧ Sys2Proof.Claims.StreamRunResults

/-! ## Memory ports and translation -/

namespace Sys2Proof.Claims

/-- Request `q` is the oldest at a port that the slot at position `pos` of the cycle takes and that its run's writes allow (R480), the port may
issue, and no hot-page count rides on it. -/
structure IssuesNext (s : State) (mp : Fin 16) (pos : Fin 8) (m : MemPort) (l r : List MemReq) (q : MemReq) : Prop where
  canonical : s.canonical = true
  port : s.ports[mp.val]? = some m ∧ m.queue = l ++ q :: r
  up : s.inService (.mp mp) = true ∧ s.inSeq (.mp mp) = false ∧ s.resetting = none
  takes : q.ready = true ∧ s.slotTakes pos.val q = true ∧ s.inOrder q = true
  oldest : ∀ x ∈ l, x.ready = false ∨ s.slotTakes pos.val x = false ∨ s.inOrder x = false
  plain : q.remote = true ∨ s.get F.xlatHotCfgEn = 0

/-- One port has changed to `m`; the others are as before. -/
def PortIs (s t : State) (mp : Fin 16) (m : MemPort) : Prop :=
  t.ports[mp.val]? = some m ∧ ∀ i, i ≠ mp.val → t.ports[i]? = s.ports[i]?

/-- The sector counter of a port and slot position: MP_RM_SECTORS at position 7, else MP_WR_SECTORS or MP_RD_SECTORS. -/
def sectorCount (mp pos : Nat) (write : Bool) : RField :=
  if pos = 7 then F.mpRmSectors mp else if write then F.mpWrSectors mp else F.mpRdSectors mp

/-- An access misses the micro-TLB of a requester in service that translates it, and waits on nothing else. -/
structure Misses (s : State) (req page : Nat) (write : Bool) (acc : Access) : Prop where
  canonical : s.canonical = true
  may : mayTranslate req acc = true ∧ s.inService (reqUnit req) = true
  miss : s.tlbHit req page write = none
  noRun : ∀ e, acc ≠ .run e
  noRecord : ∀ w ∈ s.fwaits, w.acc = acc → w.page ≠ page
  fresh : ∀ x ∈ s.xreqs ++ s.xwait, x.req = req → x.page = page → x.accs.contains (acc, write) = false

/-- A requester has no miss to a page, and fewer than 4 to others, outstanding or waiting for the port (R501). -/
def MayMiss (s : State) (req page : Nat) : Prop :=
  (∀ x ∈ s.xreqs ++ s.xwait, x.req = req → x.page ≠ page) ∧ ((s.xreqs ++ s.xwait).filter (fun x => x.req == req)).length < 4

/-- A translation request of one access, with its number. -/
def missOf (id req page : Nat) (write : Bool) (acc : Access) : XReq :=
  { id := id, req := req, page := page, write := write, accs := [(acc, write)], retried := false, since := [] }

/-- A request on the translation port (R502). -/
def asked (s : State) (id page : Nat) (write : Bool) : Out := .xlat id page write s.integ.streamId (s.pasidNow.getD 0) s.pasidNow.isSome

/-- The micro-TLB entry that an answer to request `x` fills. -/
def filled (x : XReq) (r : XlatResp) : TlbEntry :=
  { page := x.page, size := r.size.val, pa := r.pa.toNat, readOk := r.readOk, writeOk := r.writeOk, blocked := false }

/-- Whether an invalidation of those that have arrived since request `x` was made overlaps the page that an answer gives, or, of a fault, the page
asked for (R509). -/
def staleAnswer (x : XReq) (r : XlatResp) : Prop :=
  ∃ v ∈ x.since, if r.fault = 0 then invalOverlaps v (filled x r).extent.1 (filled x r).extent.2 = true
    else invalOverlaps v (4096 * x.page) 4096 = true

/-- A request of one access, a write or a read, not of a run, is outstanding and none waits for the port; its page has no open record and the
lowest free slot is `i`. -/
structure FaultsAlone (s : State) (id : Fin 64) (x : XReq) (acc : Access) (w : Bool) (i : Nat) : Prop where
  canonical : s.canonical = true
  found : s.xreqs.find? (fun y => y.id == id.val) = some x
  one : x.accs = [(acc, w)] ∧ (∀ e, acc ≠ .run e) ∧ x.req < 64 ∧ s.xwait = []
  noRecord : s.recordOf x.page (s.pasidNow.getD 0) = none
  slot : i < 16 ∧ s.get (F.fltInfoOpen i) = 0 ∧ ∀ j, j < i → s.get (F.fltInfoOpen j) ≠ 0

/-- The fields of fault record `i` for a fault of one access. -/
def recordOpened (s : State) (x : XReq) (acc : Access) (w : Bool) (reason i : Nat) : List (RField × Nat) :=
  [(F.fltInfoOpen i, 1), (F.fltVaLo i, x.page % 2 ^ 20), (F.fltVaHi i, x.page / 2 ^ 20), (F.fltInfoReason i, reason),
   (F.fltInfoWrite i, boolNat w), (F.fltInfoRead i, boolNat (!w)), (F.fltInfoClass i, s.accClass acc),
   (F.fltInfoPasid i, s.pasidNow.getD 0), (F.fltReqLo i, 2 ^ x.req), (F.fltReqHi i, 2 ^ x.req / 2 ^ 32), (F.fltSeq i, s.fltSeq),
   (F.xlatFaults, min (s.get F.xlatFaults + 1) (2 ^ 32 - 1)), (F.intStatus, s.get F.intStatus ||| 4)]

/-- The wait of an access on record `i`. -/
def waitOn (s : State) (x : XReq) (acc : Access) (w : Bool) (reason i : Nat) : FWait :=
  { slot := some i, acc := acc, req := x.req, page := x.page, pasid := s.pasidNow.getD 0, reason := reason, write := w,
    cls := s.accClass acc }

/-- Record `slot` is open, and one access waits on it, and no fault waits for a record. -/
structure OneWaits (s : State) (slot : Fin 16) (w : FWait) : Prop where
  canonical : s.canonical = true
  opened : s.get (F.fltInfoOpen slot.val) = 1
  one : s.fwaits.filter (fun y => y.slot == some slot.val) = [w] ∧ ∀ y ∈ s.fwaits, y.slot ≠ none

/-- The access that waits is the read of the descriptor that the `k`-th ARM of stream engine `e` has claimed its active slot for. -/
structure ArmFaulted (s : State) (slot : Fin 16) (e : Fin 16) (w : FWait) (k : Nat) : Prop where
  waits : OneWaits s slot w
  acc : w.acc = .armDesc e
  claim : ∃ c a b, (s.se e.val).active = .pending k c a b

/-- The record has closed and the claim has been released, with DESC_FAULT where no later ARM has been given. -/
structure ArmReleased (s t : State) (slot : Nat) (e : Fin 16) (k : Nat) : Prop where
  closed : t.get (F.fltInfoOpen slot) = 0
  waits : t.fwaits = s.fwaits.filter (fun y => y.slot != some slot && y.acc != .armDesc e)
  result : t.get (F.seArmResult e.val) = if (s.se e.val).arms = k then 6 else s.get (F.seArmResult e.val)
  freed : SlotsAre t e.val .free (s.se e.val).shadow
  others : ∀ i, i ≠ e.val → t.se i = s.se i

end Sys2Proof.Claims

/-- MEM_REQUEST_ISSUE gives the oldest request that the slot takes a free tag and puts it on the port, counted, or counts MP_TAG_WAIT where
no tag is free; MEM_RESPONSE frees the tag, with its write then standing in memory, drops a response that was given up, and counts a stray
one; MEM_REQUEST_TIMEOUT raises TIMEOUT and starts the fence of a port that is not the last. -/
def Sys2Proof.Claims.MemoryPortResults : Prop :=
  (∀ (s : State) (mp : Fin 16) (pos : Fin 8) (m : MemPort) (l r : List MemReq) (q : MemReq), IssuesNext s mp pos m l r q →
    m.tags.length < s.tagLimit → m.tags.length + m.discard.length < 2048 → ∃ t tag, exec (.memRequestIssue mp pos) s = .next t ∧
      tag < 2048 ∧ tag ∉ m.tags.map (fun x => x.1) ∧ tag ∉ m.discard ∧
      PortIs s t mp { m with queue := l ++ r, tags := m.tags ++ [(tag, q)] } ∧
      t = { s with ports := t.ports, ses := t.ses, out := s.out ++ [.kmp mp.val tag q.write (q.pa / 64 * 64)], regs := t.regs } ∧
      (∀ i, t.se i = if i = q.req ∧ q.req < 16 ∧ (accessUnit q.acc).isNone = true then { s.se i with taken := false } else s.se i) ∧
      t.get (sectorCount mp.val pos.val q.write) = min (s.get (sectorCount mp.val pos.val q.write) + 1) (2 ^ 32 - 1) ∧
      RegsBut (sectorCount mp.val pos.val q.write :: perfRegs) s t) ∧
  (∀ (s : State) (mp : Fin 16) (pos : Fin 8) (m : MemPort) (l r : List MemReq) (q : MemReq), IssuesNext s mp pos m l r q →
    s.tagLimit ≤ m.tags.length →
    Does (.memRequestIssue mp pos) s [(F.mpTagWait mp.val, min (s.get (F.mpTagWait mp.val) + 1) (2 ^ 32 - 1))] s) ∧
  (∀ (s : State) (mp : Fin 16) (tag : Fin 2048) (m : MemPort) (q : MemReq), s.canonical = true → s.integrated (.mp mp) = true →
    s.ports[mp.val]? = some m → tag.val ∉ m.discard → m.tags.find? (fun x => x.1 == tag.val) = some (tag.val, q) →
    (∀ c, q.acc ≠ .completion c ∧ q.acc ≠ .failList c) →
    ∃ t, exec (.memResponse mp tag 0) s = .next t ∧ PortIs s t mp { m with tags := m.tags.filter (fun x => x.1 != tag.val) } ∧
      t = { s with ports := t.ports }) ∧
  (∀ (s : State) (mp : Fin 16) (tag : Fin 2048) (m : MemPort) (q : MemReq) (c : Fin 4) (w : PWrite), s.canonical = true →
    s.integrated (.mp mp) = true → s.ports[mp.val]? = some m → tag.val ∉ m.discard → m.tags.find? (fun x => x.1 == tag.val) = some (tag.val, q) →
    (q.acc = .completion c ∨ q.acc = .failList c) → (s.queue c.val).sent = [w] → (s.queue c.val).writes = [] →
    ∃ t, exec (.memResponse mp tag 0) s = .next t ∧ PortIs s t mp { m with tags := m.tags.filter (fun x => x.1 != tag.val) } ∧
      (t.queue c.val).sent = [] ∧ (t.queue c.val).writes = [] ∧ bytesAt t.mem w.addr w.bytes.length = w.bytes ∧
      (∀ a, (a < w.addr ∨ w.addr + w.bytes.length ≤ a) → byteAt t.mem a = byteAt s.mem a) ∧
      (w.entry = false → w.irq = true → (t.get F.intStatus).testBit 0 = true)) ∧
  (∀ (s : State) (mp : Fin 16) (tag : Fin 2048) (status : Fin 4) (m : MemPort), s.canonical = true → s.integrated (.mp mp) = true →
    s.ports[mp.val]? = some m → tag.val ∈ m.discard → ∃ t, exec (.memResponse mp tag status) s = .next t ∧
      PortIs s t mp { m with discard := m.discard.erase tag.val } ∧ t = { s with ports := t.ports }) ∧
  (∀ (s : State) (mp : Fin 16) (tag : Fin 2048) (status : Fin 4) (m : MemPort), s.canonical = true → s.integrated (.mp mp) = true →
    s.ports[mp.val]? = some m → tag.val ∉ m.discard → (∀ x ∈ m.tags, x.1 ≠ tag.val) →
    Does (.memResponse mp tag status) s [(F.mpRspStray mp.val, min (s.get (F.mpRspStray mp.val) + 1) (2 ^ 32 - 1))] s) ∧
  (∀ (s : State) (mp : Fin 16) (tag : Fin 2048) (m : MemPort), s.canonical = true → s.ports[mp.val]? = some m →
    (∃ x ∈ m.tags, x.1 = tag.val) → s.fenced (.mp mp) = false → s.inSeq (.mp mp) = false → s.isLast (.mp mp) = false →
    ∃ t, exec (.memRequestTimeout mp tag) s = .next t ∧ (t.get F.rasStatusClassSeen).testBit 5 = true ∧ t.inSeq (.mp mp) = true ∧
      t.ports = s.ports ∧ t.mem = s.mem)

/-- XLAT_REQUEST joins the miss of its requester to the same page, or sends a request under the present PASID, which waits for the port while 64
are outstanding; a requester with 4 misses waits; XLAT_RESPONSE fills the entry of
the page, or asks again where an invalidation has come since, or opens a fault record for the access; XLAT_REQUEST_TIMEOUT sends the
request once more and then reports reason ERROR; INVALIDATION blocks every entry that it overlaps, and INVALIDATION_ACK removes them once no
tagged request stands under them, with the cache-part lines of its range, and is counted. -/
def Sys2Proof.Claims.TranslationResults : Prop :=
  (∀ (s : State) (req : Fin 64) (page : BitVec 52) (write : Bool) (acc : Access), Misses s req.val page.toNat write acc →
    MayMiss s req.val page.toNat → s.xreqs.length < 64 → s.xwait = [] →
    ∃ t id, exec (.xlatRequest req page write acc) s = .next t ∧ t.xreqs = s.xreqs ++ [missOf id req.val page.toNat write acc] ∧ id < 64 ∧
      (∀ y ∈ s.xreqs, y.id ≠ id) ∧
      t = { s with xreqs := t.xreqs, out := s.out ++ [asked s id page.toNat write], regs := t.regs } ∧
      t.get F.xlatUtlbMiss = min (s.get F.xlatUtlbMiss + 1) (2 ^ 32 - 1) ∧ RegsBut (F.xlatUtlbMiss :: perfRegs) s t) ∧
  (∀ (s : State) (req : Fin 64) (page : BitVec 52) (write : Bool) (acc : Access), Misses s req.val page.toNat write acc →
    MayMiss s req.val page.toNat → 64 ≤ s.xreqs.length → ∃ t, exec (.xlatRequest req page write acc) s = .next t ∧
      t = { s with xwait := s.xwait ++ [missOf 0 req.val page.toNat write acc], regs := t.regs } ∧
      RegsBut (F.xlatUtlbMiss :: perfRegs) s t) ∧
  (∀ (s : State) (req : Fin 64) (page : BitVec 52) (write : Bool) (acc : Access),
    (∀ x ∈ s.xreqs ++ s.xwait, x.req = req.val → x.page ≠ page.toNat) → 4 ≤ ((s.xreqs ++ s.xwait).filter (fun x => x.req == req.val)).length →
    Stays (.xlatRequest req page write acc) s) ∧
  (∀ (s : State) (req : Fin 64) (page : BitVec 52) (write : Bool) (acc : Access), Misses s req.val page.toNat write acc →
    (∃ x ∈ s.xreqs ++ s.xwait, x.req = req.val ∧ x.page = page.toNat) → let join := fun (y : XReq) =>
      if y.req = req.val ∧ y.page = page.toNat then { y with accs := y.accs ++ [(acc, write)] } else y
    ∃ t, exec (.xlatRequest req page write acc) s = .next t ∧
      t = { s with xreqs := s.xreqs.map join, xwait := s.xwait.map join, regs := t.regs } ∧ RegsBut (F.xlatUtlbMiss :: perfRegs) s t) ∧
  (∀ (s : State) (id : Fin 64) (x : XReq) (r : XlatResp), s.canonical = true → s.xreqs.find? (fun y => y.id == id.val) = some x → x.req < 64 →
    s.xwait = [] → r.fault = 0 → ¬staleAnswer x r → ∃ t, exec (.xlatResponse id r) s = .next t ∧ t.xreqs = s.xreqs.filter (fun y => y.id != x.id) ∧
      (t.tlb x.req).getLast? = some (filled x r) ∧ (∀ e ∈ t.tlb x.req, e = filled x r ∨ e ∈ s.tlb x.req) ∧
      (∀ i, i ≠ x.req → t.tlb i = s.tlb i) ∧
      (∀ p ∈ t.ports, ∀ q ∈ p.queue, q.req = x.req → (filled x r).covers (q.addr / 4096) = true →
        (if q.write = true then r.writeOk else r.readOk) = true → q.ready = true) ∧
      t = { s with xreqs := t.xreqs, tlbs := t.tlbs, ports := t.ports }) ∧
  (∀ (s : State) (id : Fin 64) (x : XReq) (r : XlatResp), s.canonical = true → s.xreqs.find? (fun y => y.id == id.val) = some x →
    staleAnswer x r → ∃ t, exec (.xlatResponse id r) s = .next t ∧
      t.xreqs = s.xreqs.map (fun y => if y.id = x.id then { x with since := [], retried := false } else y) ∧
      t = { s with xreqs := t.xreqs, out := s.out ++ [asked s x.id x.page x.write] }) ∧
  (∀ (s : State) (id : Fin 64) (x : XReq) (r : XlatResp) (acc : Access) (w : Bool) (i : Nat), FaultsAlone s id x acc w i → r.fault ≠ 0 →
    r.fault ≠ 3 → ¬staleAnswer x r → Does (.xlatResponse id r) s (recordOpened s x acc w r.fault.val i)
      { s with xreqs := s.xreqs.filter (fun y => y.id != x.id), fwaits := s.fwaits ++ [waitOn s x acc w r.fault.val i],
               fltSeq := (s.fltSeq + 1) % 2 ^ 32 }) ∧
  (∀ (s : State) (id : Fin 64) (x : XReq), s.xreqs.find? (fun y => y.id == id.val) = some x → x.retried = false →
    ∃ t, exec (.xlatRequestTimeout id) s = .next t ∧ t.xreqs = s.xreqs.map (fun y => if y.id = x.id then { y with retried := true } else y) ∧
      t = { s with xreqs := t.xreqs, out := s.out ++ [asked s x.id x.page x.write] }) ∧
  (∀ (s : State) (id : Fin 64) (x : XReq) (acc : Access) (w : Bool) (i : Nat), FaultsAlone s id x acc w i → x.retried = true →
    ∃ t, exec (.xlatRequestTimeout id) s = .next t ∧ t.xreqs = s.xreqs.filter (fun y => y.id != x.id) ∧
      t.fwaits = s.fwaits ++ [waitOn s x acc w 3 i] ∧ t.get (F.fltInfoOpen i) = 1 ∧ t.get (F.fltInfoReason i) = 3 ∧
      t.get (F.fltVaLo i) + 2 ^ 20 * t.get (F.fltVaHi i) = x.page % 2 ^ 52 ∧ (t.get F.intStatus).testBit 2 = true ∧
      (t.get F.rasStatusClassSeen).testBit 5 = true) ∧
  (∀ (s : State) (v : Inval), s.invals.length < 8 → (∀ w ∈ s.invals, w.id ≠ v.id) → ∃ t, exec (.invalidation v) s = .next t ∧
    t.invals = s.invals ++ [v] ∧ t.tlbs = s.tlbs.map (fun l => l.map (fun e =>
      if s.invalHits v = true ∧ invalOverlaps v e.extent.1 e.extent.2 = true then { e with blocked := true } else e)) ∧
    t.xreqs = s.xreqs.map (fun x => if s.invalHits v = true then { x with since := x.since ++ [v] } else x) ∧
    t = { s with invals := t.invals, tlbs := t.tlbs, ports := t.ports, xreqs := t.xreqs }) ∧
  (∀ (s : State) (id : Fin 8) (clks : Nat) (v : Inval), s.canonical = true → s.invals.find? (fun w => w.id == id) = some v →
    (∀ p ∈ s.ports, ∀ x ∈ p.tags, id.val ∉ x.2.stale) → ∃ t, exec (.invalidationAck id clks) s = .next t ∧
      (∀ w ∈ t.invals, w ∈ s.invals ∧ w.id ≠ id) ∧
      t.tlbs = s.tlbs.map (fun l => l.filter (fun e => !(e.blocked && invalOverlaps v e.extent.1 e.extent.2))) ∧
      t.get F.xlatInvals = min (s.get F.xlatInvals + 1) (2 ^ 32 - 1) ∧
      t.get F.xlatInvMax = max (s.get F.xlatInvMax) (min clks (2 ^ 32 - 1)) ∧
      t.lcs = s.lcs.map (fun l => { l with cache := l.cache.filter (fun c => !(s.invalHits v && invalOverlaps v (128 * c.1) 128)) }) ∧
      t = { s with invals := t.invals, tlbs := t.tlbs, lcs := t.lcs, out := s.out ++ [.invAck id.val], regs := t.regs } ∧
      RegsBut [F.xlatInvals, F.xlatInvMax] s t)

/-- Answers and hot pages.  RESUME closes a record, and the access that waits on it asks for its translation again; ABORT, and TIMEOUT_MS of an
open record, close it and end the accesses as Table 134 says, shown here for the read of an armed descriptor.  HOT_DECAY halves every count
and clears FLAGGED below half the threshold; POP removes the oldest record. -/
def Sys2Proof.Claims.AnswerResults : Prop :=
  (∀ (s : State) (m : Master) (slot : Fin 16), Takes s m (0x38114 + 0x20 * slot.val) → s.get (F.fltInfoOpen slot.val) = 1 →
    (∀ w ∈ s.fwaits, w.slot ≠ none ∧ w.slot ≠ some slot.val) → Does (.faultResume m slot) s [(F.fltInfoOpen slot.val, 0)] s) ∧
  (∀ (s : State) (m : Master) (slot : Fin 16) (w : FWait), Takes s m (0x38114 + 0x20 * slot.val) → OneWaits s slot w →
    (∀ e, w.acc ≠ .run e) → (∀ c, w.acc ≠ .completion c ∧ w.acc ≠ .failList c) → mayTranslate w.req w.acc = true →
    s.inService (reqUnit w.req) = true → s.tlbHit w.req w.page w.write = none →
    (∀ y ∈ s.fwaits, y.acc = w.acc → y.page = w.page → y.slot = some slot.val) → MayMiss s w.req w.page → s.xreqs.length < 64 → s.xwait = [] →
    ∃ t id, exec (.faultResume m slot) s = .next t ∧ t.get (F.fltInfoOpen slot.val) = 0 ∧
      t.fwaits = s.fwaits.filter (fun y => y.slot != some slot.val) ∧ t.xreqs = s.xreqs ++ [missOf id w.req w.page w.write w.acc] ∧
      (∀ y ∈ s.xreqs, y.id ≠ id) ∧
      t = { s with fwaits := t.fwaits, xreqs := t.xreqs, out := s.out ++ [asked s id w.page w.write], regs := t.regs } ∧
      RegsBut (F.fltInfoOpen slot.val :: F.xlatUtlbMiss :: perfRegs) s t) ∧
  (∀ (s : State) (m : Master) (slot e : Fin 16) (w : FWait) (k : Nat), Takes s m (0x38114 + 0x20 * slot.val) → ArmFaulted s slot e w k →
    ∃ t, exec (.faultAbort m slot) s = .next t ∧ ArmReleased s t slot.val e k ∧
      RegsBut [F.fltInfoOpen slot.val, F.seArmResult e.val] s t) ∧
  (∀ (s : State) (slot e : Fin 16) (w : FWait) (k : Nat), ArmFaulted s slot e w k → s.get F.xlatTimeout ≠ 0 →
    ∃ t, exec (.faultRecordTimeout slot) s = .next t ∧ ArmReleased s t slot.val e k ∧
      t.get F.xlatTimeouts = min (s.get F.xlatTimeouts + 1) (2 ^ 32 - 1)) ∧
  (∀ s : State, s.get F.xlatHotDecay ≠ 0 → exec .hotDecay s = .next { s with hot := s.hot.map (fun e => { e with
    count := e.count / 2, flagged := e.flagged && !decide (2 * (e.count / 2) < s.get F.xlatHotCfgThreshold) }) }) ∧
  (∀ (s : State) (m : Master) (v : Word), Takes s m 0x38054 → v.getLsbD 0 = true →
    exec (.hotPop m v) s = .next { s with hotFifo := s.hotFifo.drop 1 })

/-- The memory ports, address translation, page faults and hot pages. The model's choices in it are log entries 22, 52, 53, 54 and 84. -/
def Obligations.TranslationAndMemoryResults : Prop :=
  Sys2Proof.Claims.MemoryPortResults ∧ Sys2Proof.Claims.TranslationResults ∧ Sys2Proof.Claims.AnswerResults

/-! ## Node and spill caches -/

namespace Sys2Proof.Claims

/-- The caches of one cluster have changed to `c`; those of the others are as before. -/
def CachesAre (s t : State) (tc : Nat) (c : Caches) : Prop := t.cachesOf tc = c ∧ ∀ i, i ≠ tc → t.cachesOf i = s.cachesOf i

/-- The operation that a CM_CMD word starts, with the operands of the moment (R551). -/
def cmWanted (s : State) (word : Nat) : CmOp :=
  { word := word, addr := s.get F.cmAddr, lines := s.get F.cmLen, entry := s.get F.cmEntry, busy := false, late := [] }

/-- CM_CMD as the registers show it after a start. -/
def cmShown : List RField :=
  [F.cmCmdGo, F.cmCmdScope, F.cmCmdOp, F.cmCmdCache, F.cmCmdAllClusters, F.cmCmdCluster, F.cmNcStale, F.cmSpcWb] ++ perfRegs

/-- An operation on the lines that are not being filled, in the clusters that it names, in service and powered: 1 cleans, 2 invalidates and
3 does both (Table 138); the lines that are being filled are kept for later (R549).  An invalidation of a spill cache whose cluster holds
items does nothing there and is noted as BUSY (R546). -/
structure Maintains (s t : State) (op : Nat) (o : CmOp) : Prop where
  started : ∃ b l, t.cmOp = some { o with busy := b, late := l } ∧ (b = true ↔ o.word.testBit 9 = true ∧ op = 2 ∧
      ∃ tc ∈ cmClusters o.word, s.cmReaches tc = true ∧ s.tcHolds tc = true) ∧
    ∀ x, x ∈ l ↔ ∃ tc ∈ cmClusters o.word, s.cmReaches tc = true ∧ (o.word.testBit 9 = true → op = 2 → s.tcHolds tc = false) ∧
      x ∈ s.cmFilling o tc
  shown : t.get F.cmCmdGo = 1 ∧ t.get F.cmCmdOp = op
  spill : ∀ tc ∈ cmClusters o.word, s.cmReaches tc = true → o.word.testBit 9 = true → (op = 2 → s.tcHolds tc = false) →
    (t.cachesOf tc).spc = if op = 1 then
        (s.cachesOf tc).spc.map (fun e => if o.inScope e.1 (e.2.addr / 128) && !e.2.filling then (e.1, { e.2 with dirty := false }) else e)
      else (s.cachesOf tc).spc.filter (fun e => !(o.inScope e.1 (e.2.addr / 128) && !e.2.filling))
  written : ∀ tc ∈ cmClusters o.word, s.cmReaches tc = true → o.word.testBit 9 = true → op ≠ 2 →
    let l := (s.cachesOf tc).spc.filter (fun e => (o.inScope e.1 (e.2.addr / 128) && !e.2.filling) && e.2.dirty)
    (s.cachesOf tc).evict.length + l.length ≤ 4 →
      (t.cachesOf tc).evict.map (fun e => (e.1, e.2.2)) =
        (s.cachesOf tc).evict.map (fun e => (e.1, e.2.2)) ++ l.map (fun e => (e.2.addr, e.2.data))
  dropped : ∀ tc ∈ cmClusters o.word, s.cmReaches tc = true → o.word.testBit 9 = true → op = 2 → s.tcHolds tc = false →
    (t.cachesOf tc).evict = (s.cachesOf tc).evict.filter (fun x => !o.inScope 99 (x.1 / 128))
  held : ∀ tc ∈ cmClusters o.word, o.word.testBit 9 = true → op = 2 → s.tcHolds tc = true → t.cachesOf tc = s.cachesOf tc
  node : ∀ tc ∈ cmClusters o.word, s.cmReaches tc = true → o.word.testBit 9 = false → (t.cachesOf tc).nc = if op = 1 then (s.cachesOf tc).nc else
    (s.cachesOf tc).nc.filter (fun e => e.2.filling || !o.inScope e.1 (e.2.slot * 512 + e.2.line))
  others : ∀ tc, (tc ∉ cmClusters o.word ∨ s.cmReaches tc = false) → t.cachesOf tc = s.cachesOf tc
  frame : t = { s with caches := t.caches, cmOp := t.cmOp, sf := t.sf, sfPoison := t.sfPoison, regs := t.regs } ∧ RegsBut cmShown s t ∧
    (op = 2 → t.sf = s.sf)

/-- A CM_CMD write of operation `op` starts it where none runs and the operands are in range, and else sets LOST. -/
def CmWrites (cmd : Master → Word → Instr) (op : Nat) : Prop :=
  (∀ (s : State) (m : Master) (w : Word), let word := (w &&& 0x33FF).toNat + 1024 * op
    Takes s m 0x3C000 → s.cmOp = none → (cmWanted s word).badArg = false →
    ∃ t, exec (cmd m w) s = .next t ∧ Maintains s t op (cmWanted s word)) ∧
  ∀ (s : State) (m : Master) (w : Word) (o : CmOp), Takes s m 0x3C000 → s.cmOp = some o → Does (cmd m w) s [(F.cmStatusLost, 1)] s

end Sys2Proof.Claims

/-- NC_FILL_DONE and SPC_FILL_DONE end the fill that a requester waits for, with the bytes of the Treelet Store or the Shared Field, for
every requester of that line, a poisoned line being dropped; EVICT_WRITE_DONE writes the oldest entry of the eviction buffer, frees it and
counts it; CM_CLEAN, CM_INV and CM_CLEAN_INV do what Table 138 says or set LOST; and CM_OP_DONE ends the operation with its RESULT once the
lines that it met while they were filled have arrived. The model's choices in it are log entries 27, 55 and 56. -/
def Obligations.CacheResults : Prop :=
  (∀ (s : State) (tc : Fin 32) (r : Fin 5) (key : Nat), let c := s.cachesOf tc.val
    s.canonical = true → c.ncMiss.find? (fun m => m.1 == r.val) = some (r.val, key) → ∃ t c', exec (.ncFillDone tc r) s = .next t ∧
      CachesAre s t tc.val c' ∧ c' = { c with nc := c'.nc, ncMiss := c.ncMiss.filter (fun m => m.2 != key), ncTree := c'.ncTree } ∧
      c'.nc = c.nc.map (fun e => if e.2.slot * 512 + e.2.line = key then
        (e.1, { e.2 with filling := false, data := bytesAt s.ts (key / 512 * 65536 + 128 * (key % 512)) 128 }) else e) ∧
      t = { s with caches := t.caches }) ∧
  (∀ (s : State) (tc : Fin 32) (r : Fin 5) (a : Nat), let c := s.cachesOf tc.val
    s.canonical = true → c.spcMiss.find? (fun m => m.1 == r.val) = some (r.val, a) → ∃ t c', exec (.spcFillDone tc r) s = .next t ∧
      CachesAre s t tc.val c' ∧ c' = { c with spc := c'.spc, spcMiss := c.spcMiss.filter (fun m => m.2 != a), spcTree := c'.spcTree } ∧
      ((∀ l ∈ linesOf a 128, l ∉ s.sfPoison) →
        c'.spc = c.spc.map (fun e => if e.2.addr = a then (e.1, { e.2 with filling := false, data := bytesAt s.sf a 128 }) else e)) ∧
      ((∃ l ∈ linesOf a 128, l ∈ s.sfPoison) → c'.spc = c.spc.filter (fun e => e.2.addr != a)) ∧
      t = { s with caches := t.caches, regs := t.regs } ∧ RegsBut perfRegs s t) ∧
  (∀ (s : State) (tc : Fin 32) (a : Nat) (f : Bool) (bs : List Byte) (rest : List (Nat × Bool × List Byte)), let c := s.cachesOf tc.val
    s.canonical = true → c.evict = (a, f, bs) :: rest → ∃ t c', exec (.evictWriteDone tc) s = .next t ∧ CachesAre s t tc.val c' ∧
      c' = { c with evict := c'.evict } ∧ c'.evict.map (fun e => (e.1, e.2.2)) = rest.map (fun e => (e.1, e.2.2)) ∧
      bytesAt t.sf a bs.length = bs ∧ (∀ x, (x < a ∨ a + bs.length ≤ x) → byteAt t.sf x = byteAt s.sf x) ∧
      t.get F.cmSpcWb = min (s.get F.cmSpcWb + 1) (2 ^ 32 - 1) ∧
      t = { s with caches := t.caches, sf := t.sf, sfPoison := t.sfPoison, regs := t.regs } ∧ RegsBut (F.cmSpcWb :: perfRegs) s t) ∧
  CmWrites .cmClean 1 ∧ CmWrites .cmInv 2 ∧ CmWrites .cmCleanInv 3 ∧
  (∀ (s : State) (o : CmOp), s.canonical = true → s.cmOp = some o →
    (∀ x ∈ o.late, s.cmLate o x = false) →
    ∃ t, exec .cmOpDone s = .next t ∧ t.cmOp = none ∧ t.get F.cmCmdGo = 0 ∧ t.get F.cmStatusDone = 1 ∧
      t.get F.cmStatusResult = (if o.badArg = true then 2 else if o.busy = true then 1 else
        if o.word.testBit 8 = false ∧ s.cmReaches (o.word % 32) = false then 3 else 0) ∧
      (o.badArg = false → o.word.testBit 9 = true → o.word / 1024 % 4 ≠ 2 → ∀ tc ∈ cmClusters o.word, s.cmReaches tc = true →
        (t.cachesOf tc).evict = []) ∧
      t = { s with caches := t.caches, cmOp := none, sf := t.sf, sfPoison := t.sfPoison, regs := t.regs } ∧
      RegsBut ([F.cmCmdGo, F.cmStatusDone, F.cmStatusResult, F.cmSpcWb] ++ perfRegs) s t)

/-! ## Fault containment and ageing -/

namespace Sys2Proof.Claims

/-- RAS_FENCE as it reads after a command: GO, RESULT, OP and the unit named (Table 152). -/
def fenceShown (go status op kind index : Nat) : List (RField × Nat) :=
  [(F.rasFenceGo, go), (F.rasFenceStatus, status), (F.rasFenceOp, op), (F.rasFenceUnitKind, kind), (F.rasFenceUnitIndex, index)]

/-- The UNIT_KIND and UNIT_INDEX of a RAS_FENCE word. -/
def wordKind (w : Word) : Nat := w.toNat / 256 % 16
def wordIndex (w : Word) : Nat := w.toNat % 64

/-- A command of RAS_FENCE may be written now. -/
def FenceFree (s : State) (m : Master) : Prop := Takes s m 0xC020 ∧ s.get F.rasFenceGo = 0

/-- A unit of a kind that RAS_FENCE names, 1 to 7. -/
def fenceable : EUnit → Bool
  | .sorter => false
  | .query => false
  | .hrp => false
  | _ => true

/-- A recovery window stands: RECOVERING reads 1 and the window is not held. -/
def WindowOpen (t : State) : Prop := t.get F.rasStatusRecovering = 1 ∧ ∃ w, t.window = some w ∧ w.holding = false

/-- The first fault since RAS_CAP was cleared is captured: class `k`, the unit and INFO, with INT_RAS (R591, R640). -/
def Captured (t : State) (k : Nat) (u : Option EUnit) (info : Nat) : Prop :=
  (t.get F.rasStatusClassSeen).testBit (k - 1) = true ∧ t.get F.rasCapValid = 1 ∧ t.get F.rasCapClass = k ∧
  t.get F.rasCapUnitKind = unitKind u ∧ t.get F.rasCapUnitIndex = unitIndex u ∧ t.get F.rasCapInfo = info % 2 ^ 32 ∧
  (t.get F.intStatus).testBit 3 = true

/-- A fault of class `k` is the first one, and is captured. -/
def Captures (f : FaultCause) (s : State) (k : Nat) (u : Option EUnit) (info : Nat) (q : State → Prop) : Prop :=
  ∃ t, exec (.faultDetected f) s = .next t ∧ Captured t k u info ∧ q t

/-- The first fault may be captured. -/
def Uncaptured (s : State) : Prop := s.canonical = true ∧ s.get F.rasCapValid = 0

/-- A parity error counts as CORR and in `f`, and takes the line out of one cache part of a cluster (R553). -/
def LineDropped (s t : State) (f : RField) (tc : Nat) (c' : Caches) : Prop :=
  (t.get F.rasStatusClassSeen).testBit 0 = true ∧ t.get f = min (s.get f + 1) (2 ^ f.width - 1) ∧
  t.get F.rasCorrCount = min (s.get F.rasCorrCount + 1) (2 ^ 32 - 1) ∧ t.cachesOf tc = c' ∧
  (∀ i, i ≠ tc → t.cachesOf i = s.cachesOf i) ∧ t = { s with caches := t.caches, mgmt := t.mgmt, regs := t.regs }

/-- The margin of a domain without OPs as it is reported (R669). -/
def AgeReported (s t : State) (c r : Nat) : Prop :=
  (t.age c).slack = min r 255 ∧ (t.age c).warn = ((s.age c).warn || decide (r < s.get F.rasAgeCfg)) ∧ (t.age c).vadj = (s.age c).vadj ∧
  (r < s.get F.rasAgeCfg → t.get F.mbEventAgeWarn = 1 ∧ (t.get F.intStatus).testBit 4 = true) ∧ ∀ i, i ≠ c → t.age i = s.age i

/-- A fault of class `k` in a unit that is to be fenced, in service and not the last of its kind, with nothing captured yet. -/
structure MayFence (s : State) (u : EUnit) : Prop where
  canonical : s.canonical = true
  kind : fenceable u = true
  free : s.inSeq u = false ∧ s.fenced u = false ∧ s.isLast u = false
  first : s.get F.rasCapValid = 0

/-- Recovery waits on nothing more: a window, no sequence, no dispatch running, no record with RECOVERY to write, no write, domain reset, wipe
or returned bank at the epoch, and no bank to lay out. -/
structure MayRecover (s : State) (w : Window) : Prop where
  canonical : s.canonical = true
  window : s.window = some w
  done : s.fseqs = [] ∧ s.epochNow = true ∧ s.recoveryOpen = false
  epoch : s.wbuf = [] ∧ s.get F.rstDomainGo = 0 ∧ s.get F.wipeStatusPending = 0 ∧ s.returning = none
  banks : s.get F.rasSfPendLo = 0 ∧ s.get F.rasSfPendHi = 0

/-- EF_BASE as an address. -/
def efBase (s : State) : Nat := 32 * s.get F.rasEfBaseLo + 2 ^ 32 * s.get F.rasEfBaseHi

/-- Readings for one domain alone. -/
def ReadsOnly (l : List (List Nat)) (c : Nat) (r : List Nat) : Prop := l[c]? = some r ∧ ∀ i, i ≠ c → (l[i]?).getD [] = []

/-- What a reading of a domain with OPs leaves in its ageing record at the OP that it runs at (R667, R668): the slack, and one step of voltage
more where it is below the floor and fewer than 12 have been added. -/
structure AgeRead (s t : State) (c r : Nat) : Prop where
  slack : (t.age c).slack = min r 255
  step : let k := s.opOf (railOf c)
    ((t.age c).vadj[k]?).getD 0 = ((s.age c).vadj[k]?).getD 0 + if r < s.get F.rasAgeCfg then 1 else 0
  cap : (t.age c).cap = (s.age c).cap
  others : ∀ i, i ≠ c → t.age i = s.age i

/-- A domain of which one reading changes its record as `AgeRead` says: room for a step at its OP. -/
structure AgeReady (s : State) (c : Nat) : Prop where
  canonical : s.canonical = true
  domain : c < 11 ∧ (s.age c).vadj.length = 6 ∧ s.opOf (railOf c) < 6
  room : ((s.age c).vadj[s.opOf (railOf c)]?).getD 0 < 12

end Sys2Proof.Claims

/-- Faults.  A correctable error counts and sets its bit of CLASS_SEEN; an error of a doubled control state, and a watchdog that passes WD_MS,
are captured and start the fence sequence of the unit with a recovery window, as an uncorrectable line of a Shared Field bank does, which is
poisoned; one of another store, of both copies of a control state, of the configuration store, of a dirty spill-cache line, of a lane core's
state and of the translation port is captured with its INFO; a parity error of a node-cache or clean spill-cache line drops the line and counts as
CORR; a line that a scrub visit corrects counts as CORR. -/
def Sys2Proof.Claims.DetectionResults : Prop :=
  (∀ (s : State) (u : EUnit), s.canonical = true → ∃ t, exec (.faultDetected (.corr u)) s = .next t ∧
    (t.get F.rasStatusClassSeen).testBit 0 = true ∧ t.get F.rasCorrCount = min (s.get F.rasCorrCount + 1) (2 ^ 32 - 1) ∧
    t = { s with mgmt := t.mgmt, regs := t.regs } ∧ RegsBut [F.rasStatusClassSeen, F.rasCorrCount] s t) ∧
  (∀ (s : State) (u : EUnit) (word : Half), MayFence s u → u.kind ∈ [1, 2, 3, 4] → ∃ t, exec (.faultDetected (.uncCtrl u word)) s = .next t ∧
    Captured t 3 u word.toNat ∧ WindowOpen t ∧
    t.fseqs = s.fseqs ++ [{ unit := u, owner := false, fenced := false }] ∧
    t = { s with fseqs := t.fseqs, window := t.window, disps := t.disps, mgmt := t.mgmt, regs := t.regs }) ∧
  (∀ (s : State) (u : EUnit), MayFence s u → s.get F.rasWd ≠ 0 → s.inService u = true → s.holdsWork u = true →
    ∃ t, exec (.unitWatchdog u) s = .next t ∧ Captured t 6 u (1000 * s.get F.rasWd) ∧
      WindowOpen t ∧ t.fseqs = s.fseqs ++ [{ unit := u, owner := false, fenced := false }]) ∧
  (∀ (s : State) (u : EUnit), s.get F.rasWd = 0 → Stays (.unitWatchdog u) s) ∧
  (∀ (s : State) (store : Fin 4) (line : Nat), s.canonical = true → ∃ t, exec (.scrub store line true) s = .next t ∧
    (t.get F.rasStatusClassSeen).testBit 0 = true ∧ t.get F.rasCorrCount = min (s.get F.rasCorrCount + 1) (2 ^ 32 - 1) ∧
    t = { s with mgmt := t.mgmt, regs := t.regs }) ∧
  (∀ (s : State) (store : Fin 4) (line : Nat), Stays (.scrub store line false) s) ∧
  (∀ (s : State) (line : Nat) (b : Fin 64), MayFence s (.bank b) → s.pends b.val = false →
    Captures (.uncData 1 line b) s 2 (some (.bank b)) (2 ^ 28 + line % 2 ^ 28) (fun t => line ∈ t.sfPoison ∧ WindowOpen t ∧
      t.fseqs = s.fseqs ++ [{ unit := .bank b, owner := false, fenced := false }])) ∧
  (∀ (s : State) (line : Nat) (b : Fin 64), Uncaptured s →
    Captures (.uncData 3 line b) s 2 none (3 * 2 ^ 28 + line % 2 ^ 28) (fun t => line ∈ t.tsPoison) ∧
    ∀ store : Fin 7, store ∈ [2, 4, 5] → Captures (.uncData store line b) s 2 none (store.val * 2 ^ 28 + line % 2 ^ 28) (fun _ => True)) ∧
  (∀ (s : State) (u : Option EUnit) (word : Half), Uncaptured s → u ∈ [none, some .sorter, some .query, some .hrp] →
    Captures (.bothCopies u word []) s 3 u word.toNat (fun _ => True)) ∧
  (∀ (s : State) (word : Half) (reload : ReadOutcome), Uncaptured s → Captures (.cfgStore word reload) s 3 none word.toNat (fun t =>
    (reload = .ok → t.active = s.active ∧ t.disps = s.disps) ∧ (reload ≠ .ok → t.active = none))) ∧
  (∀ (s : State) (tc : Fin 32) (k : Nat) (l : SpcLine), Uncaptured s → k < 48 → l.dirty = true →
    (s.cachesOf tc.val).spc.find? (fun e => e.1 == k && e.2.dirty) = some (k, l) →
    Captures (.spillDirty tc k) s 5 (some (.tc tc)) (tc.val * 2 ^ 24 + k) (fun t => ∀ e ∈ (t.cachesOf tc.val).spc, e.1 ≠ k)) ∧
  (∀ (s : State) (tc : Fin 32) (k : Nat) (ok : Bool) (l : NcLine), let c := s.cachesOf tc.val
    s.canonical = true → c.nc.find? (fun e => e.1 == k) = some (k, l) → ∃ t, exec (.faultDetected (.cacheParity tc false k ok)) s = .next t ∧
      LineDropped s t F.cmNcPar tc.val { c with nc := c.nc.filter (fun e => e.1 != k) }) ∧
  (∀ (s : State) (tc : Fin 32) (k : Nat) (ok : Bool) (l : SpcLine), let c := s.cachesOf tc.val
    s.canonical = true → c.spc.find? (fun e => e.1 == k) = some (k, l) → l.dirty = false →
      ∃ t, exec (.faultDetected (.cacheParity tc true k ok)) s = .next t ∧
      LineDropped s t F.cmSpcPar tc.val { c with spc := c.spc.filter (fun e => e.1 != k) }) ∧
  (∀ (s : State) (lc : Fin 16) (slot : Fin 64) (lanes : Word), Uncaptured s → (s.groupAt lc.val slot.val).isSome = true →
    ∃ info, Captures (.laneState lc slot lanes) s 2 (some (.lc lc)) (5 * 2 ^ 28 + info % 2 ^ 28) (fun _ => True)) ∧
  (∀ (s : State) (arr : Fin 2) (place : Nat), Uncaptured s →
    ∃ info, Captures (.wsTile arr place) s 2 none (2 * 2 ^ 28 + info % 2 ^ 28) (fun _ => True)) ∧
  (∀ (s : State) (iova : DWord), Uncaptured s → Captures (.xlatProtocol iova) s 8 none (iova.toNat / 4096) (fun t =>
    t = { s with mgmt := t.mgmt, regs := t.regs }))

/-- Fences. The owner's FENCE starts the sequence of a unit that may be fenced, and is answered REFUSED for the last memory port or
stream engine, ALREADY for a fenced unit and BAD_ARG for a unit that does not exist or is not integrated; its RETURN of a unit that it
fenced leaves GO at 1 while the unit is wiped, or until the bank's layout, and of another is refused. FENCE_COMPLETE takes the unit out of service, a bank at the layout
that RAS_SF_PEND then asks for, FULL_SERVICE ends its sequence and, with the last one, begins the recovery hold, and RETURNED_TO_SERVICE
puts the unit back. -/
def Sys2Proof.Claims.FenceResults : Prop :=
  (∀ (s : State) (m : Master) (w : Word) (u : EUnit), FenceFree s m → EUnit.ofCode (wordKind w) (wordIndex w) = some u → fenceable u = true →
    s.integrated u = true →
    (s.fenced u = false → (∀ b, u = .bank b → s.pends b.val = false) → s.inSeq u = false → s.isLast u = false →
      ∃ t, exec (.rasFenceCmd m w) s = .next t ∧ t.fseqs = s.fseqs ++ [{ unit := u, owner := true, fenced := false }] ∧
        t.get F.rasFenceGo = 1 ∧ t.get F.rasFenceStatus = 1 ∧ WindowOpen t ∧
        t = { s with fseqs := t.fseqs, window := t.window, disps := t.disps, regs := t.regs }) ∧
    (s.fenced u = false → (∀ b, u = .bank b → s.pends b.val = false) → s.inSeq u = false → s.isLast u = true →
      Does (.rasFenceCmd m w) s (fenceShown 0 3 1 (wordKind w) (wordIndex w)) s) ∧
    (s.fenced u = true ∨ s.inSeq u = true → Does (.rasFenceCmd m w) s (fenceShown 0 5 1 (wordKind w) (wordIndex w)) s) ∧
    (s.fenced u = true ∨ (∃ b, u = .bank b ∧ s.pends b.val = true) → s.inSeq u = false → u ∈ s.ownFenced →
      Does (.rasReturnCmd m w) s (fenceShown 1 1 2 (wordKind w) (wordIndex w)) s) ∧
    (s.fenced u = true ∨ (∃ b, u = .bank b ∧ s.pends b.val = true) → u ∉ s.ownFenced ∨ s.inSeq u = true →
      Does (.rasReturnCmd m w) s (fenceShown 0 3 2 (wordKind w) (wordIndex w)) s) ∧
    (s.fenced u = false → (∀ b, u = .bank b → s.pends b.val = false) →
      Does (.rasReturnCmd m w) s (fenceShown 0 4 2 (wordKind w) (wordIndex w)) s)) ∧
  (∀ (s : State) (m : Master) (w : Word), FenceFree s m → (∀ u, EUnit.ofCode (wordKind w) (wordIndex w) = some u → s.integrated u = false) →
    Does (.rasFenceCmd m w) s (fenceShown 0 2 1 (wordKind w) (wordIndex w)) s) ∧
  (∀ (s : State) (u : EUnit) (f : FSeq), s.canonical = true → fenceable u = true → (∀ b, u ≠ .bank b) →
    s.fseqs.find? (fun x => x.unit == u && !x.fenced) = some f → ∃ t, exec (.fenceComplete u) s = .next t ∧ t.fenced u = true ∧
      (∀ x ∈ t.fseqs, x.unit = u → x.fenced = true) ∧ (f.owner = true → t.get F.rasFenceGo = 0 ∧ t.get F.rasFenceStatus = 0 ∧ u ∈ t.ownFenced) ∧
      (∀ i, u = .tc i → (∀ r ∈ t.rays, r.heldBy i.val = false) ∧ t.cachesOf i.val = Caches.init) ∧
      (∀ i, u = .mp i → ∀ p, t.ports[i.val]? = some p → p.tags = [])) ∧
  (∀ (s : State) (b : Fin 64) (f : FSeq), s.canonical = true → s.fseqs.find? (fun x => x.unit == .bank b && !x.fenced) = some f →
    ∃ t, exec (.fenceComplete (.bank b)) s = .next t ∧ t.pends b.val = true ∧ t.fenced (.bank b) = s.fenced (.bank b) ∧ t.sf = s.sf ∧
      (∀ x ∈ t.fseqs, x.unit = .bank b → x.fenced = true)) ∧
  (∀ (s : State) (u : EUnit), s.fseqs.find? (fun x => x.unit == u && !x.fenced) = none → Stays (.fenceComplete u) s) ∧
  (∀ (s : State) (u : EUnit), s.fseqs.any (fun f => f.unit == u && f.fenced) = true → ∃ t, exec (.fullService u) s = .next t ∧
    t.fseqs = s.fseqs.filter (fun f => f.unit != u) ∧ t.window = (if t.fseqs = [] then s.window.map (fun w => { w with holding := true }) else s.window) ∧
    t = { s with fseqs := t.fseqs, window := t.window }) ∧
  (∀ (s : State) (u : EUnit), s.canonical = true → (∀ b, u ≠ .bank b) → s.returning = some u → s.fenced u = true →
    ∃ t, exec (.returnedToService u) s = .next t ∧ t.fenced u = false ∧ t.get F.rasFenceGo = 0 ∧ t.get F.rasFenceStatus = 0 ∧ u ∉ t.ownFenced)

/-- The recovery window and ageing. RECOVERY_EPOCH closes the window and, with a base, writes the EPOCH_FENCE record and raises INT_RAS;
while a sequence or a dispatch runs, or the engine stands in NAP, SLEEP or a reset, it does nothing; RECOVERY_HOLD_TIMEOUT releases the hold and sets LATE; AGEING_INTERVAL adds 4 hours and
takes the readings, and MEASURE takes them at once, a domain without OPs being reported. -/
def Sys2Proof.Claims.RecoveryAndAgeingResults : Prop :=
  (∀ (s : State) (w : Window), MayRecover s w → ∃ t, exec .recoveryEpoch s = .next t ∧ t.window = none ∧ t.get F.rasStatusRecovering = 0 ∧
    t.get F.rasRecovInWindow = 0 ∧ t.get F.glbStatusHold = 0 ∧ t.sf = s.sf ∧ t.active = s.active ∧ (efBase s = 0 → t.mem = s.mem) ∧
    (efBase s ≠ 0 → t.get F.rasEfSeq = (s.get F.rasEfSeq + 1) % 2 ^ 32 ∧ t.get F.rasRecovEfWritten = 1 ∧ (t.get F.intStatus).testBit 3 = true ∧
      let a := efBase s + 32 * (s.get F.rasEfSeq % 2 ^ min 8 (s.get F.rasEfSize))
      leAt t.mem a 4 = w.firstSeq % 2 ^ 32 ∧ leAt t.mem (a + 8) 4 = w.replayed % 2 ^ 32 ∧ leAt t.mem (a + 12) 4 = w.failed % 2 ^ 32 ∧
      leAt t.mem (a + 16) 2 = w.faults % 2 ^ 16 ∧ (∀ x, (x < a ∨ a + 32 ≤ x) → byteAt t.mem x = byteAt s.mem x))) ∧
  (∀ (s : State) (w : Window), s.canonical = true → s.window = some w → w.holding = true → s.get F.ldrActTimeout ≠ 0 →
    Does .recoveryHoldTimeout s [(F.rasRecovLate, 1)] { s with window := some { w with holding := false, late := true } }) ∧
  (∀ s : State, (s.window = none ∨ s.fseqs ≠ [] ∨ s.epochNow = false ∨ s.recoveryOpen = true) → Stays .recoveryEpoch s) ∧
  (∀ s : State, (∀ w, s.window = some w → w.holding = false) → Stays .recoveryHoldTimeout s) ∧
  (∀ (s : State) (m : Master) (v : Word) (l : List (List Nat)) (c r : Nat), s.canonical = true → Takes s m 0xC094 → v.getLsbD 0 = true →
    11 ≤ c → c < 14 → ReadsOnly l c [r] → ∃ t, exec (.ageMeasure m v l) s = .next t ∧ AgeReported s t c r) ∧
  (∀ (s : State) (l : List (List Nat)) (c r : Nat), AgeReady s c → s.startup = 0 → s.get F.cpLpStatusState = 0 → s.mgmt.down = false →
    ReadsOnly l c [r] → ∃ t, exec (.ageingInterval l) s = .next t ∧ AgeRead s t c r ∧ t.mgmt.hours = s.mgmt.hours + 4) ∧
  (∀ (s : State) (m : Master) (v : Word) (l : List (List Nat)) (c r : Nat), AgeReady s c → Takes s m 0xC094 → v.getLsbD 0 = true →
    ReadsOnly l c [r] → ∃ t, exec (.ageMeasure m v l) s = .next t ∧ AgeRead s t c r ∧ t.mgmt.hours = s.mgmt.hours)

/-- Fault detection, fences, recovery and ageing. The model's choices in it are log entries 57, 63, 65, 82, 86 and 97. -/
def Obligations.FaultContainmentResults : Prop :=
  Sys2Proof.Claims.DetectionResults ∧ Sys2Proof.Claims.FenceResults ∧ Sys2Proof.Claims.RecoveryAndAgeingResults

/-! ## Power, clocks and resets -/

namespace Sys2Proof.Claims

/-- A change of operating point that a request starts (R608): the next domain is the highest-numbered one that is to be lowered, and, with none to
be lowered, the lowest-numbered one to be raised; `s` has the new request. -/
structure OpStarts (s t : State) (m : OpMove) : Prop where
  moves : t.opMove = some m ∧ t.get F.cpOpCoreChanging = 1 ∧ m.second = false ∧ m.rail < 11 ∧ m.target = s.opTarget m.rail
  lower : m.raising = false → s.opOf m.rail < m.target ∧ ∀ k, m.rail < k → k < 11 → s.opTarget k ≤ s.opOf k
  raise : m.raising = true → m.target < s.opOf m.rail ∧ (∀ k, k < 11 → s.opTarget k ≤ s.opOf k) ∧ ∀ k, k < m.rail → s.opTarget k = s.opOf k
  rest : t = { s with opMove := t.opMove, vreq := t.vreq, vwait := t.vwait, out := t.out, regs := t.regs } ∧ RegsBut [F.cpOpCoreChanging] s t

/-- No change of operating point is in progress and one may begin (R607, R625). -/
def OpFree (s : State) : Prop := s.opMove = none ∧ s.get F.cpLpStatusState < 2 ∧ s.present = true

/-- A request of operating points, `s` being the state with the new request in it: where a domain is to move, the first begins. -/
def OpAnswered (c : Instr) (before s : State) : Prop :=
  (OpFree s → (∀ k, k < 11 → s.opTarget k = s.opOf k) → ∃ t, exec c before = .next t ∧ t = { s with regs := t.regs } ∧
    t.get F.cpOpCoreChanging = 0 ∧ RegsBut [F.cpOpCoreChanging] s t) ∧
  (OpFree s → (∃ k, k < 11 ∧ s.opTarget k ≠ s.opOf k) → ∃ t m, exec c before = .next t ∧ OpStarts s t m) ∧
  (s.opMove ≠ none → exec c before = .next s)

/-- The voltage code of rail `k` is that of the target, and no acknowledgement is awaited. -/
def RailAt (t : State) (k code : Nat) : Prop := (t.vreq[k]?).getD 0 = code ∧ t.vwait.testBit k = true

/-- The wake enables of CP_LP_CTRL after a masked write of `w` (Table 158, R567). -/
def lpEnables (s : State) (w : Word) : List (RField × Nat) :=
  [(F.cpLpCtrlPeer, if w.getLsbD 22 then (w.getLsbD 6).toNat else s.get F.cpLpCtrlPeer),
   (F.cpLpCtrlFrame, if w.getLsbD 21 then (w.getLsbD 5).toNat else s.get F.cpLpCtrlFrame),
   (F.cpLpCtrlTail, if w.getLsbD 20 then (w.getLsbD 4).toNat else s.get F.cpLpCtrlTail)]

/-- The engine begins to wake for the source of code `src` (R622). -/
def waking (src : Nat) : List (RField × Nat) := [(F.cpLpCtrlReq, 0), (F.cpLpStatusLastWake, src), (F.cpLpStatusState, 4)]

/-- The engine with its entry to NAP under way: no translation, cache line or code line is held in any cluster or lane core (R620). -/
def flushed (s : State) : State :=
  { s with tlbs := State.reset.tlbs, caches := State.reset.caches, lcs := s.lcs.map (fun l => { l with cache := [], code := [] }), lpGoing := true }

/-- Whether a source wakes the engine now, and its code in LAST_WAKE (Table 158). -/
def wakes (s : State) (src : WakeSource) : Prop :=
  match src with
  | .host => s.get F.cpLpStatusState = 2 ∨ s.get F.cpLpStatusState = 3
  | .mgmt => s.get F.cpLpStatusState = 2 ∨ s.get F.cpLpStatusState = 3
  | .tail => s.get F.cpLpStatusState = 2 ∧ s.get F.cpLpCtrlTail ≠ 0
  | .frame => s.get F.cpLpStatusState = 2 ∧ s.get F.cpLpCtrlFrame ≠ 0
  | .peer => s.get F.cpLpStatusState = 2 ∧ s.get F.cpLpCtrlPeer ≠ 0
def wakeCode : WakeSource → Nat
  | .host => 1
  | .tail => 2
  | .frame => 3
  | .peer => 4
  | .mgmt => 5

/-- HOLD as a request that waits for an engine epoch leaves it (R117). -/
def held (s : State) : List (RField × Nat) := if s.get F.glbStatusEpochWait = 0 then [(F.glbStatusHold, 1)] else []

/-- What SOFT and SLEEP set back (R612, Table 159): no work, no image, the stores and caches empty, the registers of every domain but PD_AON
and PD_MGT at their reset values, those of the peer link aside; memory, ownership and the management subsystem as they were. -/
structure SoftSetBack (s t : State) : Prop where
  work : t.disps = [] ∧ t.rays = [] ∧ t.groups = [] ∧ t.mbatches = [] ∧ t.queues = State.reset.queues ∧ t.wbuf = []
  image : t.active = none ∧ t.staged = none
  stores : t.sf = [] ∧ t.ts = [] ∧ t.ws = State.reset.ws ∧ t.lcs = State.reset.lcs ∧ t.caches = State.reset.caches ∧ t.tlbs = State.reset.tlbs
  registers : ∀ f : RField, softReaches (f.key / 32) = true → (f.key / 32 < 0x44000 ∨ 0x48000 ≤ f.key / 32) → t.get f = State.reset.get f
  kept : t.mem = s.mem ∧ t.pending = s.pending ∧ t.integ = s.integ

/-- What POR, WARM and LIFECYCLE set back besides (R612–R615): no owner, start-up begun, PRESENT low, and CAUSE. -/
structure FullSetBack (s t : State) (cause : Nat) : Prop where
  soft : SoftSetBack s t
  start : t.startup = 1 ∧ t.present = false ∧ t.resetting = none ∧ t.window = none ∧ t.fseqs = []
  shows : t.get F.rstStatusCause = cause ∧ t.get F.ownStatusOwned = 0 ∧ t.get F.keyUnlocked = 0 ∧ t.get F.rasStatusClassSeen = 0
  count : t.get F.cpAonCountLo = (if cause = 1 then 0 else s.get F.cpAonCountLo) ∧ t.get F.cpAonCountHi = (if cause = 1 then 0 else s.get F.cpAonCountHi)
  fuses : t.mgmt.lifecycle = s.mgmt.lifecycle ∧ t.mgmt.keys = s.mgmt.keys ∧ t.mgmt.svnFuse = s.mgmt.svnFuse ∧ t.mgmt.flash = s.mgmt.flash

/-- A reset that drains first has begun (R613): nothing else but the port's GOODBYE packets and the named registers moves. -/
structure Draining (s t : State) (cause : Nat) (l : List RField) : Prop where
  begun : t.resetting = some { cause := cause, drained := false }
  rest : t = { s with resetting := t.resetting, plk := t.plk, out := t.out, regs := t.regs }
  regs : RegsBut (l ++ linkRegs) s t

end Sys2Proof.Claims

/-- Operating points and supplies. A write to CP_OP_REQ or, with the guard open, CP_OP_OVR starts the change of the domain whose turn it is;
a raised domain switches its clock once its supply acknowledges the voltage of the target, and is at its OP when the switch ends; a lowered
one switches first and asks for the lower voltage then. A dip puts its domain at half rate and is counted and captured; full rate comes back
with the longest period; and a supplied clock moves within its range. The model's choices in it are log entries 59 and 60. -/
def Obligations.OperatingPointsAndSupplies : Prop :=
  (∀ (s : State) (m : Master) (v : Word), Takes s m 0x8000 → OpAnswered (.opRequest m v) s (s.set F.cpOpReq v.toNat)) ∧
  (∀ (s : State) (m : Master) (v : Word), Takes s m 0x8004 →
    OpAnswered (.opOverride m v) s ((s.set F.cpOpOvrEn (v.toNat / 2 ^ 31)).set F.cpOpOvrOvrOp v.toNat)) ∧
  (∀ (s : State) (k : Fin 11) (m : OpMove), s.canonical = true → s.vwait.testBit k.val = true → s.opMove = some m → m.rail = k.val →
    m.raising = true → m.second = false → (s.vreq[k.val]?).getD 0 = s.opCode k.val m.target → ∃ t, exec (.vackToggle k) s = .next t ∧
      t.opMove = some { m with second := true } ∧ t.vwait.testBit k.val = false ∧ t = { s with opMove := t.opMove, vwait := t.vwait }) ∧
  (∀ (s : State) (k : Fin 11), s.vwait.testBit k.val = false → Stays (.vackToggle k) s) ∧
  (∀ (s : State) (k : Fin 11) (m : OpMove), s.canonical = true → s.opMove = some m → m.rail = k.val → m.target < 8 →
    m.raising = m.second → ∃ t, exec (.clockSwitchDone k) s = .next t ∧ t.opOf k.val = m.target ∧
      (∀ j, j < 11 → j ≠ k.val → t.opOf j = s.opOf j) ∧
      (m.raising = false → t.opMove = some { m with second := true } ∧
        (s.vwait.testBit k.val = false → RailAt t k.val (s.opCode k.val m.target)))) ∧
  (∀ (s : State) (d : Fin 30), s.canonical = true → s.monitored d.val = true → ∃ t, exec (.supplyDip d) s = .next t ∧
    (t.get F.cpSupStretch).testBit d.val = true ∧ t.get F.cpSupDips = min (s.get F.cpSupDips + 1) (2 ^ 32 - 1) ∧
    (t.get F.rasStatusClassSeen).testBit 10 = true ∧ (s.get F.rasCapValid = 0 → t.get F.rasCapValid = 1 ∧ t.get F.rasCapClass = 11 ∧
      t.get F.rasCapInfo = d.val * 2 ^ 24)) ∧
  (∀ (s : State) (d : Fin 30), s.monitored d.val = false → Stays (.supplyDip d) s) ∧
  (∀ (s : State) (d : Fin 30) (clks : Nat), s.canonical = true → (s.get F.cpSupStretch).testBit d.val = true →
    ∃ t, exec (.supplyRecover d clks) s = .next t ∧ (t.get F.cpSupStretch).testBit d.val = false ∧
      (∀ i, i < 30 → i ≠ d.val → (t.get F.cpSupStretch).testBit i = (s.get F.cpSupStretch).testBit i) ∧
      t.get F.cpSupLongest = max (s.get F.cpSupLongest) (min clks (2 ^ 32 - 1)) ∧ t = { s with mgmt := t.mgmt, regs := t.regs }) ∧
  (∀ (s : State) (c : SuppliedClock) (khz : Nat), let (i, lo, hi) := clockRange s.integ c
    s.canonical = true → lo ≤ khz → khz ≤ hi → ∃ t, exec (.suppliedClockChange c khz) s = .next t ∧ t.clkKhz[i]? = some khz ∧
      (∀ j, j ≠ i → t.clkKhz[j]? = s.clkKhz[j]?) ∧ t = { s with clkKhz := t.clkKhz }) ∧
  (∀ (s : State) (c : SuppliedClock) (khz : Nat), let (_, lo, hi) := clockRange s.integ c
    (khz < lo ∨ hi < khz) → Stays (.suppliedClockChange c khz) s)

/-- Low power. REQ asks for NAP or SLEEP from RUN and is cancelled, or wakes the engine, with RUN; at the epoch the translations, caches and
code buffers go, before SLEEP with GOODBYE on the peer link, and at the end of the entry STATE reads NAP, with the memories of the domains
that CP_NAP_RET keeps as they were, or SLEEP, with PRESENT low and the content of SOFT. An enabled source wakes the engine with its code in
LAST_WAKE, and WAKE_COMPLETE ends the wake. The model's choices in it are log entry 61. -/
def Obligations.LowPowerResults : Prop :=
  (∀ (s : State) (m : Master) (w : Word), Takes s m 0x8020 →
    Does (.lpReqNap m w) s (lpEnables s w ++ (F.cpLpCtrlReq, 1) :: if s.get F.cpLpStatusState = 0 then [(F.cpLpStatusState, 1)] else []) s) ∧
  (∀ (s : State) (m : Master) (w : Word), Takes s m 0x8020 →
    Does (.lpReqSleep m w) s (lpEnables s w ++ (F.cpLpCtrlReq, 2) :: if s.get F.cpLpStatusState = 0 then [(F.cpLpStatusState, 1)] else []) s) ∧
  (∀ (s : State) (m : Master) (w : Word), Takes s m 0x8020 → s.get F.cpLpStatusState = 1 →
    Does (.lpReqRun m w) s (lpEnables s w ++ [(F.cpLpCtrlReq, 0), (F.cpLpStatusState, 0)]) { s with lpGoing := false }) ∧
  (∀ (s : State) (m : Master) (w : Word), Takes s m 0x8020 → (s.get F.cpLpStatusState = 2 ∨ s.get F.cpLpStatusState = 3) →
    Does (.lpReqRun m w) s (lpEnables s w ++ waking 1) s) ∧
  (∀ s : State, s.canonical = true → s.lpReady = true → s.epochNow = true → s.wbuf = [] → s.get F.rstDomainGo = 0 →
    s.get F.wipeStatusPending = 0 → s.returning = none → s.get F.cpLpCtrlReq = 1 → spcMasksOk s.spcMasks = true →
    Does .lpEntry s [(F.glbStatusHold, 0), (F.glbStatusEpochWait, 0)] (flushed s)) ∧
  (∀ s : State, s.canonical = true → s.lpReady = true → s.epochNow = true → s.wbuf = [] → s.get F.rstDomainGo = 0 →
    s.get F.wipeStatusPending = 0 → s.returning = none → s.get F.cpLpCtrlReq = 2 → spcMasksOk s.spcMasks = true →
    ∃ t, exec .lpEntry s = .next t ∧ t = { flushed s with plk := t.plk, out := t.out, regs := t.regs } ∧
      t.get F.glbStatusHold = 0 ∧ t.get F.glbStatusEpochWait = 0 ∧ RegsBut ([F.glbStatusHold, F.glbStatusEpochWait] ++ linkRegs) s t) ∧
  (∀ s : State, (s.lpReady = false ∨ s.epochNow = false) → Stays .lpEntry s) ∧
  (∀ s : State, s.canonical = true → s.lpGoing = true → s.get F.cpLpCtrlReq = 1 → (∀ d, 7 ≤ d → d ≤ 28 → (s.get F.cpNapRet).testBit d = true) →
    Does .lowPowerEntryEnd s [(F.cpLpStatusState, 2)] { s with lpGoing := false }) ∧
  (∀ (s : State) (h : Fin 2), s.canonical = true → s.lpGoing = true → s.get F.cpLpCtrlReq = 1 → s.domOn (15 + h.val) = true →
    (s.get F.cpNapRet).testBit (15 + h.val) = false → ∃ t, exec .lowPowerEntryEnd s = .next t ∧ t.get F.cpLpStatusState = 2 ∧
      t.lpGoing = false ∧ t.ws[h.val]? = some WStore.init ∧ t.mem = s.mem) ∧
  (∀ s : State, s.canonical = true → s.lpGoing = true → s.get F.cpLpCtrlReq = 2 → ∃ t, exec .lowPowerEntryEnd s = .next t ∧
    t.get F.cpLpStatusState = 3 ∧ t.present = false ∧ t.lpGoing = false ∧ SoftSetBack s t) ∧
  (∀ (s : State) (src : WakeSource), s.canonical = true → wakes s src → Does (.wake src) s (waking (wakeCode src)) s) ∧
  (∀ (s : State) (src : WakeSource), ¬wakes s src → Stays (.wake src) s) ∧
  (∀ s : State, s.canonical = true → s.get F.cpLpStatusState = 4 → ∃ t, exec .wakeComplete s = .next t ∧ t.present = true ∧
    t.get F.cpLpStatusState = (if s.get F.cpLpCtrlReq = 1 ∨ s.get F.cpLpCtrlReq = 2 then 1 else 0) ∧
    (s.present = false → t.svc = s.svcBack)) ∧
  (∀ (s : State) (d : Fin 30), s.domOn d.val = true → s.svc.testBit d.val = false → d.val ∉ s.wipingDomains → s.present = true →
    s.resetting = none → ∃ t, exec (.domainInService d) s = .next t ∧ t.svc.testBit d.val = true ∧
      (∀ i, i ≠ d.val → t.svc.testBit i = s.svc.testBit i) ∧ t = { s with svc := t.svc })

/-- Resets and wipes. SOFT and WARM drain the memory ports first, with GOODBYE on the peer link; at the end of the drain SOFT sets back
every domain but PD_AON and PD_MGT with the ended dispatches in RST_DROPPED, and WARM, like POR at once, everything that Table 159 does not
keep, and start-up begins; SOFT ends with PRESENT high, and start-up ends with the failed units fenced. A DOMAIN reset and a wipe wait for
the engine epoch, or are refused, and show their end; a DOMAIN reset that begins drops the staged image. The model's choices in it are log entries
62 and 83. -/
def Obligations.ResetResults : Prop :=
  (∀ (s : State) (m : Master) (w : Word), Takes s m 0xA000 → s.resetting = none → ∃ t, exec (.softReset m w) s = .next t ∧
    t.get F.rstCtrlSoft = 1 ∧ t.get F.rstStatusSoftBusy = 1 ∧ t.get F.cpLpStatusState = 0 ∧
    Draining s t 6 [F.rstCtrlSoft, F.rstStatusSoftBusy, F.cpLpStatusState, F.cpLpCtrlReq]) ∧
  (∀ (s : State) (m : Master) (w : Word), Takes s m 0xA000 → s.resetting = none → ∃ t, exec (.warmReset (.owner m) w) s = .next t ∧
    t.get F.rstCtrlWarm = 1 ∧ Draining s t 3 [F.rstCtrlWarm]) ∧
  (∀ (s : State) (w : Word), s.canonical = true → s.startup = 0 → s.resetting = none → ∃ t, exec (.warmReset .management w) s = .next t ∧
    Draining s t 4 []) ∧
  (∀ (s : State) (x : BitVec 12), s.canonical = true → s.integ.ok = true → s.startup = 0 → s.resetting = none →
    ∃ t, exec (.warmInput x) s = .next t ∧ Draining { s with strap := x.toNat } t 2 []) ∧
  (∀ (s : State) (r : ResetSt), s.canonical = true → s.resetting = some r → r.drained = false → (∀ p ∈ s.ports, p.tags = []) → r.cause = 6 →
    ∃ t, exec .resetDrainDone s = .next t ∧ t.resetting = some { r with drained := true } ∧ t.present = false ∧ SoftSetBack s t ∧
      t.get F.rstDropped = s.unrecorded % 2 ^ 32) ∧
  (∀ (s : State) (r : ResetSt), s.canonical = true → s.resetting = some r → r.drained = false → (∀ p ∈ s.ports, p.tags = []) →
    2 ≤ r.cause → r.cause ≤ 5 → ∃ t, exec .resetDrainDone s = .next t ∧ FullSetBack s t r.cause) ∧
  (∀ (s : State) (r : ResetSt), s.resetting = some r → (∃ p ∈ s.ports, p.tags ≠ []) → Stays .resetDrainDone s) ∧
  (∀ (s : State) (r : ResetSt), s.canonical = true → s.resetting = some r → r.cause = 6 → r.drained = true →
    Does .softResetEnd s [(F.rstCtrlSoft, 0), (F.rstStatusSoftBusy, 0), (F.rstStatusCause, 6)]
      { s with resetting := none, present := true, svc := s.svcBack }) ∧
  (∀ (s : State) (x : BitVec 12), s.canonical = true → s.integ.ok = true → ∃ t, exec (.por x) s = .next t ∧ FullSetBack s t 1 ∧
    t.strap = x.toNat) ∧
  (∀ (s : State) (failed : List EUnit) (l : List (List (List Nat))), s.canonical = true → s.startup = 2 → s.testPasses failed = true →
    ∃ t, exec (.startupComplete failed l) s = .next t ∧ t.startup = 0 ∧ t.present = true ∧
      ∀ u ∈ failed, fenceable u = true → t.fenced u = true) ∧
  (∀ (s : State) (m : Master) (w : Word), let d := w.toNat % 32
    Takes s m 0xA004 → s.get F.rstDomainGo = 0 → (d = 4 ∨ (6 ≤ d ∧ d ≤ 29)) → s.domOn d = true →
    Does (.domainResetRequest m w) s ([(F.rstDomainDomain, d), (F.rstDomainGo, 1)] ++ held s) s) ∧
  (∀ (s : State) (m : Master) (w : Word), let d := w.toNat % 32
    Takes s m 0xA004 → s.get F.rstDomainGo = 0 → ((d < 6 ∧ d ≠ 4) ∨ 29 < d ∨ s.domOn d = false) →
    Does (.domainResetRequest m w) s [(F.rstDomainDomain, d), (F.rstDomainGo, 0), (F.rstStatusDomRej, 1)] s) ∧
  (∀ s : State, let d := s.get F.rstDomainDomain
    s.canonical = true → s.epochNow = true → s.wbuf = [] → s.get F.rstDomainGo = 1 → s.domBusy = none → s.domOn d = true → d < 30 →
    ∃ t, exec .engineEpoch s = .next t ∧ t.domBusy = some d ∧ t.svc.testBit d = false ∧ t.mem = s.mem ∧
      (s.get F.ldrStateState = 2 ∨ s.get F.ldrStateState = 3 → t.staged = none ∧ t.get F.ldrStateState = 0)) ∧
  (∀ (s : State) (d : Fin 30), s.canonical = true → s.domBusy = some d.val → ∃ t, exec (.domainResetDone d) s = .next t ∧ t.domBusy = none ∧
    t.get F.rstDomainGo = 0 ∧ t.get F.rstStatusDomDone = 1 ∧
    t.svc.testBit d.val = (s.domOn d.val && s.present && s.wiping.all (fun w => !(wipeDomains w).contains d.val)) ∧ t.mem = s.mem ∧ t.disps = s.disps) ∧
  (∀ (s : State) (m : Master) (w : Word), Takes s m 0xA020 → s.get F.wipeCtrlGo = 0 →
    Does (.wipeRequest m w) s ([(F.wipeCtrlSet, w.toNat % 64), (F.wipeCtrlGo, 1), (F.wipeStatusPending, 1)] ++ held s) s) ∧
  (∀ (s : State) (set : Nat), s.canonical = true → s.wiping = some set → ∃ t, exec .wipeDone s = .next t ∧ t.wiping = none ∧
    t.get F.wipeCtrlGo = 0 ∧ t.get F.wipeStatusDone = 1 ∧ t.mem = s.mem ∧ t.disps = s.disps ∧
    (set.testBit 1 = false → ∀ d ∈ wipeDomains set, s.domBusy ≠ some d → t.svc.testBit d = (s.domOn d && s.present)))

/-! ## The management subsystem -/

namespace Sys2Proof.Claims

/-- The transitions of Table 176. -/
def lcyAllowed (m : Mgmt) (target : Nat) : Prop :=
  (target = 1 ∧ m.lifecycle = 0) ∨
  (target = 2 ∧ m.lifecycle < 2 ∧ (∃ k ∈ m.keys, k.state = 2) ∧ m.running ≠ none ∧ m.key = 0) ∨
  (target = 3 ∧ m.lifecycle < 3)

/-- A key command that R700 accepts: an installation into an EMPTY slot before PRODUCTION, or a revocation that leaves a production key. -/
def keyAllowed (m : Mgmt) (cmd slot : Nat) : Prop :=
  ((cmd = 1 ∨ cmd = 2) ∧ (m.keySlot slot).state = 0 ∧ m.lifecycle ≤ 1) ∨
  (cmd = 3 ∧ m.lifecycle < 3 ∧ ¬(m.lifecycle = 2 ∧ (m.keySlot slot).state = 2 ∧ (m.keys.filter (fun k => k.state == 2)).length = 1))

/-- The fields of the boot record that counts (R681): ACTIVE, TRY and TRIED. -/
def bootField (s : State) (p o : Nat) : Nat := s.flashNat (32 * p + o) 1

/-- Firmware of slot `i` runs, in trial or confirmed, at the end of the boot of start-up (R682). -/
structure Boots (s t : State) (i : Nat) (trial : Bool) : Prop where
  runs : t.mgmt.running = some i ∧ t.mgmt.trial = trial ∧ t.mgmt.down = false
  version : t.mgmt.version = fieldOf (s.slotBytes i) 4 4 ∧ t.mgmt.svn = fieldOf (s.slotBytes i) 8 1
  next : t.startup = 2 ∧ t.mgmt.boots = s.mgmt.boots + 1
  kept : t.mem = s.mem ∧ t.mgmt.lifecycle = s.mgmt.lifecycle ∧ t.mgmt.keys = s.mgmt.keys

/-- The mailbox takes a command. -/
def MailFree (s : State) (m : Master) : Prop := Takes s m 0x40000 ∧ s.mgmt.mail = none ∧ s.mgmt.down = false

/-- The mailbox is busy with a command that will report `r`. -/
def Mailed (t : State) (cmd r : Nat) : Prop := t.mgmt.mail = some { cmd := cmd, result := r } ∧ t.get F.mbStatusBusy = 1

/-- A firmware image in memory at the address of MB_ARG0 and MB_ARG1 that passes every check of R685. -/
structure GoodUpdate (s : State) (n : Nat) : Prop where
  size : n = s.get (F.mbArg 2) ∧ 260 ≤ n ∧ n ≤ 196864 ∧ s.mailAddr % 256 = 0
  image : s.firmwareCheck (bytesAt s.mem s.mailAddr n) = 0 ∧ fieldOf (bytesAt s.mem s.mailAddr n) 0x0C 4 + 256 = n
  free : s.mgmt.lifecycle ≠ 3 ∧ s.mgmt.trial = false ∧ (∀ i, s.mgmt.running = some i → i ≤ 1)

/-- A temperature of a list. -/
def tempAt (l : List (BitVec 16)) (i : Nat) : Int := tempOf ((l[i]?).getD 0).toNat

/-- What the thermal loop does to one domain with OPs (R693). -/
def ThermalMoved (s t : State) (l : List (BitVec 16)) (k : Nat) : Prop :=
  ((∃ i ∈ railSensors k, s.thermLimit ≤ tempAt l i) → (t.loop k).coolMs = 0 ∧
    (t.loop k).thermal = if 5 ≤ (s.loop k).thermal then (s.loop k).thermal else (s.loop k).thermal + 1) ∧
  ((∀ i ∈ railSensors k, tempAt l i ≤ s.thermLimit - 80) →
    if 100 ≤ (s.loop k).coolMs + 1 then (t.loop k).coolMs = 0 ∧ (t.loop k).thermal = (s.loop k).thermal - 1
    else (t.loop k).coolMs = (s.loop k).coolMs + 1 ∧ (t.loop k).thermal = (s.loop k).thermal) ∧
  ((∀ i ∈ railSensors k, tempAt l i < s.thermLimit) → (∃ i ∈ railSensors k, s.thermLimit - 80 < tempAt l i) →
    (t.loop k).coolMs = 0 ∧ (t.loop k).thermal = (s.loop k).thermal)

/-- The engine with its management subsystem as `m`. -/
def withMgmt (s : State) (m : Mgmt) : State := { s with mgmt := m }

/-- The oldest entry that waits for the log, and its SEQ and place, not at the start of a sector. -/
structure NextEntry (s : State) (e : LogEntry) (rest : List LogEntry) : Prop where
  buffered : s.mgmt.logBuf = e :: rest
  inside : s.mgmt.logPos % 127 ≠ 0
  erased : ∀ i, i < 32 → flashGet s.mgmt.flash (logAddr s.mgmt.logPos + i) 1 = [255]

end Sys2Proof.Claims

/-- Firmware and lifecycle.  A lifecycle request is accepted or refused by Table 176, and LIFECYCLE_COMMIT changes the fuses and begins the
LIFECYCLE reset; the watchdog restarts the processor; the boot starts the slot that the boot record tries or, tried and failed or without a
trial, the active one; a trial that ends without confirmation resets, and one that is confirmed raises the SVN fuse. -/
def Sys2Proof.Claims.FirmwareResults : Prop :=
  (∀ (s : State) (m : Master) (v : Word), let target := v.toNat % 4
    Takes s m 0xA014 → s.mgmt.lcyTarget = none →
    (lcyAllowed s.mgmt target → ∃ t, exec (.lifecycleRequest m v) s = .next t ∧ t.mgmt.lcyTarget = some target ∧ t.get F.lcyStatus = 1 ∧
      t.mgmt.lifecycle = s.mgmt.lifecycle) ∧
    (¬lcyAllowed s.mgmt target → ∃ t, exec (.lifecycleRequest m v) s = .next t ∧ t.mgmt.lcyTarget = none ∧ t.get F.lcyStatus = 2 ∧
      t.mgmt.lifecycle = s.mgmt.lifecycle)) ∧
  (∀ (s : State) (n : Nat), s.canonical = true → s.mgmt.lcyTarget = some n → s.startup = 0 → s.resetting = none →
    ∃ t, exec .lifecycleCommit s = .next t ∧
      Draining (withMgmt s { s.mgmt with lifecycle := n, lcyTarget := none, auth := false }) t 5 []) ∧
  (∀ s : State, s.mgmt.lcyTarget = none → Stays .lifecycleCommit s) ∧
  (∀ s : State, s.canonical = true → s.startup = 0 → ∃ t, exec .mgtWatchdog s = .next t ∧ t.mgmt.down = true ∧ t.mgmt.auth = false ∧
    t.mgmt.mail = none ∧ t.get F.mbEventMgtRestart = 1 ∧ (t.get F.intStatus).testBit 4 = true ∧
    t = { s with mgmt := t.mgmt, regs := t.regs }) ∧
  (∀ (s : State) (p : Nat), s.startup = 1 → s.bootRecord = some p → bootField s p 5 ≠ 255 → s.slotValid (bootField s p 5 % 2) = true →
    ∃ t, exec .firmwareBoot s = .next t ∧ Boots s t (bootField s p 5 % 2) true) ∧
  (∀ (s : State) (p : Nat), s.startup = 1 → s.bootRecord = some p → bootField s p 5 = 255 → bootField s p 6 ≠ 255 →
    s.slotValid (bootField s p 4 % 2) = true → ∃ t, exec .firmwareBoot s = .next t ∧ Boots s t (bootField s p 4 % 2) false ∧
      t.get F.mbEventTrialFailed = 1 ∧ (t.get F.intStatus).testBit 4 = true) ∧
  (∀ (s : State) (p : Nat), s.startup = 1 → s.bootRecord = some p → bootField s p 5 = 255 → bootField s p 6 = 255 →
    s.slotValid (bootField s p 4 % 2) = true → ∃ t, exec .firmwareBoot s = .next t ∧ Boots s t (bootField s p 4 % 2) false) ∧
  (∀ s : State, s.canonical = true → s.mgmt.trial = true → s.mgmt.down = false → s.startup = 0 → s.resetting = none →
    ∃ t, exec .trialTimeout s = .next t ∧ Draining s t 4 []) ∧
  (∀ s : State, s.mgmt.trial = false → Stays .trialTimeout s) ∧
  (∀ (s : State) (i : Nat), s.mgmt.running = some i → s.mgmt.trial = true → s.mgmt.down = false → ∃ t, exec .trialConfirm s = .next t ∧
    t.mgmt.trial = false ∧ t.mgmt.svnFuse = max s.mgmt.svnFuse s.mgmt.svn ∧ t.mgmt.running = some i ∧ t.mem = s.mem)

/-- The mailbox and keys.  FW_UPDATE stages a good image in the slot that is not running; FW_ACTIVATE resets with a staged one and reports
NOT_STAGED without; LOG_COPY writes the entries from a SEQ on to memory and gives their number; MAILBOX_DONE reports the result.  A key command
is held while it runs and then acts or is refused, with KEY_DONE; and LOG_PROGRAM programs the oldest waiting entry, or sets FLASH_ERR. -/
def Sys2Proof.Claims.MailboxAndKeyResults : Prop :=
  (∀ (s : State) (m : Master) (n : Nat), MailFree s m → GoodUpdate s n → ∃ t, exec (.fwUpdate m .ok true) s = .next t ∧ Mailed t 1 0 ∧
    t.mgmt.fwStaged = true ∧ t.mem = s.mem ∧ t.mgmt.running = s.mgmt.running) ∧
  (∀ (s : State) (m : Master) (o : ReadOutcome) (ok : Bool), MailFree s m → s.mgmt.lifecycle = 3 →
    ∃ t, exec (.fwUpdate m o ok) s = .next t ∧ Mailed t 1 7 ∧ t.mgmt.flash = s.mgmt.flash) ∧
  (∀ (s : State) (m : Master), MailFree s m → s.mgmt.fwStaged = true → s.resetting = none → ∃ t, exec (.fwActivate m) s = .next t ∧
    t.get F.mbStatusBusy = 1 ∧ t.resetting = some { cause := 4, drained := false } ∧ t.mem = s.mem) ∧
  (∀ (s : State) (m : Master), MailFree s m → s.mgmt.fwStaged = false → ∃ t, exec (.fwActivate m) s = .next t ∧ Mailed t 2 9 ∧
    t = { s with mgmt := t.mgmt, regs := t.regs }) ∧
  (∀ (s : State) (m : Master), MailFree s m → s.mailAddr % 32 = 0 → 1 ≤ s.get (F.mbArg 3) → s.get (F.mbArg 3) ≤ 4096 →
    let l := ((s.logEntries.filter (fun e => decide (s.get (F.mbArg 2) ≤ e.1))).take (s.get (F.mbArg 3))).map (fun e => e.2)
    ∃ t, exec (.logCopy m .ok) s = .next t ∧ Mailed t 3 0 ∧ t.get (F.mbArg 3) = l.length ∧
      bytesAt t.mem s.mailAddr l.flatten.length = l.flatten ∧
      ∀ x, (x < s.mailAddr ∨ s.mailAddr + l.flatten.length ≤ x) → byteAt t.mem x = byteAt s.mem x) ∧
  (∀ (s : State) (x : MailOp), s.canonical = true → s.mgmt.mail = some x →
    Does .mailboxDone s [(F.mbStatusBusy, 0), (F.mbStatusDone, 1), (F.mbStatusResult, x.result), (F.intStatus, s.get F.intStatus ||| 16)]
      (withMgmt s { s.mgmt with mail := none })) ∧
  (∀ (s : State) (m : Master) (slot : Fin 4), Takes s m 0x4002C → s.mgmt.keyOp = none →
    Does (.installDev m slot) s [(F.mbKeyStatus, 1)] (withMgmt s { s.mgmt with keyOp := some (slot.val, 1) }) ∧
    Does (.installProd m slot) s [(F.mbKeyStatus, 1)] (withMgmt s { s.mgmt with keyOp := some (slot.val, 2) }) ∧
    Does (.revoke m slot) s [(F.mbKeyStatus, 1)] (withMgmt s { s.mgmt with keyOp := some (slot.val, 3) })) ∧
  (∀ (s : State) (slot cmd : Nat), s.canonical = true → s.mgmt.keyOp = some (slot, cmd) → slot < s.mgmt.keys.length →
    keyAllowed s.mgmt cmd slot → ∃ t, exec .keyCommandDone s = .next t ∧ t.get F.mbKeyStatus = 2 ∧ t.get F.mbEventKeyDone = 1 ∧
      (t.get F.intStatus).testBit 4 = true ∧ t.mgmt.keyOp = none ∧
      t.mgmt.keySlot slot = (if cmd = 3 then { s.mgmt.keySlot slot with state := 3 } else { state := cmd, key := s.keyData }) ∧
      (∀ i, i ≠ slot → t.mgmt.keySlot i = s.mgmt.keySlot i) ∧ t = { s with mgmt := t.mgmt, regs := t.regs }) ∧
  (∀ (s : State) (slot cmd : Nat), s.canonical = true → s.mgmt.keyOp = some (slot, cmd) → ¬keyAllowed s.mgmt cmd slot →
    ∃ t, exec .keyCommandDone s = .next t ∧ t.get F.mbKeyStatus = 3 ∧ t.get F.mbEventKeyDone = 1 ∧ t.mgmt.keyOp = none ∧ t.mgmt.keys = s.mgmt.keys) ∧
  (∀ (s : State) (e : LogEntry) (rest : List LogEntry), NextEntry s e rest → ∃ t, exec (.logProgram true) s = .next t ∧
    t.mgmt.logBuf = rest ∧ t.mgmt.logPos = s.mgmt.logPos + 1 ∧
    flashGet t.mgmt.flash (logAddr s.mgmt.logPos) 32 = (logEntryBytes (s.mgmt.logSeq - (rest.length + 1)) s.mgmt.boots e).take 32 ∧ t.mem = s.mem) ∧
  (∀ (s : State) (e : LogEntry) (rest : List LogEntry), s.canonical = true → s.mgmt.logBuf = e :: rest →
    ∃ t, exec (.logProgram false) s = .next t ∧ t.get F.mbEventFlashErr = 1 ∧ (t.get F.intStatus).testBit 4 = true ∧
      t.mgmt.flash = s.mgmt.flash ∧ ∃ l, t.mgmt.logBuf = l ++ e :: rest)

/-- Control loops and telemetry: the thermal loop, the trip and its end, the power cap, the return from a brown-out, and the push of the telemetry
record. -/
def Sys2Proof.Claims.LoopResults : Prop :=
  (∀ (s : State) (l : List (BitVec 16)), s.canonical = true → s.startup = 0 → s.mgmt.down = false → s.mgmt.loops.length = 11 → l.length = 24 →
    ∃ t, exec (.thermalLoopTick l) s = .next t ∧ (∀ i, i < 24 → t.temp i = tempAt l i) ∧ ∀ k, k < 11 → ThermalMoved s t l k) ∧
  (∀ (s : State) (i : Fin 24) (x : BitVec 16), s.canonical = true → s.mgmt.loops.length = 11 → s.thermTrip ≤ tempOf x.toNat → s.mgmt.trip = false →
    ∃ t, exec (.thermalTrip i x) s = .next t ∧ t.mgmt.trip = true ∧ t.therm = true ∧ t.get F.snsThermStatusTrip = 1 ∧
      t.get F.snsThermStatusTripped = 1 ∧ (t.get F.rasStatusClassSeen).testBit 9 = true ∧ (∀ k, k < 11 → (t.loop k).thermal = 5) ∧
      ∀ k, k < 11 → t.opTarget k = 5) ∧
  (∀ (s : State) (i : Fin 24) (x : BitVec 16), tempOf x.toNat < s.thermTrip → Stays (.thermalTrip i x) s) ∧
  (∀ s : State, s.canonical = true → s.mgmt.trip = true → (∀ i, i < 24 → s.temp i < s.thermLimit - 80) → ∃ t, exec .thermalTripEnd s = .next t ∧
    t.mgmt.trip = false ∧ t.therm = false ∧ t.get F.snsThermStatusTrip = 0 ∧ t.mgmt.loops = s.mgmt.loops) ∧
  (∀ s : State, s.mgmt.trip = false → Stays .thermalTripEnd s) ∧
  (∀ (s : State) (mw : Nat), s.canonical = true → s.startup = 0 → s.mgmt.down = false → s.mgmt.loops.length = 11 → s.get F.snsPcap ≠ 0 →
    s.get F.snsPcap < mw → ∃ t, exec (.powerCapTick mw) s = .next t ∧ t.get F.snsPower = min mw 0xFFFF ∧ t.mgmt.capCool = 0 ∧
      (t.loop 0).power = (s.loop 0).power ∧ ∀ k, 1 ≤ k → k < 11 →
        (t.loop k).power = if 5 ≤ (s.loop k).power ∨ 5 ≤ s.opOf k then (s.loop k).power else (s.loop k).power + 1) ∧
  (∀ (s : State) (mw : Nat), s.canonical = true → s.startup = 0 → s.mgmt.down = false → s.mgmt.loops.length = 11 → s.get F.snsPcap ≠ 0 →
    10 * mw ≤ 9 * s.get F.snsPcap → ∃ t, exec (.powerCapTick mw) s = .next t ∧
      if 10 ≤ s.mgmt.capCool + 1 then t.mgmt.capCool = 0 ∧ ∀ k, 1 ≤ k → k < 11 → (t.loop k).power = (s.loop k).power - 1
      else t.mgmt.capCool = s.mgmt.capCool + 1 ∧ t.mgmt.loops = s.mgmt.loops) ∧
  (∀ (s : State) (d : Fin 30) (k : Nat), s.canonical = true → s.mgmt.loops.length = 11 → railOfDomain d.val = some k → (s.loop k).brown ≠ 0 →
    s.mgmt.down = false → ∃ t, exec (.brownoutRecover d) s = .next t ∧ (t.loop k).brown = (s.loop k).brown - 1 ∧
      (∀ j, j ≠ k → t.loop j = s.loop j) ∧ t.mem = s.mem) ∧
  (∀ s : State, s.get F.mbTlm ≠ 0 → s.mgmt.down = false → s.startup = 0 → ∃ t, exec .telemetryPush s = .next t ∧
    t.mgmt = { s.mgmt with records := s.mgmt.records + s.plk.subscribers.length } ∧ t.mem = s.mem)

/-- The management subsystem: firmware, lifecycle, mailbox, keys, log, control loops and telemetry. The model's choices in it are log
entries 66, 67 and 68. -/
def Obligations.ManagementResults : Prop :=
  Sys2Proof.Claims.FirmwareResults ∧ Sys2Proof.Claims.MailboxAndKeyResults ∧ Sys2Proof.Claims.LoopResults

/-! ## The monitor -/

namespace Sys2Proof.Claims

/-- Who may run a command of the monitor (Table 179): its kind, whether the boot ROM offers it, and whether it writes as the owner. -/
def monRule : Instr → Option (MonKind × Bool × Bool)
  | .monStat => some (.basic, true, false)
  | .monHelp => some (.basic, true, false)
  | .monLog _ => some (.basic, false, false)
  | .monSens => some (.basic, false, false)
  | .monPeek _ _ => some (.read, false, false)
  | .monTraceOn => some (.read, false, false)
  | .monTraceOff => some (.read, false, false)
  | .monOwn => some (.read, false, false)
  | .monPoke _ _ => some (.write, false, true)
  | .monFence _ _ => some (.write, false, true)
  | .monFenceReturn _ _ => some (.write, false, true)
  | .monOwnClaim => some (.write, false, false)
  | .monOwnRelease => some (.write, false, true)
  | .monOwnHb => some (.write, false, true)
  | .monOp _ => some (.write, false, true)
  | .monOwnAuth => some (.auth, false, false)
  | .monOwnLock => some (.auth, false, false)
  | .monOwnAuthSig sig => if sig.length = 64 then some (.auth, false, false) else none
  | _ => none

/-- A command of the monitor passes the checks of Table 179, and no input has been lost. -/
structure MonMay (s : State) (c : Instr) : Prop where
  canonical : s.canonical = true
  calm : s.monBusy = false ∧ s.mgmt.overrun = false
  rule : ∃ k rom owner, monRule c = some (k, rom, owner) ∧ (s.mgmt.running ≠ none ∨ rom = true) ∧ s.monAllows k = true ∧
    (owner = true → s.isOwner s.integ.monMaster = true)

/-- The monitor answers data lines `l` and a final line. -/
def Says (s t : State) (l : List Out) (text : List Byte) : Prop := t.out = s.out ++ l ++ [.uart (monText text)]

/-- A command answers a final line and does nothing else. -/
def Answers (c : Instr) (s : State) (text : List Byte) : Prop := exec c s = .next { s with out := s.out ++ [.uart (monText text)] }

/-- A write of a monitor command as MON_MASTER reaches register `a`, with the guard open or to be opened. -/
structure MonTakes (s : State) (m : Master) (a : Nat) : Prop where
  master : m.val = s.integ.monMaster
  reaches : Reaches s m a
  may : s.mayWrite m.val a = true
  on : s.regOn a = true

end Sys2Proof.Claims

/-- The monitor. A line that is no command is answered ERR SYNTAX, and a command that may not run with BUSY, DENIED or NOT_OWNER; the
commands that show something print it and change nothing; the ones that write do what the same write as MON_MASTER does; and own auth, the
signature and own lock open and close the unlock. The model's choices in it are log entry 69. -/
def Obligations.MonitorResults : Prop :=
  (∀ (s : State) (line : List Byte), s.mgmt.overrun = false →
    ((200 < line.length ∨ knownLine line = false) → Answers (.monLine line false) s (ascii "ERR SYNTAX")) ∧
    (line.length ≤ 200 → knownLine line = true → Stays (.monLine line false) s)) ∧
  (∀ (s : State) (line : List Byte), (200 < line.length ∨ knownLine line = false) → ∃ t, exec (.monLine line true) s = .next t ∧
    Says s t [] (ascii "ERR OVERRUN") ∧ t.mgmt.overrun = false) ∧
  (∀ (s : State) (c : Instr) (k : MonKind) (rom owner : Bool), monRule c = some (k, rom, owner) → s.mgmt.overrun = false →
    (s.monBusy = true → Answers c s (ascii "ERR BUSY")) ∧
    (s.monBusy = false → ((s.mgmt.running = none ∧ rom = false) ∨ s.monAllows k = false) → Answers c s (ascii "ERR DENIED")) ∧
    (s.monBusy = false → (s.mgmt.running ≠ none ∨ rom = true) → s.monAllows k = true → owner = true →
      s.isOwner s.integ.monMaster = false → Answers c s (ascii "ERR NOT_OWNER"))) ∧
  (∀ s : State, MonMay s .monStat → ∃ t l, exec .monStat s = .next t ∧ Says s t l (ascii "OK") ∧ Out.monData 0 s.mgmt.lifecycle ∈ l ∧
    (∀ k, k < 11 → Out.monData (16 + k) (s.opOf k) ∈ l ∧ Out.monData (32 + k) (s.loopLimit k) ∈ l) ∧ t = { s with out := t.out }) ∧
  (∀ s : State, MonMay s .monHelp → ∃ t l, exec .monHelp s = .next t ∧ Says s t l (ascii "OK") ∧ t = { s with out := t.out }) ∧
  (∀ s : State, MonMay s .monSens → ∃ t, exec .monSens s = .next t ∧ t = { s with out := t.out } ∧
    Says s t (((List.range 24).map (fun i => 0x4C000 + 4 * i) ++ (List.range 30).map (fun d => 0x4C080 + 4 * d) ++ [0x4C100]).map
      (fun a => .monData a (s.readWord a))) (ascii "OK")) ∧
  (∀ (s : State) (n : Nat), MonMay s (.monLog n) → 1 ≤ n → n ≤ 1024 → ∃ t, exec (.monLog n) s = .next t ∧ t = { s with out := t.out } ∧
    Says s t ((s.logEntries.drop (s.logEntries.length - n)).map (fun e => .monData e.1 (leVal e.2))) (ascii "OK")) ∧
  (∀ (s : State) (addr : BitVec 20) (n : Nat), let a := addr.toNat / 4 * 4
    MonMay s (.monPeek addr n) → 1 ≤ n → n ≤ 64 → a + 4 * n ≤ 2 ^ 20 → (∀ i, i < n → s.readEffect s.integ.monMaster (a + 4 * i) = s) →
    (∀ i (o : List Out), i < n → State.readEffect { s with out := o } s.integ.monMaster (a + 4 * i) = { s with out := o }) →
    ∃ t, exec (.monPeek addr n) s = .next t ∧ t = { s with out := t.out } ∧
      Says s t ((List.range n).map (fun i => .monData (a + 4 * i) (s.portRead (a + 4 * i)))) (ascii "OK")) ∧
  (∀ (s : State) (m : Master) (addr : BitVec 20) (v : Word) (row : RegRow), let a := addr.toNat / 4 * 4
    MonMay s (.monPoke addr v) → m.val = s.integ.monMaster → Takes s m a → s.regAt a = some row → actingAddr a = false → a ≠ 0x40024 →
    ∃ t, exec (.monPoke addr v) s = .next t ∧ Says s t [] (ascii "OK") ∧ t = { s with out := t.out, mgmt := t.mgmt, regs := t.regs } ∧
      (∀ f ∈ row.fields, Written f (s.get ⟨a, f.lo, f.width⟩) v.toNat (t.get ⟨a, f.lo, f.width⟩)) ∧
      RegsBut (F.mbEventLogDrop :: row.fields.map (fun f => ⟨a, f.lo, f.width⟩)) s t) ∧
  (∀ (s : State) (m : Master) (kind index : Nat) (u : EUnit), MonMay s (.monFence kind index) → MonTakes s m 0x10 → MonTakes s m 0xC020 →
    s.get F.rasFenceGo = 0 → kind < 16 → index < 64 → EUnit.ofCode kind index = some u → fenceable u = true → s.integrated u = true →
    s.fenced u = false → (∀ b, u = .bank b → s.pends b.val = false) → s.inSeq u = false → s.isLast u = false →
    ∃ t, exec (.monFence kind index) s = .next t ∧ t.fseqs = s.fseqs ++ [{ unit := u, owner := true, fenced := false }] ∧
      t.get F.rasFenceGo = 1 ∧ t.get F.keyUnlocked = 1 ∧ Says s t [.monData 0xC024 1] (ascii "OK")) ∧
  (∀ (s : State) (m : Master) (kind index : Nat) (u : EUnit), MonMay s (.monFenceReturn kind index) → MonTakes s m 0x10 → MonTakes s m 0xC020 →
    s.get F.rasFenceGo = 0 → kind < 16 → index < 64 → EUnit.ofCode kind index = some u → fenceable u = true → s.integrated u = true →
    s.fenced u = true → s.inSeq u = false → u ∈ s.ownFenced → ∃ t, exec (.monFenceReturn kind index) s = .next t ∧
      t.get F.rasFenceGo = 1 ∧ t.get F.rasFenceOp = 2 ∧ t.get F.keyUnlocked = 1 ∧ Says s t [.monData 0xC024 1] (ascii "OK")) ∧
  (∀ s : State, (MonMay s .monTraceOn → ∃ t, exec .monTraceOn s = .next t ∧ Says s t [] (ascii "OK") ∧
      t = { s with out := t.out, mgmt := { s.mgmt with trace := true } }) ∧
    (MonMay s .monTraceOff → ∃ t, exec .monTraceOff s = .next t ∧ Says s t [] (ascii "OK") ∧
      t = { s with out := t.out, mgmt := { s.mgmt with trace := false } }) ∧
    (MonMay s .monOwn → ∃ t, exec .monOwn s = .next t ∧ Says s t [.monData 0x1000 (s.readWord 0x1000)] (ascii "OK") ∧ t = { s with out := t.out })) ∧
  (∀ (s : State) (m : Master), MonMay s .monOwnClaim → MonTakes s m 0x1004 → s.get F.ownStatusOwned = 0 → ∃ t, exec .monOwnClaim s = .next t ∧
    Says s t [] (ascii "OK") ∧ t.claimOpen = true ∧ t.claims.testBit m.val = true) ∧
  (∀ (s : State) (m : Master), MonMay s .monOwnRelease → MonTakes s m 0x1008 → ∃ t, exec .monOwnRelease s = .next t ∧
    Says s t [] (ascii "OK") ∧ t.get F.ownStatusOwned = 0 ∧ t.get F.ownEventReleased = 1 ∧ t.hb = 0) ∧
  (∀ (s : State) (m : Master), MonMay s .monOwnHb → MonTakes s m 0x100C → ∃ t, exec .monOwnHb s = .next t ∧ Says s t [] (ascii "OK") ∧ t.hb = 0) ∧
  (∀ (s : State) (m : Master) (n : Nat), MonMay s (.monOp n) → MonTakes s m 0x8000 → ∃ t, exec (.monOp n) s = .next t ∧
    t.get F.cpOpReq = n % 8) ∧
  (∀ s : State, MonMay s .monOwnAuth → ∃ t nonce, exec .monOwnAuth s = .next t ∧ nonce.length = 16 ∧ t.mgmt = { s.mgmt with nonce := some nonce } ∧
    Says s t [.uart (monText (ascii "CHAL " ++ nonce.flatMap (fun b => hexText 2 b.toNat)))] (ascii "OK")) ∧
  (∀ (s : State) (sig nonce : List Byte), MonMay s (.monOwnAuthSig sig) → s.mgmt.nonce = some nonce →
    let good := ed25519 (Config.romKey 2) (ascii "KTMON" ++ leBytes 8 s.integ.serial ++ nonce) sig
    ∃ t, exec (.monOwnAuthSig sig) s = .next t ∧ t.mgmt = { s.mgmt with nonce := none, auth := s.mgmt.auth || good } ∧
      Says s t [] (if good = true then ascii "OK" else ascii "ERR AUTH")) ∧
  (∀ s : State, MonMay s .monOwnLock → ∃ t, exec .monOwnLock s = .next t ∧ t.mgmt = { s.mgmt with nonce := none, auth := false } ∧
    Says s t [] (ascii "OK"))

/-! ## The peer link -/

namespace Sys2Proof.Claims

/-- A port that takes flits and has nothing queued to send hears a good packet of type `typ` (R711, R713). -/
structure Hears (s : State) (port : Fin 8) (k : Packet) (typ : Nat) : Prop where
  canonical : s.canonical = true
  hears : s.plkHears port.val = true
  kept : port.val < s.plk.ports.length
  quiet : (s.plkPort port.val).queue = []
  good : packetGood k = true
  named : k.typ.toNat = typ

/-- A sequenced packet that an UP port accepts: its SEQ is the one expected (R721); the engine is not in NAP, so that it wakes nothing. -/
structure Accepts (s : State) (port : Fin 8) (k : Packet) (typ : Nat) : Prop where
  heard : Hears s port k typ
  up : s.plkState port.val = 3
  sequence : k.seq.toNat = (s.plkPort port.val).rxSeq
  awake : s.get F.cpLpStatusState ≠ 2

/-- A packet accepted by the node that it is for (R726). -/
structure Consumes (s : State) (port : Fin 8) (k : Packet) (typ : Nat) : Prop where
  accepts : Accepts s port k typ
  mine : k.dst.toNat = s.get F.plkNode

/-- The flits received at a port after a packet. -/
def rxCount (s : State) (port : Fin 8) (k : Packet) : RField × Nat :=
  (F.plkRxFlits port.val, min (s.get (F.plkRxFlits port.val) + 1 + k.len.toNat) (2 ^ (F.plkRxFlits port.val).width - 1))

/-- The port has taken the packet: its flits are counted, and the next SEQ is expected. -/
def Heard (s t : State) (port : Fin 8) (k : Packet) : Prop :=
  t.get (rxCount s port k).1 = (rxCount s port k).2 ∧ (t.plkPort port.val).rxSeq = ((s.plkPort port.val).rxSeq + 1) % 4096

/-- The port has taken the packet, which does nothing else. -/
def HeardOnly (s t : State) (port : Fin 8) (k : Packet) : Prop :=
  Heard s t port k ∧ t = { s with plk := { s.plk with ports := t.plk.ports }, regs := t.regs } ∧ RegsBut [F.plkRxFlits port.val] s t

/-- Packets for node `dst` leave at once on port `q`: it is the port of R726, nothing waits there, and there is credit in every pool and room
in the replay buffer for a packet of 41 flits (R719, R721). -/
structure OpenPath (s : State) (dst q : Nat) : Prop where
  route : s.routePort dst = some q
  kept : q < s.plk.ports.length
  empty : (s.plkPort q).queue = []
  lanes : s.plk.laneDown.contains q = false
  running : s.resetting = none
  hops : s.get F.plkCfgHopLimit ≠ 0
  credit : ∀ i, i < 8 → ((s.plkPort q).sent[i]?).getD 0 + 41 ≤ 256 + 8 * ((s.plkPort q).credit[i]?).getD 0
  room : (s.plkPort q).replay.foldl (fun n x => n + packetFlits x) 0 + 41 ≤ 2048

/-- One packet of this engine has left on port `q`, with its CRC (R713) and HOPS 1 (R726). -/
def Sends (s t : State) (q typ dst arg : Nat) (P : List Byte → Prop) : Prop :=
  ∃ k, t.out = s.out ++ [.packet q k] ∧ k.typ.toNat = typ ∧ k.dst.toNat = dst ∧ k.arg.toNat = arg ∧ P k.payload ∧
    k.src.toNat = s.get F.plkNode ∧ k.hops.toNat = 1 ∧ k.crc = BitVec.ofNat 32 (packetCrc k)

/-- A link packet has left on port `p` (R714). -/
def SendsLink (s t : State) (p typ arg : Nat) : Prop :=
  ∃ k, t.out = s.out ++ [.packet p k] ∧ k.typ.toNat = typ ∧ k.arg.toNat = arg ∧ k.len = 0 ∧ k.payload = [] ∧
    k.src.toNat = s.get F.plkNode ∧ k.crc = BitVec.ofNat 32 (packetCrc k)

/-- An INIT names a partner that a port may not have: this engine's own node ID, or that of another UP port's partner (R717). -/
def duplicate (s : State) (port : Fin 8) (node : Nat) : Prop :=
  node = s.get F.plkNode ∨ ∃ q, q < 8 ∧ q ≠ port.val ∧ s.plkState q = 3 ∧ s.get (F.plkPortPartner q) = node

/-- Every type that is not a link type, with its command (Table 184). -/
def sequenced : List (Nat × (Fin 8 → Packet → Instr)) :=
  [(0x10, .plkRay), (0x11, .plkRayAck), (0x12, .plkHit), (0x13, .plkQuery), (0x14, .plkQres), (0x15, .plkUnreachable),
   (0x20, fun p k => .plkRread p k .ok), (0x21, .plkRdata), (0x30, .plkMcReq), (0x31, .plkMcTile), (0x32, .plkMcNak), (0x40, .plkEvent),
   (0x41, .plkTelemReq), (0x42, .plkTelem), (0x43, .plkSubscribe), (0x44, .plkNodeLost)]

/-- No ray, window read or multicast exchange that the loss of a node could touch is in progress. -/
structure Unloaded (s : State) : Prop where
  items : s.tqs = [] ∧ s.overflow = [] ∧ s.batches = []
  reads : s.plk.rreads = []
  models : s.plk.mcast = []

/-- The one ray, a ray of this engine's own, has gone to a peer; the HOME of its treelet is node `n`. -/
structure AwayRay (s : State) (r : Ray) (n : Nat) : Prop where
  unloaded : Unloaded s
  alone : s.rays = [r]
  away : r.loc = .remote ∧ r.guest = none ∧ r.query = false ∧ r.rcd.length = 64
  home : s.awayNode r = some n

/-- The ray has been sent again with its generation raised (R740). -/
def SentAgain (s t : State) (r : Ray) (n q : Nat) : Prop :=
  (∃ x, t.ray r.id = some x ∧ x.loc = .remote ∧ x.gen = r.gen + 1) ∧
  Sends s t q 0x10 n (guestArg r.disp r.item (r.gen + 1)) (fun b => (b.drop 32).take 64 = r.rcd) ∧
  t.get F.plkReplays = min (s.get F.plkReplays + 1) (2 ^ F.plkReplays.width - 1)

end Sys2Proof.Claims

/-- An enabled port in DOWN sends INIT.  A good INIT brings a port in DOWN to INIT, with the partner recorded, the link state begun again and
INIT answered, and one in INIT to UP; from a duplicate node the port stays in INIT and DUP_NODE is set; an UP port only counts it.
GOODBYE brings a port in INIT or UP to DOWN, and fences nothing and marks nothing lost. -/
def Sys2Proof.Claims.LinkStateResults : Prop :=
  (∀ (s : State) (port : Fin 8), s.canonical = true → s.plkHears port.val = true → s.plkState port.val = 1 → s.resetting = none →
    ∃ t, exec (.plkInitSend port) s = .next t ∧ SendsLink s t port.val 1 (s.get F.plkNode + 65536 * port.val) ∧
      t = { s with out := t.out, regs := t.regs } ∧ RegsBut linkRegs s t) ∧
  (∀ (s : State) (port : Fin 8), s.plkState port.val ≠ 1 → Stays (.plkInitSend port) s) ∧
  (∀ (s : State) (port : Fin 8) (k : Packet), Hears s port k 1 → s.plkState port.val = 1 → ∃ t, exec (.plkInit port k) s = .next t ∧
    t.plkState port.val = 2 ∧ t.get (F.plkPortPartner port.val) = k.arg.toNat % 4096 ∧ t.plkPort port.val = PlkPort.init ∧
    SendsLink s t port.val 1 (s.get F.plkNode + 65536 * port.val) ∧ (duplicate s port (k.arg.toNat % 4096) → t.get F.plkEventDupNode = 1) ∧
    (¬duplicate s port (k.arg.toNat % 4096) → t.get F.plkEventDupNode = s.get F.plkEventDupNode) ∧
    t = { s with plk := { s.plk with ports := t.plk.ports }, out := t.out, regs := t.regs } ∧
    RegsBut ([F.plkRxFlits port.val, F.plkPortState port.val, F.plkPortPartner port.val, F.plkEventDupNode] ++ linkRegs) s t) ∧
  (∀ (s : State) (port : Fin 8) (k : Packet), Hears s port k 1 → s.plkState port.val = 2 → ¬duplicate s port (k.arg.toNat % 4096) →
    ∃ t, exec (.plkInit port k) s = .next t ∧ t.plkState port.val = 3 ∧ t.get (F.plkPortPartner port.val) = k.arg.toNat % 4096 ∧
      t.plkPort port.val = PlkPort.init ∧ SendsLink s t port.val 1 (s.get F.plkNode + 65536 * port.val)) ∧
  (∀ (s : State) (port : Fin 8) (k : Packet), Hears s port k 1 → s.plkState port.val = 2 → duplicate s port (k.arg.toNat % 4096) →
    ∃ t, exec (.plkInit port k) s = .next t ∧ t.plkState port.val = 2 ∧ t.get F.plkEventDupNode = 1 ∧ t.out = s.out) ∧
  (∀ (s : State) (port : Fin 8) (k : Packet), Hears s port k 1 → s.plkState port.val = 3 → Does (.plkInit port k) s [rxCount s port k] s) ∧
  (∀ (s : State) (port : Fin 8) (k : Packet), Hears s port k 2 → s.plkState port.val = 2 → ∃ t, exec (.plkGoodbye port k) s = .next t ∧
    t.plkState port.val = 1 ∧ t.get F.plkEventGoodbye = 1 ∧ t.plkPort port.val = PlkPort.init ∧
    t = { s with plk := { s.plk with ports := t.plk.ports }, regs := t.regs } ∧
    RegsBut [F.plkRxFlits port.val, F.plkPortState port.val, F.plkEventGoodbye] s t) ∧
  (∀ (s : State) (port : Fin 8) (k : Packet), Hears s port k 2 → s.plkState port.val = 3 → Unloaded s → s.rays = [] →
    ∃ t, exec (.plkGoodbye port k) s = .next t ∧ t.plkState port.val = 1 ∧ t.get F.plkEventGoodbye = 1 ∧ t.plkPort port.val = PlkPort.init ∧
      t.plk.lost = s.plk.lost ∧ t.fseqs = s.fseqs ∧ t.window = s.window ∧ t.out = s.out ∧
      t.plk.subscribers = s.plk.subscribers.filter (fun n => n != s.get (F.plkPortPartner port.val))) ∧
  (∀ (s : State) (port : Fin 8) (k : Packet) (r : Ray) (n q : Nat), Hears s port k 2 → s.plkState port.val = 3 → AwayRay s r n →
    n ≠ s.get (F.plkPortPartner port.val) → s.plk.lost.contains n = false → OpenPath s n q → q ≠ port.val →
    ∃ t, exec (.plkGoodbye port k) s = .next t ∧ t.plkState port.val = 1 ∧ SentAgain s t r n q)

/-- The ACK timer sends ACK and the keepalive timer sends KEEPALIVE on an UP port whose lanes are up.  ACK and KEEPALIVE free the packets that
ACK covers from the replay buffer and add the credits returned.  A NAK has every packet from the SEQ named sent again in order and counts
them; the sixteenth in a row for one SEQ loses the port.  A sequenced packet whose CRC fails or whose SEQ is not expected is discarded and
counted as a CORR fault, with one NAK that names the SEQ expected.  One of no listed type is discarded and counted.  A change of lane
alignment stops the port's flits, or lets a waiting packet go. -/
def Sys2Proof.Claims.LinkRetryResults : Prop :=
  (∀ e ∈ ([(4, 0, .plkAckTimer), (3, 1, .plkKeepaliveSend)] : List (Nat × Nat × (Fin 8 → Instr))), ∀ (s : State) (port : Fin 8),
    s.canonical = true → s.plkUp port.val = true → s.plk.laneDown.contains port.val = false → s.resetting = none →
    ∃ t, exec (e.2.2 port) s = .next t ∧ SendsLink s t port.val e.1 (e.2.1 * s.get F.plkNode) ∧
      t = { s with out := t.out, regs := t.regs } ∧ RegsBut linkRegs s t) ∧
  (∀ (s : State) (port : Fin 8), (s.plkUp port.val = false ∨ s.plk.laneDown.contains port.val = true) →
    Stays (.plkAckTimer port) s ∧ Stays (.plkKeepaliveSend port) s) ∧
  (∀ e ∈ ([(4, .plkAck), (3, .plkKeepalive)] : List (Nat × (Fin 8 → Packet → Instr))), ∀ (s : State) (port : Fin 8) (k : Packet),
    Hears s port k e.1 → ∃ t, exec (e.2 port k) s = .next t ∧
      (∀ (a b : List Packet) (x : Packet), (s.plkPort port.val).replay = a ++ x :: b → x.seq = k.ack → (∀ y ∈ a, y.seq ≠ k.ack) →
        (t.plkPort port.val).replay = b) ∧
      ((∀ y ∈ (s.plkPort port.val).replay, y.seq ≠ k.ack) → (t.plkPort port.val).replay = (s.plkPort port.val).replay) ∧
      (∀ i, i < 8 → let now := (k.credits[i]?).elim 0 (fun b => b.toNat)
        (t.plkPort port.val).lastCredit[i]? = some now ∧
        (t.plkPort port.val).credit[i]? = some (((s.plkPort port.val).credit[i]?).getD 0 +
          (now + 256 - ((s.plkPort port.val).lastCredit[i]?).getD 0) % 256)) ∧
      t.get (rxCount s port k).1 = (rxCount s port k).2 ∧
      t = { s with plk := { s.plk with ports := t.plk.ports }, regs := t.regs } ∧ RegsBut [F.plkRxFlits port.val] s t) ∧
  (∀ (s : State) (port : Fin 8) (k : Packet) (a b : List Packet), Hears s port k 5 → s.plkState port.val = 3 →
    (s.plkPort port.val).replay = a ++ b → (∃ x l, b = x :: l ∧ x.seq = k.ack) → (∀ y ∈ a, y.seq ≠ k.ack) →
    (∀ y ∈ b, y.seq.toNat ≠ (k.ack.toNat + 4095) % 4096) → (∀ n, (s.plkPort port.val).nak = some (k.ack.toNat, n) → n < 15) →
    ∃ t l, exec (.plkNak port k) s = .next t ∧ t.out = s.out ++ l.map (fun x => Out.packet port.val x) ∧
      l = (b.zip l).map (fun e => { e.1 with ack := e.2.ack, credits := e.2.credits, crc := e.2.crc }) ∧ l.length = b.length ∧
      t.get (F.plkRetries port.val) = min (s.get (F.plkRetries port.val) + b.length) (2 ^ (F.plkRetries port.val).width - 1) ∧
      (t.plkPort port.val).nak = some (k.ack.toNat,
        match (s.plkPort port.val).nak with | some (q, n) => if q = k.ack.toNat then n + 1 else 1 | none => 1) ∧
      t = { s with plk := { s.plk with ports := t.plk.ports }, out := t.out, regs := t.regs } ∧
      RegsBut ([F.plkRxFlits port.val, F.plkRetries port.val] ++ linkRegs) s t) ∧
  (∀ (s : State) (port : Fin 8) (k : Packet), Hears s port k 5 → s.plkUp port.val = true → Unloaded s → s.rays = [] →
    (s.plkPort port.val).nak = some (k.ack.toNat, 15) → MayFence s (.plk port) → ∃ t, exec (.plkNak port k) s = .next t ∧
      t.plkState port.val = 4 ∧ t.get F.plkEventLost = 1 ∧ t.inSeq (.plk port) = true) ∧
  (∀ (s : State) (port : Fin 8) (k : Packet), s.canonical = true → s.plkHears port.val = true → port.val < s.plk.ports.length →
    (s.plkPort port.val).queue = [] → s.plkState port.val = 3 → linkType k.typ.toNat = false →
    (packetGood k = false ∨ k.seq.toNat ≠ (s.plkPort port.val).rxSeq) → ∃ t, exec (.plkCrcErr port k) s = .next t ∧
      t.get (F.plkCrcErr port.val) = min (s.get (F.plkCrcErr port.val) + 1) (2 ^ (F.plkCrcErr port.val).width - 1) ∧
      t.get F.rasCorrCount = min (s.get F.rasCorrCount + 1) (2 ^ F.rasCorrCount.width - 1) ∧ (t.get F.rasStatusClassSeen).testBit 0 = true ∧
      (t.plkPort port.val).rxSeq = (s.plkPort port.val).rxSeq ∧ (t.plkPort port.val).nakSent = true ∧
      ((s.plkPort port.val).nakSent = true → t.out = s.out) ∧
      ((s.plkPort port.val).nakSent = false → ∃ x, t.out = s.out ++ [.packet port.val x] ∧ x.typ.toNat = 5 ∧
        x.ack = BitVec.ofNat 12 (s.plkPort port.val).rxSeq ∧ x.crc = BitVec.ofNat 32 (packetCrc x)) ∧
      t = { s with plk := { s.plk with ports := t.plk.ports }, mgmt := t.mgmt, out := t.out, regs := t.regs } ∧
      RegsBut ([F.plkRxFlits port.val, F.plkCrcErr port.val, F.rasCorrCount, F.rasStatusClassSeen] ++ linkRegs) s t) ∧
  (∀ (s : State) (port : Fin 8) (k : Packet), Hears s port k k.typ.toNat → listedType k.typ.toNat = false → s.plkState port.val = 3 →
    k.seq.toNat = (s.plkPort port.val).rxSeq → ∃ t, exec (.plkUnknownType port k) s = .next t ∧ Heard s t port k ∧
      t.get (F.plkDiscards port.val) = min (s.get (F.plkDiscards port.val) + 1) (2 ^ (F.plkDiscards port.val).width - 1) ∧
      t = { s with plk := { s.plk with ports := t.plk.ports }, regs := t.regs } ∧
      RegsBut [F.plkRxFlits port.val, F.plkDiscards port.val] s t) ∧
  (∀ (s : State) (port : Fin 8), port.val < s.integ.plkPorts →
    exec (.laneUpChange port false) s =
      .next { s with plk := { s.plk with laneDown := s.plk.laneDown.filter (fun x => x != port.val) ++ [port.val] } }) ∧
  (∀ (s : State) (port : Fin 8), port.val < s.integ.plkPorts → (s.plkPort port.val).queue = [] →
    exec (.laneUpChange port true) s =
      .next { s with plk := { s.plk with laneDown := s.plk.laneDown.filter (fun x => x != port.val) } }) ∧
  (∀ (s : State) (port : Fin 8) (x : TxPacket), s.canonical = true → port.val < s.plk.ports.length → s.plkUp port.val = true →
    s.resetting = none → (s.plkPort port.val).queue = [x] → (s.plkPort port.val).hasCredit x.pkt = true →
    (s.plkPort port.val).hasReplay x.pkt = true → ∃ t k, exec (.laneUpChange port true) s = .next t ∧
      t.out = s.out ++ [.packet port.val k] ∧ k.seq = BitVec.ofNat 12 (s.plkPort port.val).txSeq ∧
      k = { x.pkt with seq := k.seq, ack := k.ack, credits := k.credits, crc := k.crc } ∧ (t.plkPort port.val).queue = [])

/-- A packet that an UP port accepts for another node goes on, with HOPS raised by 1 and all else as it came, on the port of the routing table;
where none is to be had, or HOPS would pass HOP_LIMIT, it is discarded and counted, and a request that is not MGMT is answered with
UNREACHABLE. -/
def Sys2Proof.Claims.ForwardingResults : Prop :=
  (∀ e ∈ sequenced, ∀ (s : State) (port : Fin 8) (k : Packet) (q : Nat), Accepts s port k e.1 → k.dst.toNat ≠ s.get F.plkNode →
    k.hops.toNat + 1 ≤ s.get F.plkCfgHopLimit → OpenPath s k.dst.toNat q → ∃ t x, exec (e.2 port k) s = .next t ∧ Heard s t port k ∧
      t.out = s.out ++ [.packet q x] ∧
      x = { k with hops := BitVec.ofNat 8 (k.hops.toNat + 1), seq := x.seq, ack := x.ack, credits := x.credits, crc := x.crc } ∧
      t = { s with plk := { s.plk with ports := t.plk.ports }, out := t.out, regs := t.regs } ∧
      RegsBut (F.plkRxFlits port.val :: linkRegs) s t) ∧
  (∀ e ∈ sequenced, ∀ (s : State) (port : Fin 8) (k : Packet), Accepts s port k e.1 → k.dst.toNat ≠ s.get F.plkNode →
    (s.get F.plkCfgHopLimit < k.hops.toNat + 1 ∨ s.routePort k.dst.toNat = none) → (k.rsp = true ∨ k.cls = 0) →
    ∃ t, exec (e.2 port k) s = .next t ∧ Heard s t port k ∧ t.get F.plkEventUnreach = 1 ∧ t.out = s.out ∧
      t.get F.plkUnreach = min (s.get F.plkUnreach + 1) (2 ^ F.plkUnreach.width - 1) ∧
      t = { s with plk := { s.plk with ports := t.plk.ports }, regs := t.regs }) ∧
  (∀ e ∈ sequenced, ∀ (s : State) (port : Fin 8) (k : Packet) (q : Nat), Accepts s port k e.1 → k.dst.toNat ≠ s.get F.plkNode →
    (s.get F.plkCfgHopLimit < k.hops.toNat + 1 ∨ s.routePort k.dst.toNat = none) → k.rsp = false → k.cls ≠ 0 →
    k.src.toNat ≠ s.get F.plkNode → OpenPath s k.src.toNat q → ∃ t, exec (e.2 port k) s = .next t ∧ Heard s t port k ∧
      t.get F.plkEventUnreach = 1 ∧ t.get F.plkUnreach = min (s.get F.plkUnreach + 1) (2 ^ F.plkUnreach.width - 1) ∧
      Sends s t q 0x15 k.src.toNat k.arg.toNat (fun b => b = packetHead k k.hops.toNat k.crc.toNat))

/-- The peer link's ports: their states, retry and credits, and the packets that pass through. The model's choices in it are log entries 70
and 71. -/
def Obligations.PeerLinkResults : Prop :=
  Sys2Proof.Claims.LinkStateResults ∧ Sys2Proof.Claims.LinkRetryResults ∧ Sys2Proof.Claims.ForwardingResults

namespace Sys2Proof.Claims

/-- A field of a packet's payload. -/
def part (k : Packet) (o n : Nat) : Nat := leVal ((k.payload.drop o).take n)

/-- A RAY or QUERY for this engine whose pair is known, under the same image, with a segment free for it (R731, R258): `p` is the pair, `g` its
stage, `d` its copy of the descriptor. -/
structure Guest (s : State) (port : Fin 8) (k : Packet) (query : Bool) (p : GuestPair) (g : Stage) (d : List Byte) : Prop where
  consumes : Consumes s port k (if query then 0x13 else 0x10)
  fresh : k.len.toNat = 3 ∧ 0 < s.segFree ∧ ∀ r ∈ s.rays, r.id ≠ s.nextRay
  image : ∃ im, s.active = some im ∧ im.id % 2 ^ 32 = part k 12 4
  pair : s.pair (pairKey (part k 0 2 % 4096) (part k 2 2) query) = some p
  apart : s.disp p.key = none
  stage : s.stageFor p.key p.stage = some g
  descriptor : d = if query then p.ksDesc else p.asDesc

/-- This engine's own item that has gone to a peer and that ARG names (R734): the one such ray. -/
structure Awaits (s : State) (r : Ray) (query : Bool) (arg : Nat) : Prop where
  found : r ∈ s.rays ∧ r.loc = .remote ∧ r.guest = none ∧ r.query = query ∧ guestArg r.disp r.item r.gen = arg % 2 ^ 56
  only : ∀ x ∈ s.rays, (x.id = r.id ∨ (x.loc = .remote ∧ x.query = query)) → x = r
  settled : ∀ x ∈ s.rays, x.loc ≠ .ended

/-- The access that an RREAD asks for. -/
def servedAccess (k : Packet) : Access := .served k.src (BitVec.ofNat 32 (part k 9 4)) k.cls

/-- No item of this engine's own that has gone to a peer is named by ARG. -/
def Unknown (s : State) (query : Bool) (arg : Nat) : Prop :=
  ∀ r ∈ s.rays, r.loc = .remote → r.guest = none → r.query = query → guestArg r.disp r.item r.gen ≠ arg % 2 ^ 56

end Sys2Proof.Claims

/-- A RAY or QUERY for this node is filed as a guest item under the treelet of ROOT and acknowledged to its sender; one of another descriptor
generation ends at once with FAIL_ABORT, and one whose guest table entry or descriptor was answered with ABORT with FAIL_PAGE, and its record
goes to its origin; the first RAY of an origin and handle has the descriptor read that the guest table names; a packet for which there is no room, or
whose reads cannot be made, waits.  RAY_ACK frees the sender's entry of a guest item.  HIT and
QRES end the item at its origin, or, naming none that is awaited, are counted in PLK_DUP_DROP.  UNREACHABLE ends the item with FAIL_LINK. -/
def Sys2Proof.Claims.PeerItemResults : Prop :=
  (∀ (query : Bool) (s : State) (port : Fin 8) (k : Packet) (p : GuestPair) (g : Stage) (d : List Byte) (q : Nat), Guest s port k query p g d →
    part k 16 4 = descGen d → p.dead = [] → p.gone = false → s.ttReach p.key d (refTreelet (descRoot d)) = true → s.noCluster g = false →
      ttRemote (s.ttEntry d (refTreelet (descRoot d))) = false →
    OpenPath s k.src.toNat q → ∃ t r, exec (if query then .plkQuery port k else .plkRay port k) s = .next t ∧ Heard s t port k ∧
      r ∈ t.rays ∧ r.id = s.nextRay ∧ t.nextRay = s.nextRay + 1 ∧ r.disp = p.key ∧ r.stage = p.stage ∧ r.query = query ∧ r.item = part k 4 4 ∧
      r.cls = part k 10 1 % 4 ∧ r.rcd = (k.payload.drop 32).take 64 ∧ r.treelet = refTreelet (descRoot d) ∧ r.started = false ∧
      (∃ x, r.guest = some x ∧ x.origin = part k 0 2 % 4096 ∧ x.handle = part k 2 2 ∧ x.gen = part k 8 1) ∧
      ((r.loc = .queued ∧ ∃ y ∈ t.tqs, y.disp = p.key ∧ y.query = query ∧ y.treelet = r.treelet ∧
          ∃ h x, y.segs.getLast? = some h ∧ h.entries.getLast? = some x ∧ x.ray = s.nextRay ∧ x.st = 0) ∨
        (r.loc = .overflow ∧ t.overflow = s.overflow ++ [s.nextRay])) ∧
      Sends s t q 0x11 k.src.toNat (guestArg (part k 2 2) (part k 4 4) (part k 8 1)) (fun b => b = []) ∧ t.mem = s.mem ∧ t.disps = s.disps) ∧
  (∀ (s : State) (port : Fin 8) (k : Packet) (p : GuestPair) (g : Stage) (d : List Byte) (q : Nat), Guest s port k false p g d →
    (p.gone = true ∨ part k 16 4 ≠ descGen d) → part k 0 2 % 4096 ≠ s.get F.plkNode → s.overflow = [] → OpenPath s (part k 0 2 % 4096) q →
    ∃ t, exec (.plkRay port k) s = .next t ∧ Heard s t port k ∧ t.rays = s.rays ∧
      Sends s t q 0x12 (part k 0 2 % 4096) (guestArg (part k 2 2) (part k 4 4) (part k 8 1))
        (fun b => recByte b 23 = if p.gone = true then 3 else 7)) ∧
  (∀ (s : State) (port : Fin 8) (k : Packet), let key := pairKey (part k 0 2 % 4096) (part k 2 2) false
    let a := 64 * s.get F.plkGuestBaseLo + 2 ^ 32 * s.get F.plkGuestBaseHi + 16 * part k 9 1
    Consumes s port k 0x10 → k.len.toNat = 3 → s.pair key = none → s.guestRoom false k = true → s.plk.aborted = [] → part k 0 2 % 4096 ≠ s.get F.plkNode →
    ∃ t p, exec (.plkRay port k) s = .next t ∧ Heard s t port k ∧ p ∈ t.plk.pairs ∧ p.key = key ∧ p.gone = false ∧ p.chain = part k 9 1 ∧
      p.asAddr = leAt s.mem a 8 ∧ p.asDesc = bytesAt s.mem (leAt s.mem a 8) 64 ∧ t.mem = s.mem) ∧
  (∀ (query : Bool) (s : State) (port : Fin 8) (k : Packet), k.typ.toNat = (if query then 0x13 else 0x10) → s.guestRoom query k = false →
    Stays (if query then .plkQuery port k else .plkRay port k) s) ∧
  (∀ (s : State) (port : Fin 8) (k : Packet) (r : Ray) (g : GuestItem), Consumes s port k 0x11 → r ∈ s.rays → r.loc = .remote →
    r.guest = some g → guestArg g.handle r.item g.gen = k.arg.toNat % 2 ^ 56 → s.awayNode r = some k.src.toNat →
    (∀ x ∈ s.rays, x.loc = .remote → x.guest ≠ none → x = r) → s.overflow = [] → ∃ t, exec (.plkRayAck port k) s = .next t ∧ Heard s t port k ∧
      t.rays = s.rays.filter (fun x => x.id != r.id)) ∧
  (∀ (s : State) (port : Fin 8) (k : Packet), Consumes s port k 0x11 → (∀ r ∈ s.rays, r.guest = none) →
    ∃ t, exec (.plkRayAck port k) s = .next t ∧ HeardOnly s t port k) ∧
  (∀ (s : State) (port : Fin 8) (k : Packet) (r : Ray) (d : Dispatch), Consumes s port k 0x12 → Awaits s r false k.arg.toNat → LastOut s r d →
    FinalStage s r → ∃ t, exec (.plkHit port k) s = .next t ∧ Heard s t port k ∧
      (part k 23 1 < 2 → ItemEnds s t r.disp r.item) ∧ (2 ≤ part k 23 1 → ItemFails s t r.disp r.item)) ∧
  (∀ (s : State) (port : Fin 8) (k : Packet) (r : Ray) (d : Dispatch) (g : Stage), Consumes s port k 0x14 → Awaits s r true k.arg.toNat →
    LastOut s r d → FinalStage s r → s.rayStage r = some g → (s.qryOf g).output ≠ 1 → 32 ≤ k.payload.length → part k 13 1 = 0 →
    ∃ t, exec (.plkQres port k) s = .next t ∧ Heard s t port k ∧ ItemEnds s t r.disp r.item ∧
      bytesAt t.mem (leVal ((d.param.drop 8).take 8) + 32 * r.item) 32 = k.payload.take 32) ∧
  (∀ e ∈ ([(0x12, false, .plkHit), (0x14, true, .plkQres)] : List (Nat × Bool × (Fin 8 → Packet → Instr))), ∀ (s : State) (port : Fin 8) (k : Packet),
    Consumes s port k e.1 → Unknown s e.2.1 k.arg.toNat → ∃ t, exec (e.2.2 port k) s = .next t ∧ Heard s t port k ∧
      t.get F.plkDupDrop = min (s.get F.plkDupDrop + 1) (2 ^ F.plkDupDrop.width - 1) ∧
      t = { s with plk := { s.plk with ports := t.plk.ports }, regs := t.regs } ∧ RegsBut [F.plkRxFlits port.val, F.plkDupDrop] s t) ∧
  (∀ (s : State) (port : Fin 8) (k : Packet) (r : Ray) (d : Dispatch), Consumes s port k 0x15 → part k 0 1 = 0x10 →
    Awaits s r false k.arg.toNat → LastOut s r d → FinalStage s r → ∃ t, exec (.plkUnreachable port k) s = .next t ∧ Heard s t port k ∧
      ItemFails s t r.disp r.item) ∧
  (∀ (s : State) (port : Fin 8) (k : Packet), Consumes s port k 0x15 → part k 0 1 ≠ 0x10 → part k 0 1 ≠ 0x13 → part k 0 1 ≠ 0x20 →
    ∃ t, exec (.plkUnreachable port k) s = .next t ∧ HeardOnly s t port k)

/-- RREAD is answered with RDATA: the bytes of memory, or the status of an aborted or uncorrectable read; one whose read waits on a fault record
waits itself, and is answered with status 1 once an owner has answered with ABORT.  RDATA with status 0 brings its bytes
to the read that waits for it, which is then no longer outstanding; one that no read waits for is dropped. -/
def Sys2Proof.Claims.RemoteWindowResults : Prop :=
  (∀ (s : State) (port : Fin 8) (k : Packet) (q : Nat), Consumes s port k 0x20 → OpenPath s k.src.toNat q → part k 8 1 < 20 →
    s.readable (servedAccess k) (part k 0 8) (64 * (part k 8 1 + 1)) .ok = true → servedAccess k ∉ s.plk.aborted →
    ∃ t, exec (.plkRread port k .ok) s = .next t ∧ Heard s t port k ∧
      Sends s t q 0x21 k.src.toNat (part k 9 4) (fun b => b = bytesAt s.mem (part k 0 8) (64 * (part k 8 1 + 1))) ∧ SameEntries s t ∧
      t = { moved s t with plk := { s.plk with ports := t.plk.ports }, out := t.out } ∧
      t.hot = s.hot ∧ t.hotFifo = s.hotFifo ∧ RegsBut (F.plkRxFlits port.val :: linkRegs ++ accessRegs) s t) ∧
  (∀ (s : State) (port : Fin 8) (k : Packet) (q : Nat), Consumes s port k 0x20 → OpenPath s k.src.toNat q → s.waits (servedAccess k) = false →
    ∃ t, exec (.plkRread port k .abort) s = .next t ∧ Heard s t port k ∧ Sends s t q 0x21 k.src.toNat (part k 9 4 + 2 ^ 32) (fun b => b = [])) ∧
  (∀ (s : State) (port : Fin 8) (k : Packet) (q : Nat) (o : ReadOutcome), Consumes s port k 0x20 → OpenPath s k.src.toNat q →
    s.waits (servedAccess k) = false → servedAccess k ∈ s.plk.aborted → ∃ t, exec (.plkRread port k o) s = .next t ∧ Heard s t port k ∧
      Sends s t q 0x21 k.src.toNat (part k 9 4 + 2 ^ 32) (fun b => b = []) ∧ t.plk.aborted = s.plk.aborted.filter (fun x => x != servedAccess k)) ∧
  (∀ (s : State) (port : Fin 8) (k : Packet) (q : Nat), Consumes s port k 0x20 → OpenPath s k.src.toNat q → part k 8 1 < 20 →
    s.readable (servedAccess k) (part k 0 8) (64 * (part k 8 1 + 1)) .unc = true → servedAccess k ∉ s.plk.aborted →
    ∃ t, exec (.plkRread port k .unc) s = .next t ∧ Heard s t port k ∧ Sends s t q 0x21 k.src.toNat (part k 9 4 + 2 ^ 33) (fun b => b = []) ∧
      (t.get F.rasStatusClassSeen).testBit 1 = true) ∧
  (∀ (s : State) (port : Fin 8) (k : Packet) (o : ReadOutcome), k.dst.toNat = s.get F.plkNode → s.waits (servedAccess k) = true →
    Stays (.plkRread port k o) s) ∧
  (∀ (s : State) (port : Fin 8) (k : Packet) (x : RRead), Consumes s port k 0x21 → x ∈ s.plk.rreads →
    (∀ y ∈ s.plk.rreads, y.tag = x.tag → y = x) → k.arg.toNat % 2 ^ 32 = x.tag → k.arg.toNat / 2 ^ 32 % 256 = 0 →
    64 * x.sectors ≤ k.payload.length → ∃ t, exec (.plkRdata port k) s = .next t ∧ Heard s t port k ∧
      bytesAt t.plk.data x.addr (64 * x.sectors) = k.payload.take (64 * x.sectors) ∧
      (∀ a, (a < x.addr ∨ x.addr + 64 * x.sectors ≤ a) → byteAt t.plk.data a = byteAt s.plk.data a) ∧
      t.plk.rreads = s.plk.rreads.filter (fun y => y.tag != x.tag) ∧ t = { s with plk := t.plk, regs := t.regs } ∧
      RegsBut [F.plkRxFlits port.val] s t) ∧
  (∀ (s : State) (port : Fin 8) (k : Packet), Consumes s port k 0x21 → (∀ x ∈ s.plk.rreads, x.tag ≠ k.arg.toNat % 2 ^ 32) →
    ∃ t, exec (.plkRdata port k) s = .next t ∧ HeardOnly s t port k)

/-- The loss of a partner: its port is LOST and its fence sequence begins, LINK_LOSS is captured with the node, the node is marked lost and the
others are told.  NODE_LOST marks the node it names.  This engine's ray away from a lost HOME ends with FAIL_LINK, and any other is sent
again with a raised generation. -/
def Sys2Proof.Claims.PeerLossResults : Prop :=
  (∀ (s : State) (port : Fin 8), s.plkUp port.val = true → port.val < s.plk.ports.length → (s.plkPort port.val).queue = [] → Unloaded s →
    s.rays = [] → MayFence s (.plk port) → ∃ t l, let node := s.get (F.plkPortPartner port.val)
      exec (.partnerLost port) s = .next t ∧ t.plkState port.val = 4 ∧ t.get F.plkEventLost = 1 ∧ Captured t 7 (some (.plk port)) node ∧
      t.plkPort port.val = PlkPort.init ∧ t.inSeq (.plk port) = true ∧ WindowOpen t ∧ node ∈ t.plk.lost ∧ t.get F.plkLostNode = node ∧
      (node ∉ s.plk.lost → t.plk.subscribers = s.plk.subscribers.filter (fun n => n != node)) ∧ t.out = s.out ++ l ∧
      ∀ m q, m < 4096 → s.routed m = true → m ≠ s.get F.plkNode → m ≠ node → OpenPath s m q → q ≠ port.val →
        (∀ n, n < 4096 → s.routed n = true → n = m ∨ n = node ∨ n = s.get F.plkNode) →
        ∃ x, Out.packet q x ∈ l ∧ x.typ.toNat = 0x44 ∧ x.dst.toNat = m ∧ x.arg.toNat = node) ∧
  (∀ (s : State) (port : Fin 8), s.plkUp port.val = false → Stays (.partnerLost port) s) ∧
  (∀ (s : State) (port : Fin 8) (k : Packet), Consumes s port k 0x44 → Unloaded s → s.rays = [] → ∃ t, let node := k.arg.toNat % 4096
    exec (.plkNodeLost port k) s = .next t ∧ Heard s t port k ∧ t.get F.plkEventNotice = 1 ∧ t.get F.plkLostNode = node ∧
    t.plk.lost = (if node ∈ s.plk.lost then s.plk.lost else s.plk.lost ++ [node]) ∧ t.out = s.out ∧
    (node ∉ s.plk.lost → t.plk.subscribers = s.plk.subscribers.filter (fun n => n != node))) ∧
  (∀ (s : State) (port : Fin 8) (k : Packet) (r : Ray) (d : Dispatch), Consumes s port k 0x44 → AwayRay s r (k.arg.toNat % 4096) → LastOut s r d →
    FinalStage s r → k.arg.toNat % 4096 ∉ s.plk.lost → ∃ t, exec (.plkNodeLost port k) s = .next t ∧ ItemFails s t r.disp r.item) ∧
  (∀ (s : State) (port : Fin 8) (k : Packet) (r : Ray) (n q : Nat), Consumes s port k 0x44 → AwayRay s r n → n ≠ k.arg.toNat % 4096 →
    k.arg.toNat % 4096 ∉ s.plk.lost → n ∉ s.plk.lost → OpenPath s n q → ∃ t, exec (.plkNodeLost port k) s = .next t ∧ SentAgain s t r n q)

/-- Guest items, final records, window reads and the loss of a peer. The model's choices in it are log entries 72, 73, 74, 84 and 95. -/
def Obligations.PeerItemAndLossResults : Prop :=
  Sys2Proof.Claims.PeerItemResults ∧ Sys2Proof.Claims.RemoteWindowResults ∧ Sys2Proof.Claims.PeerLossResults

namespace Sys2Proof.Claims

/-- Schedule entry `i` is enabled and its chain of the active image has TRIGGER 2 (peer event) with the argument `n` (R126). -/
def PeerEntry (s : State) (n i : Nat) : Prop :=
  (s.get F.schedEn).testBit i = true ∧ ∃ im c, s.active = some im ∧ im.chains[leAt s.mem (s.get2 F.schedBaseLo F.schedBaseHi + 64 * i) 2]? = some c ∧
    c.trigger = 2 ∧ c.triggerArg = n

/-- An event has fired in this engine: each of its entries waits to be read, or is merged where a firing of it waits or no firmware runs, and
no other entry is touched (R126, R129). -/
def EventFired (s t : State) (n : Nat) : Prop :=
  (∀ i, i < 32 → PeerEntry s n i → ¬FiringWaits s i → s.mgmt.down = false → s.mgmt.running ≠ none → i ∈ t.schedWait) ∧
  (∀ i, i < 32 → PeerEntry s n i → (FiringWaits s i ∨ s.mgmt.down = true ∨ s.mgmt.running = none) → (t.get F.schedOvr).testBit i = true) ∧
  (∀ i, i ∈ t.schedWait → i ∈ s.schedWait ∨ (i < 32 ∧ PeerEntry s n i)) ∧
  (∀ i, ¬PeerEntry s n i → (t.get F.schedOvr).testBit i = (s.get F.schedOvr).testBit i)

/-- The fetch of the model's tiles that this engine lacks: it takes the model by multicast no more, and every place of it is held. -/
def FetchesModel (s t : State) (im : Image) (model : Nat) : Prop :=
  t.plk.mcast = s.plk.mcast.filter (fun m => m.model != model) ∧ (∀ h, h < 2 → ∀ p ∈ im.placesOf h model, t.placeHeld h p = true) ∧
  (∀ h p, s.placeHeld h p = true → t.placeHeld h p = true) ∧ t.mem = s.mem ∧ t.out = s.out

end Sys2Proof.Claims

/-- MC_REQ of another image, or of a model without resident tiles here, is answered with MC_NAK; until the source holds every tile the member
waits, and then every part of every tile is sent to it or stands queued.  MC_TILE writes its 256 bytes into the place that ARG names, and the
place is held once its last part is in.  MC_NAK and MC_TIMEOUT have the member fetch what it lacks. -/
def Sys2Proof.Claims.MulticastResults : Prop :=
  (∀ (s : State) (port : Fin 8) (k : Packet) (q : Nat), Consumes s port k 0x30 → OpenPath s k.src.toNat q →
    (∀ im, s.active = some im → k.arg.toNat % 2 ^ 32 ≠ im.id % 2 ^ 32 ∨ ∀ h, h < 2 → im.placesOf h (k.arg.toNat / 2 ^ 32 % 65536) = []) →
    ∃ t, exec (.plkMcReq port k) s = .next t ∧ Heard s t port k ∧ Sends s t q 0x32 k.src.toNat k.arg.toNat (fun b => b = [])) ∧
  (∀ (s : State) (port : Fin 8) (k : Packet) (im : Image), Consumes s port k 0x30 → s.active = some im → k.arg.toNat % 2 ^ 32 = im.id % 2 ^ 32 →
    (∃ h p, h < 2 ∧ p ∈ im.placesOf h (k.arg.toNat / 2 ^ 32 % 65536) ∧ s.placeHeld h p = false) → s.plk.mcWait = [] →
    ∃ t, exec (.plkMcReq port k) s = .next t ∧ Heard s t port k ∧ t.plk.mcWait = [(k.arg.toNat / 2 ^ 32 % 65536, [k.src.toNat])] ∧ t.out = s.out) ∧
  (∀ (s : State) (port : Fin 8) (k : Packet) (im : Image) (q h p : Nat) (w : WStore), Consumes s port k 0x30 → OpenPath s k.src.toNat q →
    s.active = some im → k.arg.toNat % 2 ^ 32 = im.id % 2 ^ 32 → s.plk.mcWait = [] → h < 2 → p < 4096 → s.ws[h]? = some w →
    im.placesOf h (k.arg.toNat / 2 ^ 32 % 65536) = [p] → im.placesOf (1 - h) (k.arg.toNat / 2 ^ 32 % 65536) = [] → s.placeHeld h p = true →
    ∃ t l, exec (.plkMcReq port k) s = .next t ∧ Heard s t port k ∧ t.plk.mcWait = [] ∧ t.out = s.out ++ l ∧
      ∀ i, i < 256 → ∃ x : Packet, (Out.packet q x ∈ l ∨ ∃ y ∈ (t.plkPort q).queue, y.pkt = x) ∧ x.typ.toNat = 0x31 ∧ x.dst = k.src ∧
        x.arg.toNat = im.id % 2 ^ 32 + 2 ^ 32 * p + 2 ^ 44 * h + 2 ^ 45 * i ∧ x.payload = bytesAt w.bytes (p * 65536 + 256 * i) 256) ∧
  (∀ (s : State) (port : Fin 8) (k : Packet) (im : Image) (h p i : Nat) (w : WStore), Consumes s port k 0x31 → s.active = some im →
    k.arg.toNat % 2 ^ 32 = im.id % 2 ^ 32 → k.payload.length = 256 → p = k.arg.toNat / 2 ^ 32 % 4096 → h = k.arg.toNat / 2 ^ 44 % 2 →
    i = k.arg.toNat / 2 ^ 45 % 256 → s.ws[h]? = some w → ∃ t x, exec (.plkMcTile port k) s = .next t ∧ Heard s t port k ∧
      t.ws[h]? = some x ∧ t.ws[1 - h]? = s.ws[1 - h]? ∧ bytesAt x.bytes (p * 65536 + 256 * i) 256 = k.payload ∧
      (∀ a, (a < p * 65536 + 256 * i ∨ p * 65536 + 256 * i + 256 ≤ a) → byteAt x.bytes a = byteAt w.bytes a) ∧
      (∀ m, s.plk.mcast = [m] → p ∈ im.placesOf h m.model → m.parts.Nodup → (∀ y ∈ m.parts, y.2.2 < 256) →
        (∀ j, j < 256 → j ≠ i → (h, p, j) ∈ m.parts) → t.placeHeld h p = true) ∧
      (∀ m, s.plk.mcast = [m] → m.parts = [] → x.arrived = w.arrived) ∧
      t = { s with plk := t.plk, ws := t.ws, regs := t.regs } ∧ RegsBut [F.plkRxFlits port.val] s t) ∧
  (∀ (s : State) (port : Fin 8) (k : Packet) (im : Image), Consumes s port k 0x32 → s.active = some im →
    (∃ m ∈ s.plk.mcast, m.model = k.arg.toNat / 2 ^ 32 % 65536) → ∃ t, exec (.plkMcNak port k) s = .next t ∧ Heard s t port k ∧
      FetchesModel s t im (k.arg.toNat / 2 ^ 32 % 65536)) ∧
  (∀ (s : State) (im : Image) (model : Nat), s.canonical = true → s.active = some im → (∃ m ∈ s.plk.mcast, m.model = model) →
    ∃ t, exec (.mcTimeout model) s = .next t ∧ FetchesModel s t im model ∧ RegsBut accessRegs s t) ∧
  (∀ (s : State) (model : Nat), (∀ m ∈ s.plk.mcast, m.model ≠ model) → Stays (.mcTimeout model) s)

/-- A received EVENT fires the entries that name it and wakes the engine from NAP where PEER is enabled.  PLK_EVT_SEND sends an EVENT to the
node named, to every routed node under ALL, and fires it here where this engine is named.  TELEM_REQ is answered with the record; TELEM is
only received; SUBSCRIBE adds or removes its sender among at most 8. -/
def Sys2Proof.Claims.EventAndTelemetryResults : Prop :=
  (∀ (s : State) (port : Fin 8) (k : Packet), Consumes s port k 0x40 → ∃ t, exec (.plkEvent port k) s = .next t ∧ Heard s t port k ∧
    EventFired s t (k.arg.toNat % 256) ∧
    t = { s with schedWait := t.schedWait, plk := { s.plk with ports := t.plk.ports }, mgmt := t.mgmt, regs := t.regs } ∧
    RegsBut [F.plkRxFlits port.val, F.schedOvr, F.schedOvrCount, F.mbEventLogDrop] s t) ∧
  (∀ (s : State) (port : Fin 8) (k : Packet), Hears s port k 0x40 → s.plkState port.val = 3 → k.seq.toNat = (s.plkPort port.val).rxSeq →
    k.dst.toNat = s.get F.plkNode → s.get F.cpLpStatusState = 2 → s.get F.cpLpCtrlPeer = 1 →
    ∃ t, exec (.plkEvent port k) s = .next t ∧ t.get F.cpLpStatusState = 4 ∧ t.get F.cpLpStatusLastWake = 4 ∧ t.get F.cpLpCtrlReq = 0) ∧
  (∀ (s : State) (m : Master) (v : Word) (q : Nat), let node := v.toNat / 65536 % 4096
    Takes s m 0x44040 → v.getLsbD 31 = false → node ≠ s.get F.plkNode → OpenPath s node q → ∃ t, exec (.plkEvtSend m v) s = .next t ∧
      Sends s t q 0x40 node (v.toNat % 256) (fun b => b = []) ∧
      t = { s with plk := { s.plk with ports := t.plk.ports }, out := t.out, regs := t.regs } ∧ RegsBut linkRegs s t) ∧
  (∀ (s : State) (m : Master) (v : Word), Takes s m 0x44040 → v.getLsbD 31 = false → v.toNat / 65536 % 4096 = s.get F.plkNode →
    ∃ t, exec (.plkEvtSend m v) s = .next t ∧ EventFired s t (v.toNat % 256) ∧ t.out = s.out) ∧
  (∀ (s : State) (m : Master) (v : Word), Takes s m 0x44040 → v.getLsbD 31 = true → ∃ t l, exec (.plkEvtSend m v) s = .next t ∧ t.out = s.out ++ l ∧
    ∀ n q, n < 4096 → s.routed n = true → n ≠ s.get F.plkNode → OpenPath s n q →
      (∀ o, o < 4096 → o ≠ n → s.routed o = true → s.routePort o ≠ some q) →
      ∃ x, Out.packet q x ∈ l ∧ x.typ.toNat = 0x40 ∧ x.dst.toNat = n ∧ x.arg.toNat = v.toNat % 256) ∧
  (∀ (s : State) (port : Fin 8) (k : Packet) (q : Nat), Consumes s port k 0x41 → s.mgmt.down = false → OpenPath s k.src.toNat q →
    ∃ t, exec (.plkTelemReq port k) s = .next t ∧ Heard s t port k ∧ Sends s t q 0x42 k.src.toNat 0 (fun b => b = s.telemRecord) ∧
      t = { s with plk := { s.plk with ports := t.plk.ports }, mgmt := { s.mgmt with records := s.mgmt.records + 1 }, out := t.out,
                   regs := t.regs } ∧ RegsBut (F.plkRxFlits port.val :: linkRegs) s t) ∧
  (∀ (s : State) (port : Fin 8) (k : Packet), Consumes s port k 0x42 → ∃ t, exec (.plkTelem port k) s = .next t ∧ HeardOnly s t port k) ∧
  (∀ (s : State) (port : Fin 8) (k : Packet), Consumes s port k 0x43 → ∃ t, exec (.plkSubscribe port k) s = .next t ∧ Heard s t port k ∧
    t.plk.subscribers = (if k.arg.toNat % 2 = 0 then s.plk.subscribers.filter (fun n => n != k.src.toNat)
      else if k.src.toNat ∈ s.plk.subscribers ∨ 8 ≤ s.plk.subscribers.length then s.plk.subscribers
      else s.plk.subscribers ++ [k.src.toNat]) ∧
    (k.arg.toNat % 2 = 1 → k.src.toNat ∉ s.plk.subscribers → 8 ≤ s.plk.subscribers.length → t.get F.plkEventSubFull = 1) ∧
    t = { s with plk := { s.plk with ports := t.plk.ports, subscribers := t.plk.subscribers }, regs := t.regs } ∧
    RegsBut [F.plkRxFlits port.val, F.plkEventSubFull] s t)

/-- Weight multicast, events between engines and telemetry. The model's choices in it are log entry 74. -/
def Obligations.MulticastAndEventResults : Prop := Sys2Proof.Claims.MulticastResults ∧ Sys2Proof.Claims.EventAndTelemetryResults
end

