-- ==== Sys2Proof/Laws/Sparse.lean ====
section
/-! SUPPORT. Laws of the sparse lists: what a write, and a clearing, does to every key and to the canonical form. -/

namespace Sys2Proof.Machine

/-! ### Reading after writing -/

/-- A key reads the value just written. -/
theorem sget_sset_same {α : Type} [DecidableEq α] (d : Nat → α) (k : Nat) (v : α) (l : List (Nat × α)) (lo : Option Nat)
    (h : swfFrom d lo l = true) : sget d (sset d l k v) k = v := by
  induction l generalizing lo with
  | nil =>
    unfold sset
    split
    · simp_all [sget]
    · simp [sget]
  | cons e r ih =>
    obtain ⟨k', v'⟩ := e
    simp only [swfFrom, Bool.and_eq_true] at h
    have above : ∀ (r : List (Nat × α)) (b : Nat), swfFrom d (some b) r = true → ∀ j, j ≤ b → sget d r j = d j := by
      intro r
      induction r with
      | nil => intro b _ j _; rfl
      | cons e r ih2 =>
        intro b hb j hj
        obtain ⟨a, w⟩ := e
        simp only [swfFrom, Bool.and_eq_true, decide_eq_true_eq] at hb
        unfold sget
        rw [if_neg (by omega)]
        exact ih2 a hb.2 j (by omega)
    unfold sset
    split
    · rename_i hlt
      split
      · rename_i hv
        unfold sget
        rw [if_neg (by omega), hv]
        exact above r k' h.2 k (by omega)
      · simp [sget]
    · split
      · rename_i he
        subst he
        split
        · rename_i hv
          rw [hv]
          exact above r k' h.2 k' (Nat.le_refl _)
        · simp [sget]
      · rename_i hne
        unfold sget
        rw [if_neg hne]
        exact ih (some k') h.2

/-- Every other key reads as before. -/
theorem sget_sset_other {α : Type} [DecidableEq α] (d : Nat → α) (k j : Nat) (v : α) (l : List (Nat × α)) (h : j ≠ k) :
    sget d (sset d l k v) j = sget d l j := by
  induction l with
  | nil =>
    unfold sset
    split
    · rfl
    · simp [sget, Ne.symm h]
  | cons e r ih =>
    obtain ⟨k', v'⟩ := e
    unfold sset
    split
    · split
      · rfl
      · simp [sget, Ne.symm h]
    · split
      · rename_i he
        subst he
        split
        · simp [sget, Ne.symm h]
        · simp [sget, Ne.symm h]
      · simp only [sget, ih]

/-- A cleared key reads its default, and every other key reads as before. -/
theorem sget_sclear {α : Type} (d : Nat → α) (p : Nat → Bool) (l : List (Nat × α)) (k : Nat) :
    sget d (sclear p l) k = if p k then d k else sget d l k := by
  induction l with
  | nil => simp [sclear, sget]
  | cons e r ih =>
    obtain ⟨a, v⟩ := e
    unfold sclear at ih ⊢
    by_cases q : p a = true
    · rw [List.filter_cons_of_neg (by simp [q]), ih]
      by_cases hk : a = k
      · subst hk; simp [q]
      · simp [sget, hk]
    · rw [List.filter_cons_of_pos (by simp [q])]
      by_cases hk : a = k
      · subst hk; simp [q, sget]
      · simp [sget, hk, ih]

/-! ### The canonical form -/

/-- A write keeps the canonical form. -/
theorem swfFrom_sset {α : Type} [DecidableEq α] (d : Nat → α) (k : Nat) (v : α) (l : List (Nat × α)) (lo : Option Nat)
    (hlo : ∀ b, lo = some b → b < k) (h : swfFrom d lo l = true) : swfFrom d lo (sset d l k v) = true := by
  induction l generalizing lo with
  | nil =>
    unfold sset; split
    · rfl
    · cases lo <;> simp_all [swfFrom]
  | cons e r ih =>
    obtain ⟨k', v'⟩ := e
    unfold sset
    simp only [swfFrom, Bool.and_eq_true] at h
    obtain ⟨⟨h1, h2⟩, h3⟩ := h
    split
    · split
      · simp [swfFrom, h1, h2, h3]
      · cases lo <;> simp_all [swfFrom]
    · split
      · subst k'
        split
        · cases r with
          | nil => rfl
          | cons e' r' =>
            obtain ⟨k2, v2⟩ := e'
            cases lo <;> simp_all [swfFrom]
            omega
        · simp_all [swfFrom]
      · rename_i h4 h5
        simp only [swfFrom, h1, h2, Bool.true_and]
        exact ih (some k') (by intro b hb; cases hb; omega) h3

theorem swf_sset {α : Type} [DecidableEq α] (d : Nat → α) (k : Nat) (v : α) (l : List (Nat × α))
    (h : swf d l = true) : swf d (sset d l k v) = true := swfFrom_sset d k v l none (by simp) h

theorem swfFrom_mono {α : Type} [DecidableEq α] (d : Nat → α) (l : List (Nat × α)) (a b : Option Nat)
    (h : ∀ x, a = some x → ∃ y, b = some y ∧ x ≤ y) (hb : swfFrom d b l = true) : swfFrom d a l = true := by
  cases l with
  | nil => rfl
  | cons e r =>
    obtain ⟨k, v⟩ := e
    simp only [swfFrom, Bool.and_eq_true] at hb ⊢
    refine ⟨⟨?_, hb.1.2⟩, hb.2⟩
    cases a with
    | none => rfl
    | some x =>
      obtain ⟨y, rfl, hxy⟩ := h x rfl
      have := hb.1.1
      simp at this ⊢; omega

theorem swfFrom_filter {α : Type} [DecidableEq α] (d : Nat → α) (f : Nat × α → Bool) (l : List (Nat × α)) (lo : Option Nat)
    (h : swfFrom d lo l = true) : swfFrom d lo (l.filter f) = true := by
  induction l generalizing lo with
  | nil => rfl
  | cons e r ih =>
    obtain ⟨k, v⟩ := e
    simp only [swfFrom, Bool.and_eq_true] at h
    by_cases q : f (k, v) = true
    · simp only [List.filter_cons_of_pos q, swfFrom, h.1.1, h.1.2, ih _ h.2, Bool.and_self]
    · simp only [List.filter_cons_of_neg q]
      refine ih lo (swfFrom_mono d r lo (some k) ?_ h.2)
      rintro x rfl
      have := h.1.1
      simp at this
      exact ⟨k, rfl, by omega⟩

theorem swf_sclear {α : Type} [DecidableEq α] (d : Nat → α) (q : Nat → Bool) (l : List (Nat × α))
    (h : swf d l = true) : swf d (sclear q l) = true := swfFrom_filter d _ l none h

theorem putBytes_wf (m : List Host.Cell) (a : Nat) (bs : List Byte) (h : Memory.wf m = true) : Memory.wf (putBytes m a bs) = true := by
  induction bs generalizing m a with
  | nil => exact h
  | cons b r ih => exact ih _ _ (swf_sset zeroByte a b m h)

theorem copyBytes_wf (src dst : List Host.Cell) (a b n : Nat) (h : Memory.wf dst = true) : Memory.wf (copyBytes src dst a b n) = true := by
  unfold copyBytes
  have step : ∀ (l m : List Host.Cell), Memory.wf m = true →
      Memory.wf (l.foldl (fun m c => putByte m (b + (c.1 - a)) c.2) m) = true := by
    intro l
    induction l with
    | nil => exact fun _ h => h
    | cons c r ih => exact fun m h => ih _ (swf_sset zeroByte _ _ m h)
  exact step _ _ (swf_sclear zeroByte _ _ h)

/-! ### Bytes -/

/-- A byte outside those written reads as before. -/
theorem byteAt_putBytes_other (m : List Host.Cell) (a : Nat) (bs : List Byte) (x : Nat) (h : x < a ∨ a + bs.length ≤ x) :
    byteAt (putBytes m a bs) x = byteAt m x := by
  induction bs generalizing m a with
  | nil => rfl
  | cons b r ih =>
    simp only [List.length_cons] at h
    unfold putBytes
    rw [ih _ _ (by omega)]
    exact sget_sset_other zeroByte a x b m (by omega)

/-- A byte written reads what was written. -/
theorem byteAt_putBytes_same (m : List Host.Cell) (a : Nat) (bs : List Byte) (i : Nat) (hi : i < bs.length) (h : Memory.wf m = true) :
    byteAt (putBytes m a bs) (a + i) = bs[i] := by
  induction bs generalizing m a i with
  | nil => exact absurd hi (Nat.not_lt_zero _)
  | cons b r ih =>
    unfold putBytes
    cases i with
    | zero =>
      rw [byteAt_putBytes_other _ _ _ _ (by omega)]
      exact sget_sset_same zeroByte a b m none h
    | succ i =>
      have := ih (putByte m a b) (a + 1) i (by simpa using hi) (swf_sset zeroByte a b m h)
      rw [show a + (i + 1) = a + 1 + i by omega]
      simpa using this

end Sys2Proof.Machine
end

