-- ==== Sys2Proof/Laws/Keeps.lean ====
section
/-! SUPPORT. What every operation of the engine keeps: the waiting commands, the integration parameters, the canonical form of every
sparse list and the number of units of every kind.  `Keeps p t` says that `t` is reached from `p` without breaking any of them; one
lemma for each operation stands in the files beside this one. -/

namespace Sys2Proof.Machine

/-- A group whose registers are listed in canonical form. -/
def Group.Canon (g : Group) : Prop := swf (fun _ => 0) g.regs = true ∧ g.preds.length = 7 ∧ g.counters.length = 8

/-- The ids of groups are distinct and below the next one to be given. -/
def HandlesOk (l : List Group) (n : Nat) : Prop := (∀ g ∈ l, g.id < n) ∧ (l.map (fun g => g.id)).Nodup

/-- Every sparse list of the state is in canonical form. -/
structure Canon (s : State) : Prop where
  mem : Memory.wf s.mem = true
  sf : Memory.wf s.sf = true
  ts : Memory.wf s.ts = true
  regs : swf regReset s.regs = true
  stores : ∀ l ∈ s.lcs, Memory.wf l.store = true
  groups : ∀ g ∈ s.groups, g.Canon
  clkKhzLen : s.clkKhz.length = 6
  vreqLen : s.vreq.length = 11
  queuesLen : s.queues.length = 4
  schedKLen : s.schedK.length = 32
  hrBufLen : s.hrBuf.length = 4
  lcsLen : s.lcs.length = 16
  ageingLen : s.ageing.length = 14
  sesLen : s.ses.length = 16
  portsLen : s.ports.length = 16
  tlbsLen : s.tlbs.length = 64
  cachesLen : s.caches.length = 32
  quadsLen : s.quads.length = 8
  wsLen : s.ws.length = 2
  handles : HandlesOk s.groups s.nextGroup

/-- What no operation breaks. -/
structure Keeps (p t : State) : Prop where
  pending : t.pending = p.pending
  integ : t.integ = p.integ
  canon : Canon p → Canon t

theorem Keeps.refl (p : State) : Keeps p p := ⟨rfl, rfl, id⟩

theorem Keeps.same {p s t : State} (h : Keeps p s) (h0 : t.pending = s.pending) (h1 : t.integ = s.integ) (h2 : t.mem = s.mem) (h3 : t.sf = s.sf) (h4 : t.ts = s.ts) (h5 : t.regs = s.regs) (h6 : t.groups = s.groups) (h7 : t.clkKhz = s.clkKhz) (h8 : t.vreq = s.vreq) (h9 : t.queues = s.queues) (h10 : t.schedK = s.schedK) (h11 : t.hrBuf = s.hrBuf) (h12 : t.lcs = s.lcs) (h13 : t.ageing = s.ageing) (h14 : t.ses = s.ses) (h15 : t.ports = s.ports) (h16 : t.tlbs = s.tlbs) (h17 : t.caches = s.caches) (h18 : t.quads = s.quads) (h19 : t.ws = s.ws) (h20 : t.nextGroup = s.nextGroup) :
    Keeps p t := by
  refine ⟨h0.trans h.pending, h1.trans h.integ, fun c => ?_⟩
  have k := h.canon c
  exact ⟨h2 ▸ k.mem, h3 ▸ k.sf, h4 ▸ k.ts, h5 ▸ k.regs, h12 ▸ k.stores, h6 ▸ k.groups, h7 ▸ k.clkKhzLen, h8 ▸ k.vreqLen, h9 ▸ k.queuesLen, h10 ▸ k.schedKLen, h11 ▸ k.hrBufLen, h12 ▸ k.lcsLen, h13 ▸ k.ageingLen, h14 ▸ k.sesLen, h15 ▸ k.portsLen, h16 ▸ k.tlbsLen, h17 ▸ k.cachesLen, h18 ▸ k.quadsLen, h19 ▸ k.wsLen, by rw [h6, h20]; exact k.handles⟩

theorem Keeps.foldl {p s : State} {α : Type} {f : State → α → State} {l : List α} (h : Keeps p s)
    (hf : ∀ s x, Keeps p s → Keeps p (f s x)) : Keeps p (l.foldl f s) := by
  induction l generalizing s with
  | nil => exact h
  | cons x r ih => exact ih (hf s x h)

theorem Keeps.foldlFst {p : State} {α β : Type} {f : State × β → α → State × β} {l : List α} {e : State × β} (h : Keeps p e.1)
    (hf : ∀ s b x, Keeps p s → Keeps p (f (s, b) x).1) : Keeps p (l.foldl f e).1 := by
  induction l generalizing e with
  | nil => exact h
  | cons x r ih => exact ih (hf e.1 e.2 x h)

theorem Keeps.foldlSnd {p : State} {α β : Type} {f : β × State → α → β × State} {l : List α} {e : β × State} (h : Keeps p e.2)
    (hf : ∀ b s x, Keeps p s → Keeps p (f (b, s) x).2) : Keeps p (l.foldl f e).2 := by
  induction l generalizing e with
  | nil => exact h
  | cons x r ih => exact ih (hf e.1 e.2 x h)

theorem Keeps.ite {p a b : State} {c : Prop} {i : Decidable c} (ha : Keeps p a) (hb : Keeps p b) : Keeps p (@ite _ c i a b) := by
  cases i <;> assumption

theorem Keeps.foldlPair {p : State} {α : Type} {f : State × Group → α → State × Group} {l : List α} {e : State × Group}
    (h : Keeps p e.1) (hg : Canon p → e.2.Canon)
    (hf : ∀ s g x, Keeps p s → (Canon p → g.Canon) → Keeps p (f (s, g) x).1 ∧ (Canon p → (f (s, g) x).2.Canon)) :
    Keeps p (l.foldl f e).1 ∧ (Canon p → (l.foldl f e).2.Canon) := by
  induction l generalizing e with
  | nil => exact ⟨h, hg⟩
  | cons x r ih =>
    obtain ⟨a, b⟩ := hf e.1 e.2 x h hg
    exact ih a b

theorem Keeps.ofSnd {p t : State} {α : Type} {e : α × State} {a : α} (q : e = (a, t)) (h : Keeps p e.2) : Keeps p t := by
  rw [q] at h; exact h

theorem Keeps.ofFst {p t : State} {α : Type} {e : State × α} {a : α} (q : e = (t, a)) (h : Keeps p e.1) : Keeps p t := by
  rw [q] at h; exact h

/-! ### Literal updates of the state -/

theorem Keeps.lit {p s : State} {x1 : Nat} {x3 : Nat} {x4 : Nat} {x5 : List (Nat × Nat)} {x6 : Nat} {x7 : Bool} {x8 : Bool} {x9 : Bool} {x11 : List WEntry} {x12 : Nat} {x14 : Nat} {x15 : Option OpMove} {x16 : Option ResetSt} {x17 : Option Nat} {x18 : Option Nat} {x19 : Option Image} {x20 : Option Image} {x21 : Bool} {x22 : Nat} {x23 : Bool} {x24 : Nat} {x25 : Bool} {x26 : Nat} {x28 : List Dispatch} {x29 : Nat} {x30 : List Nat} {x34 : List Nat} {x35 : List Ray} {x36 : Nat} {x37 : List TQueue} {x38 : Nat} {x39 : List Nat} {x40 : List Batch} {x41 : List (Nat × TSlot)} {x43 : List Nat} {x44 : Nat} {x45 : List NBatch} {x46 : Nat} {x47 : List CallRec} {x48 : List GBlock} {x49 : Nat} {x51 : List HoldRec} {x54 : Nat} {x56 : List Preempt} {x57 : List FSeq} {x58 : List EUnit} {x59 : List EUnit} {x60 : Option Window} {x63 : List StreamItem} {x66 : List XReq} {x67 : List XReq} {x68 : Nat} {x69 : List FWait} {x70 : Nat} {x71 : List Inval} {x72 : List HotEntry} {x73 : List (Nat × Nat)} {x75 : Option CmOp} {x78 : List MBatch} {x79 : Nat} {x80 : Mgmt} {x81 : Plk} {x82 : List Out} :
    Keeps p (State.mk s.integ x1 s.clkKhz x3 x4 x5 x6 x7 x8 x9 s.regs x11 x12 s.vreq x14 x15 x16 x17 x18 x19 x20 x21 x22 x23 x24 x25 x26 s.queues x28 x29 x30 s.schedK s.mem s.sf x34 x35 x36 x37 x38 x39 x40 x41 s.ts x43 x44 x45 x46 x47 x48 x49 s.hrBuf x51 s.groups s.nextGroup x54 s.lcs x56 x57 x58 x59 x60 s.ageing s.ses x63 s.ports s.tlbs x66 x67 x68 x69 x70 x71 x72 x73 s.caches x75 s.quads s.ws x78 x79 x80 x81 x82 s.pending) ↔ Keeps p s :=
  ⟨fun h => Keeps.same h rfl rfl rfl rfl rfl rfl rfl rfl rfl rfl rfl rfl rfl rfl rfl rfl rfl rfl rfl rfl rfl, fun h => Keeps.same h rfl rfl rfl rfl rfl rfl rfl rfl rfl rfl rfl rfl rfl rfl rfl rfl rfl rfl rfl rfl rfl⟩

theorem Keeps.litGroups {p s : State} {G : List Group} {y : Nat} {x1 : Nat} {x3 : Nat} {x4 : Nat} {x5 : List (Nat × Nat)} {x6 : Nat} {x7 : Bool} {x8 : Bool} {x9 : Bool} {x11 : List WEntry} {x12 : Nat} {x14 : Nat} {x15 : Option OpMove} {x16 : Option ResetSt} {x17 : Option Nat} {x18 : Option Nat} {x19 : Option Image} {x20 : Option Image} {x21 : Bool} {x22 : Nat} {x23 : Bool} {x24 : Nat} {x25 : Bool} {x26 : Nat} {x28 : List Dispatch} {x29 : Nat} {x30 : List Nat} {x34 : List Nat} {x35 : List Ray} {x36 : Nat} {x37 : List TQueue} {x38 : Nat} {x39 : List Nat} {x40 : List Batch} {x41 : List (Nat × TSlot)} {x43 : List Nat} {x44 : Nat} {x45 : List NBatch} {x46 : Nat} {x47 : List CallRec} {x48 : List GBlock} {x49 : Nat} {x51 : List HoldRec} {x54 : Nat} {x56 : List Preempt} {x57 : List FSeq} {x58 : List EUnit} {x59 : List EUnit} {x60 : Option Window} {x63 : List StreamItem} {x66 : List XReq} {x67 : List XReq} {x68 : Nat} {x69 : List FWait} {x70 : Nat} {x71 : List Inval} {x72 : List HotEntry} {x73 : List (Nat × Nat)} {x75 : Option CmOp} {x78 : List MBatch} {x79 : Nat} {x80 : Mgmt} {x81 : Plk} {x82 : List Out} (h : Keeps p s) (q : (∀ g ∈ s.groups, g.Canon) → ∀ g ∈ G, g.Canon) (q' : HandlesOk s.groups s.nextGroup → HandlesOk G y) :
    Keeps p (State.mk s.integ x1 s.clkKhz x3 x4 x5 x6 x7 x8 x9 s.regs x11 x12 s.vreq x14 x15 x16 x17 x18 x19 x20 x21 x22 x23 x24 x25 x26 s.queues x28 x29 x30 s.schedK s.mem s.sf x34 x35 x36 x37 x38 x39 x40 x41 s.ts x43 x44 x45 x46 x47 x48 x49 s.hrBuf x51 G y x54 s.lcs x56 x57 x58 x59 x60 s.ageing s.ses x63 s.ports s.tlbs x66 x67 x68 x69 x70 x71 x72 x73 s.caches x75 s.quads s.ws x78 x79 x80 x81 x82 s.pending) :=
  ⟨h.pending, h.integ, fun c => let k := h.canon c; ⟨k.mem, k.sf, k.ts, k.regs, k.stores, q k.groups, k.clkKhzLen, k.vreqLen, k.queuesLen, k.schedKLen, k.hrBufLen, k.lcsLen, k.ageingLen, k.sesLen, k.portsLen, k.tlbsLen, k.cachesLen, k.quadsLen, k.wsLen, q' k.handles⟩⟩

theorem Keeps.litAll {p s : State} {M F0 T : List Host.Cell} {R : List (Nat × Nat)} {G : List Group} {y : Nat} {LclkKhz : List Nat} {Lvreq : List Nat} {Lqueues : List QState} {LschedK : List Nat} {LhrBuf : List (List HitSlot)} {Llcs : List LaneCore} {Lageing : List Ageing} {Lses : List StreamEng} {Lports : List MemPort} {Ltlbs : List (List TlbEntry)} {Lcaches : List Caches} {Lquads : List Quad} {Lws : List WStore} {x1 : Nat} {x3 : Nat} {x4 : Nat} {x5 : List (Nat × Nat)} {x6 : Nat} {x7 : Bool} {x8 : Bool} {x9 : Bool} {x11 : List WEntry} {x12 : Nat} {x14 : Nat} {x15 : Option OpMove} {x16 : Option ResetSt} {x17 : Option Nat} {x18 : Option Nat} {x19 : Option Image} {x20 : Option Image} {x21 : Bool} {x22 : Nat} {x23 : Bool} {x24 : Nat} {x25 : Bool} {x26 : Nat} {x28 : List Dispatch} {x29 : Nat} {x30 : List Nat} {x34 : List Nat} {x35 : List Ray} {x36 : Nat} {x37 : List TQueue} {x38 : Nat} {x39 : List Nat} {x40 : List Batch} {x41 : List (Nat × TSlot)} {x43 : List Nat} {x44 : Nat} {x45 : List NBatch} {x46 : Nat} {x47 : List CallRec} {x48 : List GBlock} {x49 : Nat} {x51 : List HoldRec} {x54 : Nat} {x56 : List Preempt} {x57 : List FSeq} {x58 : List EUnit} {x59 : List EUnit} {x60 : Option Window} {x63 : List StreamItem} {x66 : List XReq} {x67 : List XReq} {x68 : Nat} {x69 : List FWait} {x70 : Nat} {x71 : List Inval} {x72 : List HotEntry} {x73 : List (Nat × Nat)} {x75 : Option CmOp} {x78 : List MBatch} {x79 : Nat} {x80 : Mgmt} {x81 : Plk} {x82 : List Out}
    (h : Keeps p s) (h1 : Memory.wf s.mem = true → Memory.wf M = true) (h2 : Memory.wf s.sf = true → Memory.wf F0 = true)
    (h3 : Memory.wf s.ts = true → Memory.wf T = true) (h4 : swf regReset s.regs = true → swf regReset R = true)
    (h5 : (∀ l ∈ s.lcs, Memory.wf l.store = true) → ∀ l ∈ Llcs, Memory.wf l.store = true)
    (h6 : (∀ g ∈ s.groups, g.Canon) → ∀ g ∈ G, g.Canon)
    (h7 : HandlesOk s.groups s.nextGroup → HandlesOk G y)
    (qclkKhz : s.clkKhz.length = 6 → LclkKhz.length = 6) (qvreq : s.vreq.length = 11 → Lvreq.length = 11) (qqueues : s.queues.length = 4 → Lqueues.length = 4) (qschedK : s.schedK.length = 32 → LschedK.length = 32) (qhrBuf : s.hrBuf.length = 4 → LhrBuf.length = 4) (qlcs : s.lcs.length = 16 → Llcs.length = 16) (qageing : s.ageing.length = 14 → Lageing.length = 14) (qses : s.ses.length = 16 → Lses.length = 16) (qports : s.ports.length = 16 → Lports.length = 16) (qtlbs : s.tlbs.length = 64 → Ltlbs.length = 64) (qcaches : s.caches.length = 32 → Lcaches.length = 32) (qquads : s.quads.length = 8 → Lquads.length = 8) (qws : s.ws.length = 2 → Lws.length = 2) :
    Keeps p (State.mk s.integ x1 LclkKhz x3 x4 x5 x6 x7 x8 x9 R x11 x12 Lvreq x14 x15 x16 x17 x18 x19 x20 x21 x22 x23 x24 x25 x26 Lqueues x28 x29 x30 LschedK M F0 x34 x35 x36 x37 x38 x39 x40 x41 T x43 x44 x45 x46 x47 x48 x49 LhrBuf x51 G y x54 Llcs x56 x57 x58 x59 x60 Lageing Lses x63 Lports Ltlbs x66 x67 x68 x69 x70 x71 x72 x73 Lcaches x75 Lquads Lws x78 x79 x80 x81 x82 s.pending) :=
  ⟨h.pending, h.integ, fun c => let k := h.canon c; ⟨h1 k.mem, h2 k.sf, h3 k.ts, h4 k.regs, h5 k.stores, h6 k.groups, qclkKhz k.clkKhzLen, qvreq k.vreqLen, qqueues k.queuesLen, qschedK k.schedKLen, qhrBuf k.hrBufLen, qlcs k.lcsLen, qageing k.ageingLen, qses k.sesLen, qports k.portsLen, qtlbs k.tlbsLen, qcaches k.cachesLen, qquads k.quadsLen, qws k.wsLen, h7 k.handles⟩⟩

theorem length_zipMap {α β : Type} (f : α × Nat → β) (l : List α) : (l.zipIdx.map f).length = l.length := by simp

theorem length_modifyAt {α : Type} (f : α → α) (i : Nat) (l : List α) : (modifyAt f i l).length = l.length := by
  induction l generalizing i with
  | nil => cases i <;> rfl
  | cons x r ih => cases i <;> simp [modifyAt, ih]

theorem modifyAt_all {α : Type} {P : α → Prop} {f : α → α} (hf : ∀ x, P x → P (f x)) (i : Nat) (l : List α)
    (h : ∀ x ∈ l, P x) : ∀ x ∈ modifyAt f i l, P x := by
  induction l generalizing i with
  | nil => intro x hx; simp [modifyAt] at hx
  | cons y r ih =>
    intro x hx
    cases i with
    | zero =>
      rcases List.mem_cons.1 hx with rfl | hx
      · exact hf y (h y (by simp))
      · exact h x (by simp [hx])
    | succ i =>
      rcases List.mem_cons.1 hx with rfl | hx
      · exact h _ (by simp)
      · exact ih i (fun x hx => h x (by simp [hx])) x hx

theorem map_all {α : Type} {P : α → Prop} {f : α → α} (hf : ∀ x, P x → P (f x)) (l : List α) (h : ∀ x ∈ l, P x) : ∀ x ∈ l.map f, P x := by
  intro x hx
  obtain ⟨y, hy, rfl⟩ := List.mem_map.1 hx
  exact hf y (h y hy)

theorem filter_all {α : Type} {P : α → Prop} {f : α → Bool} (l : List α) (h : ∀ x ∈ l, P x) : ∀ x ∈ l.filter f, P x :=
  fun x hx => h x (List.mem_filter.1 hx).1

theorem stores_map {f : LaneCore → LaneCore} (hf : ∀ l, (f l).store = l.store) {L : List LaneCore} (h : ∀ l ∈ L, Memory.wf l.store = true) :
    ∀ l ∈ L.map f, Memory.wf l.store = true :=
  map_all (P := fun l => Memory.wf l.store = true) (fun x hx => by rw [hf]; exact hx) L h

theorem stores_modify {f : LaneCore → LaneCore} (hf : ∀ l, (f l).store = l.store) {i : Nat} {L : List LaneCore}
    (h : ∀ l ∈ L, Memory.wf l.store = true) : ∀ l ∈ modifyAt f i L, Memory.wf l.store = true :=
  modifyAt_all (P := fun l => Memory.wf l.store = true) (fun x hx => by rw [hf]; exact hx) i L h

theorem stores_put {f : LaneCore → LaneCore} {i : Nat} {L : List LaneCore}
    (hf : ∀ l, Memory.wf l.store = true → Memory.wf (f l).store = true)
    (h : ∀ l ∈ L, Memory.wf l.store = true) : ∀ l ∈ modifyAt f i L, Memory.wf l.store = true :=
  modifyAt_all (P := fun l => Memory.wf l.store = true) hf i L h

theorem stores_zip {f : LaneCore × Nat → LaneCore} {L : List LaneCore} (hf : ∀ l i, Memory.wf l.store = true → Memory.wf (f (l, i)).store = true)
    (h : ∀ l ∈ L, Memory.wf l.store = true) : ∀ l ∈ L.zipIdx.map f, Memory.wf l.store = true := by
  intro x hx
  obtain ⟨⟨y, i⟩, hy, rfl⟩ := List.mem_map.1 hx
  exact hf y i (h y (List.fst_mem_of_mem_zipIdx hy))

theorem stores_init : ∀ l ∈ List.replicate 16 LaneCore.init, Memory.wf l.store = true := by
  intro l hl
  rw [List.eq_of_mem_replicate hl]
  rfl

theorem groups_append {g : Group} {L : List Group} (hg : g.regs = []) (hp : g.preds.length = 7) (hc : g.counters.length = 8) (h : ∀ g ∈ L, g.Canon) : ∀ x ∈ L ++ [g], x.Canon := by
  intro x hx
  rcases List.mem_append.1 hx with hx | hx
  · exact h x hx
  · rw [List.mem_singleton.1 hx]
    exact ⟨by rw [hg]; rfl, hp, hc⟩

theorem groups_map {f : Group → Group} (hf : ∀ g, Group.Canon g → (f g).Canon) {L : List Group} (h : ∀ g ∈ L, g.Canon) :
    ∀ g ∈ L.map f, g.Canon :=
  map_all (P := Group.Canon) hf L h

theorem groups_filter {f : Group → Bool} {L : List Group} (h : ∀ g ∈ L, g.Canon) : ∀ g ∈ L.filter f, g.Canon := filter_all (P := Group.Canon) L h

theorem handles_append {g : Group} {L : List Group} {n : Nat} (hg : g.id = n) (h : HandlesOk L n) : HandlesOk (L ++ [g]) (n + 1) := by
  refine ⟨fun x hx => ?_, ?_⟩
  · rcases List.mem_append.1 hx with hx | hx
    · exact Nat.lt_succ_of_lt (h.1 x hx)
    · rw [List.mem_singleton.1 hx, hg]; exact Nat.lt_succ_self n
  · rw [List.map_append, List.nodup_append]
    refine ⟨h.2, by simp, fun a ha b hb => ?_⟩
    obtain ⟨x, hx, rfl⟩ := List.mem_map.1 ha
    have := h.1 x hx
    simp only [List.map_cons, List.map_nil, List.mem_singleton] at hb
    rw [hb, hg]
    exact Nat.ne_of_lt this

theorem handles_map {f : Group → Group} {L : List Group} {n : Nat} (hf : ∀ g ∈ L, (f g).id = g.id) (h : HandlesOk L n) : HandlesOk (L.map f) n := by
  have e : (L.map f).map (fun g => g.id) = L.map (fun g => g.id) := by
    rw [List.map_map]; exact List.map_congr_left hf
  refine ⟨fun x hx => ?_, by rw [e]; exact h.2⟩
  obtain ⟨y, hy, rfl⟩ := List.mem_map.1 hx
  rw [hf y hy]; exact h.1 y hy

theorem handles_filter {f : Group → Bool} {L : List Group} {n : Nat} (h : HandlesOk L n) : HandlesOk (L.filter f) n :=
  ⟨fun x hx => h.1 x (List.mem_filter.1 hx).1, h.2.sublist (List.filter_sublist.map _)⟩

theorem handles_nil {n : Nat} : HandlesOk [] n := ⟨by simp, by simp⟩

theorem Group.setReg_id (g : Group) (l r v : Nat) : (g.setReg l r v).id = g.id := by unfold Group.setReg; split <;> rfl

theorem Group.setRun_id (g : Group) (l r n v : Nat) : (g.setRun l r n v).id = g.id := by
  induction n generalizing g r v with
  | zero => rfl
  | succ n ih => exact (ih _ _ _).trans (Group.setReg_id ..)

theorem Group.setPred_id (g : Group) (a l : Nat) (b : Bool) : (g.setPred a l b).id = g.id := by unfold Group.setPred; split <;> rfl

theorem Group.foldl_id {α : Type} {f : Group → α → Group} (hf : ∀ a x, (f a x).id = a.id) (l : List α) (g : Group) : (l.foldl f g).id = g.id := by
  induction l generalizing g with
  | nil => rfl
  | cons x r ih => exact (ih _).trans (hf g x)

theorem Group.foldlPair_id {α : Type} {f : State × Group → α → State × Group} (hf : ∀ s g x, (f (s, g) x).2.id = g.id) (l : List α)
    (e : State × Group) : (l.foldl f e).2.id = e.2.id := by
  induction l generalizing e with
  | nil => rfl
  | cons x r ih => exact (ih _).trans (hf e.1 e.2 x)

theorem nil_all {α : Type} {P : α → Prop} : ∀ x ∈ ([] : List α), P x := by simp

theorem Group.canon_lit {g : Group} {x0 : Nat} {x1 : Nat} {x2 : Option Nat} {x3 : Nat} {x4 : Nat} {x5 : Nat} {x6 : Nat} {x7 : Nat} {x8 : Bool} {x9 : Nat} {x10 : Nat} {x11 : Nat} {x12 : Nat} {x13 : List (Nat × Nat)} {x14 : Nat} {x17 : List LaneIn} {x18 : Nat} {x19 : Nat} {x20 : Nat} {x21 : Nat} {x22 : Bool} {x23 : Option Nat} {x24 : Nat} {x25 : Nat} {x27 : List Copy} {x28 : GWait} {x29 : List LockHeld} {x30 : Bool} {x31 : Nat} :
    Group.Canon (Group.mk x0 x1 x2 x3 x4 x5 x6 x7 x8 x9 x10 x11 x12 x13 x14 g.regs g.preds x17 x18 x19 x20 x21 x22 x23 x24 x25 g.counters x27 x28 x29 x30 x31) ↔ g.Canon := Iff.rfl

theorem Group.count_canon {g : Group} {f : Counter → Counter} {i : Nat} {x0 : Nat} {x1 : Nat} {x2 : Option Nat} {x3 : Nat} {x4 : Nat} {x5 : Nat} {x6 : Nat} {x7 : Nat} {x8 : Bool} {x9 : Nat} {x10 : Nat} {x11 : Nat} {x12 : Nat} {x13 : List (Nat × Nat)} {x14 : Nat} {x17 : List LaneIn} {x18 : Nat} {x19 : Nat} {x20 : Nat} {x21 : Nat} {x22 : Bool} {x23 : Option Nat} {x24 : Nat} {x25 : Nat} {x27 : List Copy} {x28 : GWait} {x29 : List LockHeld} {x30 : Bool} {x31 : Nat} (h : g.Canon) :
    Group.Canon (Group.mk x0 x1 x2 x3 x4 x5 x6 x7 x8 x9 x10 x11 x12 x13 x14 g.regs g.preds x17 x18 x19 x20 x21 x22 x23 x24 x25 (modifyAt f i g.counters) x27 x28 x29 x30 x31) := ⟨h.1, h.2.1, (length_modifyAt _ _ _).trans h.2.2⟩

theorem Group.new_canon {g : Group} (h1 : g.regs = []) (h2 : g.preds.length = 7) (h3 : g.counters.length = 8) : g.Canon :=
  ⟨by rw [h1]; rfl, h2, h3⟩

theorem Group.setReg_canon {g : Group} (l r v : Nat) (h : g.Canon) : (g.setReg l r v).Canon := by
  unfold Group.setReg
  split
  · exact h
  · exact ⟨swf_sset _ _ _ _ h.1, h.2⟩

theorem Group.setRun_canon {g : Group} (l r n v : Nat) (h : g.Canon) : (g.setRun l r n v).Canon := by
  induction n generalizing g r v with
  | zero => exact h
  | succ n ih => exact ih _ _ (Group.setReg_canon _ _ _ h)

theorem Group.loaded_canon {g : Group} (l d : Nat) (b : Bool) (bs : List Byte) (h : g.Canon) : (g.loaded l d b bs).Canon :=
  Group.setRun_canon _ _ _ _ h

theorem Group.setPred_canon {g : Group} (a l : Nat) (b : Bool) (h : g.Canon) : (g.setPred a l b).Canon := by
  unfold Group.setPred
  split
  · exact h
  · exact ⟨h.1, (length_modifyAt _ _ _).trans h.2.1, h.2.2⟩

theorem Group.foldl_canon {α : Type} {f : Group → α → Group} {g : Group} {l : List α} (h : g.Canon)
    (hf : ∀ a x, Group.Canon a → (f a x).Canon) : (l.foldl f g).Canon := by
  induction l generalizing g with
  | nil => exact h
  | cons x r ih => exact ih (hf g x h)

theorem Group.next_canon {g : Group} (h : g.Canon) : g.next.Canon := h

theorem Keeps.canonOf {p s : State} {g : Group} (h : Keeps p s) (m : g ∈ s.groups) : Canon p → g.Canon := fun c => (h.canon c).groups g m

theorem Group.ite_canon {a b : Group} {c : Prop} {i : Decidable c} (ha : a.Canon) (hb : b.Canon) : (@ite _ c i a b).Canon := by
  cases i <;> assumption

end Sys2Proof.Machine
end

