-- ==== Sys2Proof/Laws/KeepsOps.lean ====
section
/-! SUPPORT. One lemma for each operation over registers, memory, caches, queues, completion, loading and ownership:
what `Keeps` says of it, for the state it is given and the state it answers. -/

namespace Sys2Proof.Machine

variable {p₀ : State}

theorem State.set_keeps (s : State) (f : RField) (v : Nat) (h : Keeps p₀ s) : Keeps p₀ (s.set f v) := by
  refine ⟨h.pending, h.integ, fun c => ?_⟩
  have k := h.canon c
  exact ⟨k.mem, k.sf, k.ts, swf_sset _ _ _ _ k.regs, k.stores, k.groups, k.clkKhzLen, k.vreqLen, k.queuesLen, k.schedKLen, k.hrBufLen, k.lcsLen, k.ageingLen, k.sesLen, k.portsLen, k.tlbsLen, k.cachesLen, k.quadsLen, k.wsLen, k.handles⟩

theorem State.mark_keeps (s : State) (f : RField) (k0 : Keeps p₀ s) : Keeps p₀ (State.mark s f) := by
  unfold State.mark; try dsimp only
  repeat' first | with_reducible first | assumption | apply State.set_keeps

theorem State.setBit_keeps (s : State) (f : RField) (i : Nat) (b : Bool) (k0 : Keeps p₀ s) : Keeps p₀ (State.setBit s f i b) := by
  unfold State.setBit; try dsimp only
  repeat' first | with_reducible first | assumption | apply State.set_keeps

theorem State.bump_keeps (s : State) (f : RField) (n : Nat) (k0 : Keeps p₀ s) : Keeps p₀ (State.bump s f n) := by
  unfold State.bump; try dsimp only
  repeat' first | with_reducible first | assumption | apply State.set_keeps

theorem State.tally_keeps (s : State) (f : RField) (n : Nat) (k0 : Keeps p₀ s) : Keeps p₀ (State.tally s f n) := by
  unfold State.tally; try dsimp only
  repeat' first | with_reducible first | assumption | apply State.set_keeps

theorem State.tally2_keeps (s : State) (lo hi : RField) (n : Nat) (k0 : Keeps p₀ s) : Keeps p₀ (State.tally2 s lo hi n) := by
  unfold State.tally2; try dsimp only
  repeat' first | with_reducible first | assumption | apply State.set_keeps

theorem State.setAll_keeps (s : State) (l : List (RField × Nat)) (k0 : Keeps p₀ s) : Keeps p₀ (State.setAll s l) := by
  unfold State.setAll; try dsimp only
  repeat' first | with_reducible first | assumption | intro _ | apply Keeps.foldl | apply State.set_keeps

theorem State.resetRegs_keeps (s : State) (q : Nat → Bool) (h : Keeps p₀ s) : Keeps p₀ (s.resetRegs q) := by
  refine ⟨h.pending, h.integ, fun c => ?_⟩
  have k := h.canon c
  exact ⟨k.mem, k.sf, k.ts, swf_sclear _ (fun k => q (k / 32)) _ k.regs, k.stores, k.groups, k.clkKhzLen, k.vreqLen, k.queuesLen, k.schedKLen, k.hrBufLen, k.lcsLen, k.ageingLen, k.sesLen, k.portsLen, k.tlbsLen, k.cachesLen, k.quadsLen, k.wsLen, k.handles⟩

theorem State.emit_keeps (s : State) (o : Out) (k0 : Keeps p₀ s) : Keeps p₀ (State.emit s o) := by
  unfold State.emit; try dsimp only
  repeat' first | with_reducible first | assumption | simp only [Keeps.lit]

theorem State.draw_keeps (s : State) (k0 : Keeps p₀ s) : Keeps p₀ (State.draw s).2 := by
  unfold State.draw; try dsimp only
  repeat' first | with_reducible first | assumption | simp only [Keeps.lit]

theorem State.setFenced_keeps (s : State) (u : EUnit) (b : Bool) (k0 : Keeps p₀ s) : Keeps p₀ (State.setFenced s u b) := by
  unfold State.setFenced; try dsimp only
  repeat' first | with_reducible first | assumption | split | apply State.setBit_keeps | simp only [Keeps.lit]

theorem State.raise_keeps (s : State) (line : Nat) (k0 : Keeps p₀ s) : Keeps p₀ (State.raise s line) := by
  unfold State.raise; try dsimp only
  repeat' first | with_reducible first | assumption | apply State.setBit_keeps

theorem State.addEntry_keeps (s : State) (typ : Nat) (data : List Byte) (k0 : Keeps p₀ s) : Keeps p₀ (State.addEntry s typ data).2 := by
  unfold State.addEntry; try dsimp only
  repeat' first | with_reducible first | assumption | split | simp only [Keeps.lit]

theorem State.log_keeps (s : State) (typ : Nat) (data : List Byte) (k0 : Keeps p₀ s) : Keeps p₀ (State.log s typ data).2 := by
  unfold State.log; try dsimp only
  repeat' first | with_reducible first | assumption | split | apply State.addEntry_keeps | apply State.mark_keeps | simp only [Keeps.lit]

theorem State.note_keeps (s : State) (typ : Nat) (data : List Byte) (k0 : Keeps p₀ s) : Keeps p₀ (State.note s typ data) := by
  unfold State.note; try dsimp only
  repeat' first | with_reducible first | assumption | apply State.log_keeps

theorem State.capture_keeps (s : State) (k : Nat) (u : Option EUnit) (info : Nat) (k0 : Keeps p₀ s) : Keeps p₀ (State.capture s k u info) := by
  unfold State.capture; try dsimp only
  repeat' first | with_reducible first | assumption | apply Keeps.ite | apply State.setBit_keeps | apply State.bump_keeps | apply State.log_keeps | apply State.setAll_keeps | apply State.raise_keeps | simp only [Keeps.lit]

theorem State.openWindow_keeps (s : State) (seq : Nat) (k0 : Keeps p₀ s) : Keeps p₀ (State.openWindow s seq) := by
  unfold State.openWindow; try dsimp only
  repeat' first | with_reducible first | assumption | split | apply State.set_keeps | apply State.mark_keeps | simp only [Keeps.lit]

theorem State.fenceFault_keeps (s : State) (k : Nat) (u : EUnit) (info : Nat) (k0 : Keeps p₀ s) : Keeps p₀ (State.fenceFault s k u info) := by
  unfold State.fenceFault; try dsimp only
  repeat' first | with_reducible first | assumption | apply Keeps.ite | apply State.capture_keeps | apply State.openWindow_keeps | simp only [Keeps.lit]

theorem State.perf_keeps (s : State) (ev : Nat) (u : EUnit) (c : Option Nat) (n : Nat) (k0 : Keeps p₀ s) : Keeps p₀ (State.perf s ev u c n) := by
  unfold State.perf; try dsimp only
  repeat' first | with_reducible first | assumption | intro _ | apply Keeps.ite | apply Keeps.foldl | apply State.set_keeps | apply State.setBit_keeps

theorem State.perfMac_keeps (s : State) (u : EUnit) (c : Option Nat) (n : Nat) (k0 : Keeps p₀ s) : Keeps p₀ (State.perfMac s u c n) := by
  unfold State.perfMac; try dsimp only
  repeat' first | with_reducible first | assumption | apply State.perf_keeps | simp only [Keeps.lit]

theorem State.modQueue_keeps (s : State) (c : Nat) (f : QState → QState) (k0 : Keeps p₀ s) : Keeps p₀ (State.modQueue s c f) := by
  unfold State.modQueue; try dsimp only
  repeat' first | with_reducible exact id | with_reducible exact fun q => (length_modifyAt _ _ _).trans q | with_reducible first | assumption | apply Keeps.litAll

theorem State.modDisp_keeps (s : State) (id : Nat) (f : Dispatch → Dispatch) (k0 : Keeps p₀ s) : Keeps p₀ (State.modDisp s id f) := by
  unfold State.modDisp; try dsimp only
  repeat' first | with_reducible first | assumption | simp only [Keeps.lit]

theorem State.modRay_keeps (s : State) (id : Nat) (f : Ray → Ray) (k0 : Keeps p₀ s) : Keeps p₀ (State.modRay s id f) := by
  unfold State.modRay; try dsimp only
  repeat' first | with_reducible first | assumption | simp only [Keeps.lit]

theorem State.memStore_keeps (s : State) (x : Nat) (bs : List Byte) (h : Keeps p₀ s) : Keeps p₀ (s.memStore x bs) := by
  refine ⟨h.pending, h.integ, fun c => ?_⟩
  have k := h.canon c
  exact ⟨putBytes_wf _ _ _ k.mem, k.sf, k.ts, k.regs, stores_map (f := fun l => l.drop x bs.length) (fun _ => rfl) k.stores, k.groups, k.clkKhzLen, k.vreqLen, k.queuesLen, k.schedKLen, k.hrBufLen, (List.length_map _).trans k.lcsLen, k.ageingLen, k.sesLen, k.portsLen, k.tlbsLen, k.cachesLen, k.quadsLen, k.wsLen, k.handles⟩

theorem State.memPut_keeps (s : State) (a : Nat) (bs : List Byte) (k0 : Keeps p₀ s) : Keeps p₀ (State.memPut s a bs) := by
  unfold State.memPut; try dsimp only
  repeat' first | with_reducible first | assumption | apply State.memStore_keeps | apply State.emit_keeps

theorem State.sfTouch_keeps (s : State) (u : EUnit) (c : Option Nat) (a n : Nat) (k0 : Keeps p₀ s) : Keeps p₀ (State.sfTouch s u c a n) := by
  unfold State.sfTouch; try dsimp only
  repeat' first | with_reducible first | assumption | apply State.perf_keeps

theorem State.sfStore_keeps (s : State) (x : Nat) (bs : List Byte) (h : Keeps p₀ s) : Keeps p₀ (s.sfStore x bs) := by
  refine ⟨h.pending, h.integ, fun c => ?_⟩
  have k := h.canon c
  exact ⟨k.mem, putBytes_wf _ _ _ k.sf, k.ts, k.regs, k.stores, k.groups, k.clkKhzLen, k.vreqLen, k.queuesLen, k.schedKLen, k.hrBufLen, k.lcsLen, k.ageingLen, k.sesLen, k.portsLen, k.tlbsLen, k.cachesLen, k.quadsLen, k.wsLen, k.handles⟩

theorem State.sfPut_keeps (s : State) (u : EUnit) (c : Option Nat) (a : Nat) (bs : List Byte) (k0 : Keeps p₀ s) : Keeps p₀ (State.sfPut s u c a bs) := by
  unfold State.sfPut; try dsimp only
  repeat' first | with_reducible first | assumption | apply State.sfTouch_keeps | apply State.sfStore_keeps

theorem State.tlbTouch_keeps (s : State) (req p : Nat) (k0 : Keeps p₀ s) : Keeps p₀ (State.tlbTouch s req p) := by
  unfold State.tlbTouch; try dsimp only
  repeat' first | with_reducible exact id | with_reducible exact fun q => (length_modifyAt _ _ _).trans q | with_reducible first | assumption | apply Keeps.litAll

theorem State.portPush_keeps (s : State) (r : MemReq) (k0 : Keeps p₀ s) : Keeps p₀ (State.portPush s r) := by
  unfold State.portPush; try dsimp only
  repeat' first | with_reducible exact id | with_reducible exact fun q => (length_modifyAt _ _ _).trans q | with_reducible first | assumption | split | apply Keeps.litAll

theorem State.requestBy_keeps (s : State) (req : Nat) (acc : Access) (write prefetch remote : Bool) (x : Nat) (k0 : Keeps p₀ s) : Keeps p₀ (State.requestBy s req acc write prefetch remote x) := by
  unfold State.requestBy; try dsimp only
  repeat' first | with_reducible first | assumption | apply State.portPush_keeps | apply State.tlbTouch_keeps | simp only [Keeps.lit]

theorem State.request_keeps (s : State) (acc : Access) (a len : Nat) (write prefetch : Bool) (k0 : Keeps p₀ s) : Keeps p₀ (State.request s acc a len write prefetch) := by
  unfold State.request; try dsimp only
  repeat' first | with_reducible first | assumption | intro _ | apply Keeps.foldl | apply State.requestBy_keeps

theorem State.hotCount_keeps (s : State) (a k : Nat) (k0 : Keeps p₀ s) : Keeps p₀ (State.hotCount s a k) := by
  unfold State.hotCount; try dsimp only
  repeat' first | with_reducible first | assumption | apply Keeps.ite | split | apply State.raise_keeps | apply State.bump_keeps | simp only [Keeps.lit]

theorem State.carryPage_keeps (s : State) (req cls : Nat) (write remote : Bool) (p : Nat × Nat) (k0 : Keeps p₀ s) : Keeps p₀ (State.carryPage s req cls write remote p) := by
  unfold State.carryPage; try dsimp only
  repeat' first | with_reducible first | assumption | apply Keeps.ite | split | apply State.tlbTouch_keeps | apply State.bump_keeps | apply State.perf_keeps | apply State.hotCount_keeps

theorem State.carry_keeps (s : State) (req cls a n : Nat) (write remote : Bool) (k0 : Keeps p₀ s) : Keeps p₀ (State.carry s req cls a n write remote) := by
  unfold State.carry; try dsimp only
  repeat' first | with_reducible first | assumption | intro _ | apply Keeps.foldl | apply State.carryPage_keeps

theorem State.seMoved_keeps (s : State) (req n : Nat) (k0 : Keeps p₀ s) : Keeps p₀ (State.seMoved s req n) := by
  unfold State.seMoved; try dsimp only
  repeat' first | with_reducible first | assumption | apply Keeps.ite | apply State.tally2_keeps

theorem State.access_keeps (s : State) (acc : Access) (cls a n : Nat) (write : Bool) (k0 : Keeps p₀ s) : Keeps p₀ (State.access s acc cls a n write) := by
  unfold State.access; try dsimp only
  repeat' first | with_reducible first | assumption | apply State.carry_keeps | apply State.seMoved_keeps

theorem State.uncRead_keeps (s : State) (acc : Access) (a : Nat) (k0 : Keeps p₀ s) : Keeps p₀ (State.uncRead s acc a) := by
  unfold State.uncRead; try dsimp only
  repeat' first | with_reducible first | assumption | apply State.capture_keeps

theorem State.readEnds_keeps (s : State) (acc : Access) (cls a n : Nat) (o : ReadOutcome) (k0 : Keeps p₀ s) : Keeps p₀ (State.readEnds s acc cls a n o) := by
  unfold State.readEnds; try dsimp only
  repeat' first | with_reducible first | assumption | split | apply State.access_keeps | apply State.uncRead_keeps

theorem State.modCaches_keeps (s : State) (tc : Nat) (f : Caches → Caches) (k0 : Keeps p₀ s) : Keeps p₀ (State.modCaches s tc f) := by
  unfold State.modCaches; try dsimp only
  repeat' first | with_reducible exact id | with_reducible exact fun q => (length_modifyAt _ _ _).trans q | with_reducible first | assumption | apply Keeps.litAll

theorem State.ncLine_keeps (s : State) (tc r slot line : Nat) (k0 : Keeps p₀ s) : Keeps p₀ (State.ncLine s tc r slot line).2 := by
  unfold State.ncLine; try dsimp only
  repeat' first | with_reducible first | assumption | split | apply State.modCaches_keeps | apply State.bump_keeps

theorem State.ncLines_keeps (s : State) (tc r slot : Nat) (e0 : List Nat) (k0 : Keeps p₀ s) : Keeps p₀ (State.ncLines s tc r slot e0).2 := by
  induction e0 generalizing s tc r slot with
  | nil => unfold State.ncLines; first | exact k0 | skip; try dsimp only; repeat' first | assumption
  | cons e0 r0 ih =>
    unfold State.ncLines; try dsimp only
    repeat' first | with_reducible first | assumption | split | apply State.ncLine_keeps | apply ih | simp only [Keeps.lit] | (refine Keeps.ofSnd (by assumption) ?_)

theorem State.ncGather_keeps (s : State) (tc r slot : Nat) (ls : List Nat) (k0 : Keeps p₀ s) : Keeps p₀ (State.ncGather s tc r slot ls).2 := by
  unfold State.ncGather; try dsimp only
  repeat' first | with_reducible first | assumption | split | apply State.ncLines_keeps | apply State.modCaches_keeps | simp only [Keeps.lit] | (refine Keeps.ofSnd (by assumption) ?_)

theorem State.ncRead_keeps (s : State) (tc r slot off n : Nat) (k0 : Keeps p₀ s) : Keeps p₀ (State.ncRead s tc r slot off n).2 := by
  unfold State.ncRead; try dsimp only
  repeat' first | with_reducible first | assumption | split | apply State.ncGather_keeps | simp only [Keeps.lit] | (refine Keeps.ofSnd (by assumption) ?_)

theorem State.ncFillDone_keeps (s : State) (tc r : Nat) (k0 : Keeps p₀ s) : Keeps p₀ (State.ncFillDone s tc r) := by
  unfold State.ncFillDone; try dsimp only
  repeat' first | with_reducible first | assumption | split | apply State.modCaches_keeps

theorem State.ncSlotFetching_keeps (s : State) (slot : Nat) (k0 : Keeps p₀ s) : Keeps p₀ (State.ncSlotFetching s slot) := by
  unfold State.ncSlotFetching; try dsimp only
  repeat' first | with_reducible first | assumption | intro _ | apply Keeps.ite | apply Keeps.foldl | apply State.modCaches_keeps | apply State.setBit_keeps

theorem State.ncActivate_keeps (s : State) (k0 : Keeps p₀ s) : Keeps p₀ (State.ncActivate s) := by
  unfold State.ncActivate; try dsimp only
  repeat' first | with_reducible first | assumption | intro _ | apply Keeps.ite | apply Keeps.foldl | apply State.modCaches_keeps | apply State.setBit_keeps

theorem State.freeLine_keeps (s : State) (k0 : Keeps p₀ s) : Keeps p₀ (State.freeLine s).2 := by
  unfold State.freeLine; try dsimp only
  repeat' first | with_reducible first | assumption | simp only [Keeps.lit]

theorem State.evictOne_keeps (s : State) (tc : Nat) (k0 : Keeps p₀ s) : Keeps p₀ (State.evictOne s tc) := by
  unfold State.evictOne; try dsimp only
  repeat' first | with_reducible first | assumption | split | apply State.modCaches_keeps | apply State.bump_keeps | apply State.sfPut_keeps

theorem State.evictPush_keeps (s : State) (tc a : Nat) (bs : List Byte) (k0 : Keeps p₀ s) : Keeps p₀ (State.evictPush s tc a bs) := by
  unfold State.evictPush; try dsimp only
  repeat' first | with_reducible first | assumption | split | apply State.evictOne_keeps | apply State.modCaches_keeps

theorem State.evictAll_keeps (s : State) (tc : Nat) (k0 : Keeps p₀ s) : Keeps p₀ (State.evictAll s tc) := by
  unfold State.evictAll; try dsimp only
  repeat' first | with_reducible first | assumption | intro _ | apply Keeps.foldl | apply State.evictOne_keeps

theorem State.spcLine_keeps (s : State) (tc r a : Nat) (write begin_ : Bool) (k0 : Keeps p₀ s) : Keeps p₀ (State.spcLine s tc r a write begin_).2 := by
  unfold State.spcLine; try dsimp only
  repeat' first | with_reducible first | assumption | apply Keeps.ite | split | apply State.modCaches_keeps | apply State.bump_keeps | apply State.freeLine_keeps

theorem State.spcLines_keeps (s : State) (tc r : Nat) (e0 : List (Nat × Bool × Bool)) (k0 : Keeps p₀ s) : Keeps p₀ (State.spcLines s tc r e0).2 := by
  induction e0 generalizing s tc r with
  | nil => unfold State.spcLines; first | exact k0 | skip; try dsimp only; repeat' first | with_reducible first | assumption | apply State.modCaches_keeps
  | cons e0 r0 ih =>
    unfold State.spcLines; try dsimp only
    repeat' first | with_reducible first | assumption | split | apply State.spcLine_keeps | apply ih | simp only [Keeps.lit] | (refine Keeps.ofSnd (by assumption) ?_)

theorem State.spcAccess_keeps (s : State) (tc r : Nat) (l : List (Nat × Bool × Bool)) (k0 : Keeps p₀ s) : Keeps p₀ (State.spcAccess s tc r l).2 := by
  unfold State.spcAccess; try dsimp only
  repeat' first | with_reducible first | assumption | intro _ | apply Keeps.ite | split | apply Keeps.foldl | apply State.freeLine_keeps | apply State.sfPut_keeps | apply State.sfTouch_keeps | apply State.spcLines_keeps

theorem State.spcFillDone_keeps (s : State) (tc r : Nat) (k0 : Keeps p₀ s) : Keeps p₀ (State.spcFillDone s tc r) := by
  unfold State.spcFillDone; try dsimp only
  repeat' first | with_reducible first | assumption | split | apply State.modCaches_keeps | apply State.sfTouch_keeps

theorem State.giveHome_keeps (s : State) (id : Nat) (k0 : Keeps p₀ s) : Keeps p₀ (State.giveHome s id) := by
  unfold State.giveHome; try dsimp only
  repeat' first | with_reducible first | assumption | apply Keeps.ite | split | apply State.draw_keeps | apply State.modRay_keeps

theorem State.spcRelease_keeps (s : State) (tc ray : Nat) (clean : Bool) (k0 : Keeps p₀ s) : Keeps p₀ (State.spcRelease s tc ray clean) := by
  unfold State.spcRelease; try dsimp only
  repeat' first | with_reducible first | assumption | intro _ | split | apply Keeps.foldl | apply State.evictAll_keeps | apply State.evictPush_keeps | apply State.modCaches_keeps

theorem State.cmApply_keeps (s : State) (o : CmOp) (tc : Nat) (k0 : Keeps p₀ s) : Keeps p₀ (State.cmApply s o tc) := by
  unfold State.cmApply; try dsimp only
  repeat' first | with_reducible first | assumption | intro _ | apply Keeps.ite | split | apply Keeps.foldl | apply State.modCaches_keeps | apply State.evictPush_keeps | apply State.setBit_keeps

theorem State.cmLine_keeps (s : State) (o : CmOp) (x : Nat × Nat) (k0 : Keeps p₀ s) : Keeps p₀ (State.cmLine s o x) := by
  unfold State.cmLine; try dsimp only
  repeat' first | with_reducible first | assumption | apply State.cmApply_keeps

theorem State.cmStart_keeps (s : State) (w : Nat) (k0 : Keeps p₀ s) : Keeps p₀ (State.cmStart s w) := by
  unfold State.cmStart; try dsimp only
  repeat' first | with_reducible first | assumption | intro _ | apply Keeps.ite | apply Keeps.foldl | apply State.mark_keeps | apply State.setAll_keeps | apply State.cmApply_keeps | simp only [Keeps.lit]

theorem State.cmDone_keeps (s : State) (k0 : Keeps p₀ s) : Keeps p₀ (State.cmDone s) := by
  unfold State.cmDone; try dsimp only
  repeat' first | with_reducible first | assumption | intro _ | apply Keeps.ite | split | apply Keeps.foldl | apply State.cmLine_keeps | apply State.evictAll_keeps | apply State.setAll_keeps | simp only [Keeps.lit]

theorem State.parCapture_keeps (s : State) (tc : Nat) (spill dirty tagOk : Bool) (entry line : Nat) (k0 : Keeps p₀ s) : Keeps p₀ (State.parCapture s tc spill dirty tagOk entry line) := by
  unfold State.parCapture; try dsimp only
  repeat' first | with_reducible first | assumption | apply Keeps.ite | apply State.setAll_keeps

theorem State.cacheParity_keeps (s : State) (tc : Nat) (spill : Bool) (entry : Nat) (tagOk : Bool) (k0 : Keeps p₀ s) : Keeps p₀ (State.cacheParity s tc spill entry tagOk) := by
  unfold State.cacheParity; try dsimp only
  repeat' first | with_reducible first | assumption | apply Keeps.ite | split | apply State.modCaches_keeps | apply State.parCapture_keeps | apply State.bump_keeps | apply State.capture_keeps

theorem State.freeRayEntry_keeps (s : State) (ray : Nat) (k0 : Keeps p₀ s) : Keeps p₀ (State.freeRayEntry s ray) := by
  unfold State.freeRayEntry; try dsimp only
  repeat' first | with_reducible first | assumption | simp only [Keeps.lit]

theorem State.takeEntry_keeps (s : State) (ray : Nat) (k0 : Keeps p₀ s) : Keeps p₀ (State.takeEntry s ray) := by
  unfold State.takeEntry; try dsimp only
  repeat' first | with_reducible first | assumption | simp only [Keeps.lit]

theorem State.appendRay_keeps (s : State) (r : Ray) (q : TQueue) (k0 : Keeps p₀ s) : Keeps p₀ (State.appendRay s r q) := by
  unfold State.appendRay; try dsimp only
  repeat' first | with_reducible first | assumption | apply State.freeRayEntry_keeps | apply State.modRay_keeps | simp only [Keeps.lit]

theorem State.enqueue_keeps (s : State) (r : Ray) (k0 : Keeps p₀ s) : Keeps p₀ (State.enqueue s r) := by
  unfold State.enqueue; try dsimp only
  repeat' first | with_reducible first | assumption | apply Keeps.ite | split | apply State.appendRay_keeps | apply State.modRay_keeps | apply State.bump_keeps | simp only [Keeps.lit]

theorem State.drainOverflowN_keeps (s : State) (e0 : Nat) (k0 : Keeps p₀ s) : Keeps p₀ (State.drainOverflowN s e0) := by
  induction e0 generalizing s with
  | zero => unfold State.drainOverflowN; first | exact k0 | skip; try dsimp only; repeat' first | assumption
  | succ e0 ih =>
    unfold State.drainOverflowN; try dsimp only
    repeat' first | with_reducible first | assumption | apply Keeps.ite | split | apply State.enqueue_keeps | apply ih | simp only [Keeps.lit]

theorem State.drainOverflow_keeps (s : State) (k0 : Keeps p₀ s) : Keeps p₀ (State.drainOverflow s) := by
  unfold State.drainOverflow; try dsimp only
  repeat' first | with_reducible first | assumption | apply State.drainOverflowN_keeps

theorem State.freeSeg_keeps (s : State) (ray : Nat) (k0 : Keeps p₀ s) : Keeps p₀ (State.freeSeg s ray) := by
  unfold State.freeSeg; try dsimp only
  repeat' first | with_reducible first | assumption | apply State.freeRayEntry_keeps | apply State.drainOverflow_keeps

theorem State.tidyQueues_keeps (s : State) (k0 : Keeps p₀ s) : Keeps p₀ (State.tidyQueues s) := by
  unfold State.tidyQueues; try dsimp only
  repeat' first | with_reducible first | assumption | apply State.drainOverflow_keeps | simp only [Keeps.lit]

theorem State.modPlkPort_keeps (s : State) (p : Nat) (f : PlkPort → PlkPort) (k0 : Keeps p₀ s) : Keeps p₀ (State.modPlkPort s p f) := by
  unfold State.modPlkPort; try dsimp only
  repeat' first | with_reducible first | assumption | simp only [Keeps.lit]

theorem State.transmit_keeps (s : State) (p : Nat) (k : Packet) (k0 : Keeps p₀ s) : Keeps p₀ (State.transmit s p k) := by
  unfold State.transmit; try dsimp only
  repeat' first | with_reducible first | assumption | apply State.emit_keeps | apply State.bump_keeps | apply State.perf_keeps

theorem State.linkSend_keeps (s : State) (p typ arg : Nat) (k0 : Keeps p₀ s) : Keeps p₀ (State.linkSend s p typ arg) := by
  unfold State.linkSend; try dsimp only
  repeat' first | with_reducible first | assumption | apply State.transmit_keeps

theorem State.plkFree_keeps (s : State) (p pool flits : Nat) (k0 : Keeps p₀ s) : Keeps p₀ (State.plkFree s p pool flits) := by
  unfold State.plkFree; try dsimp only
  repeat' first | with_reducible first | assumption | apply State.modPlkPort_keeps

theorem State.pumpOne_keeps (s : State) (p : Nat) (k0 : Keeps p₀ s) : Keeps p₀ (State.pumpOne s p) := by
  unfold State.pumpOne; try dsimp only
  repeat' first | with_reducible first | assumption | split | apply State.modPlkPort_keeps | apply State.transmit_keeps | apply State.plkFree_keeps

theorem State.pumpN_keeps (s : State) (p : Nat) (e0 : Nat) (k0 : Keeps p₀ s) : Keeps p₀ (State.pumpN s p e0) := by
  induction e0 generalizing s p with
  | zero => unfold State.pumpN; first | exact k0 | skip; try dsimp only; repeat' first | assumption
  | succ e0 ih =>
    unfold State.pumpN; try dsimp only
    repeat' first | with_reducible first | assumption | apply Keeps.ite | apply State.pumpOne_keeps | apply ih

theorem State.pump_keeps (s : State) (p : Nat) (k0 : Keeps p₀ s) : Keeps p₀ (State.pump s p) := by
  unfold State.pump; try dsimp only
  repeat' first | with_reducible first | assumption | apply State.pumpN_keeps

theorem State.depart_keeps (s : State) (x : TxPacket) (k0 : Keeps p₀ s) : Keeps p₀ (State.depart s x).2 := by
  unfold State.depart; try dsimp only
  repeat' first | with_reducible first | assumption | split | apply State.modPlkPort_keeps | apply State.pump_keeps | apply State.bump_keeps | apply State.mark_keeps

theorem State.plkSend_keeps (s : State) (dst typ : Nat) (cls : Fin 4) (rsp : Bool) (svc arg : Nat) (payload : List Byte) (k0 : Keeps p₀ s) : Keeps p₀ (State.plkSend s dst typ cls rsp svc arg payload).2 := by
  unfold State.plkSend; try dsimp only
  repeat' first | with_reducible first | assumption | apply State.depart_keeps

theorem State.plkPost_keeps (s : State) (dst typ : Nat) (cls : Fin 4) (rsp : Bool) (svc arg : Nat) (payload : List Byte) (k0 : Keeps p₀ s) : Keeps p₀ (State.plkPost s dst typ cls rsp svc arg payload) := by
  unfold State.plkPost; try dsimp only
  repeat' first | with_reducible first | assumption | apply State.plkSend_keeps

theorem State.sendEvents_keeps (s : State) (nodes : List Nat) (ev : Nat) (k0 : Keeps p₀ s) : Keeps p₀ (State.sendEvents s nodes ev) := by
  unfold State.sendEvents; try dsimp only
  repeat' first | with_reducible first | assumption | intro _ | apply Keeps.foldl | apply State.plkPost_keeps

theorem State.loseWrite_keeps (s : State) (c : Nat) (w : PWrite) (k0 : Keeps p₀ s) : Keeps p₀ (State.loseWrite s c w) := by
  unfold State.loseWrite; try dsimp only
  repeat' first | with_reducible first | assumption | apply Keeps.ite | apply State.modQueue_keeps | apply State.setAll_keeps | apply State.raise_keeps

theorem State.fireEntry_keeps (s : State) (i : Nat) (k0 : Keeps p₀ s) : Keeps p₀ (State.fireEntry s i) := by
  unfold State.fireEntry; try dsimp only
  repeat' first | with_reducible first | assumption | apply Keeps.ite | apply State.setBit_keeps | apply State.bump_keeps | apply State.note_keeps | simp only [Keeps.lit]

theorem State.fire_keeps (s : State) (trigger arg : Nat) (k0 : Keeps p₀ s) : Keeps p₀ (State.fire s trigger arg) := by
  unfold State.fire; try dsimp only
  repeat' first | with_reducible first | assumption | intro _ | apply Keeps.ite | split | apply Keeps.foldl | apply State.fireEntry_keeps

theorem State.afterRecord_keeps (s : State) (c : Nat) (w : PWrite) (k0 : Keeps p₀ s) : Keeps p₀ (State.afterRecord s c w) := by
  unfold State.afterRecord; try dsimp only
  repeat' first | with_reducible first | assumption | intro _ | apply Keeps.ite | split | apply Keeps.foldl | apply State.modQueue_keeps | apply State.setBit_keeps | apply State.raise_keeps | apply State.sendEvents_keeps | apply State.fire_keeps

theorem State.drain_keeps (s : State) (c : Fin 4) (k0 : Keeps p₀ s) : Keeps p₀ (State.drain s c) := by
  unfold State.drain; try dsimp only
  repeat' first | with_reducible first | assumption | apply Keeps.ite | split | apply State.modQueue_keeps | apply State.request_keeps

theorem State.writeAnswered_keeps (s : State) (c : Fin 4) (bad : Bool) (k0 : Keeps p₀ s) : Keeps p₀ (State.writeAnswered s c bad) := by
  unfold State.writeAnswered; try dsimp only
  repeat' first | with_reducible first | assumption | apply Keeps.ite | split | apply State.modQueue_keeps | apply State.draw_keeps | apply State.memStore_keeps | apply State.loseWrite_keeps | apply State.memPut_keeps | apply State.afterRecord_keeps | apply State.drain_keeps

theorem State.pushWrite_keeps (s : State) (c : Fin 4) (w : PWrite) (k0 : Keeps p₀ s) : Keeps p₀ (State.pushWrite s c w) := by
  unfold State.pushWrite; try dsimp only
  repeat' first | with_reducible first | assumption | apply State.modQueue_keeps | apply State.drain_keeps

theorem State.listFail_keeps (s : State) (d : Dispatch) (r : FailRun) (k0 : Keeps p₀ s) : Keeps p₀ (State.listFail s d r) := by
  unfold State.listFail; try dsimp only
  repeat' first | with_reducible first | assumption | apply Keeps.ite | apply State.modDisp_keeps | apply State.pushWrite_keeps

theorem State.countWindow_keeps (s : State) (n status : Nat) (u : Option EUnit) (k0 : Keeps p₀ s) : Keeps p₀ (State.countWindow s n status u) := by
  unfold State.countWindow; try dsimp only
  repeat' first | with_reducible first | assumption | apply Keeps.ite | simp only [Keeps.lit]

theorem State.failItems_keeps (s : State) (id first count status : Nat) (u : Option EUnit) (k0 : Keeps p₀ s) : Keeps p₀ (State.failItems s id first count status u) := by
  unfold State.failItems; try dsimp only
  repeat' first | with_reducible first | assumption | intro _ | split | apply Keeps.foldl | apply State.modDisp_keeps | apply State.perf_keeps | apply State.countWindow_keeps | apply State.listFail_keeps

theorem State.failItem_keeps (s : State) (id item status : Nat) (u : Option EUnit) (k0 : Keeps p₀ s) : Keeps p₀ (State.failItem s id item status u) := by
  unfold State.failItem; try dsimp only
  repeat' first | with_reducible first | assumption | apply State.failItems_keeps

theorem State.endItem_keeps (s : State) (id item : Nat) (u : EUnit) (k0 : Keeps p₀ s) : Keeps p₀ (State.endItem s id item u) := by
  unfold State.endItem; try dsimp only
  repeat' first | with_reducible first | assumption | apply Keeps.ite | split | apply State.modDisp_keeps | apply State.perf_keeps

theorem State.appendEntry_keeps (s : State) (u : EUnit) (id q : Nat) (e : QEntry) (bs : List Byte) (k0 : Keeps p₀ s) : Keeps p₀ (State.appendEntry s u id q e bs) := by
  unfold State.appendEntry; try dsimp only
  repeat' first | with_reducible first | assumption | split | apply State.sfPut_keeps | apply State.modDisp_keeps

theorem State.append_keeps (s : State) (u : EUnit) (id q : Nat) (item count flags : Nat) (ended : Bool) (ray : Nat) (bs : List Byte) (k0 : Keeps p₀ s) : Keeps p₀ (State.append s u id q item count flags ended ray bs) := by
  unfold State.append; try dsimp only
  repeat' first | with_reducible first | assumption | apply State.appendEntry_keeps

theorem State.dropRay_keeps (s : State) (ray : Nat) (k0 : Keeps p₀ s) : Keeps p₀ (State.dropRay s ray) := by
  unfold State.dropRay; try dsimp only
  repeat' first | with_reducible first | assumption | apply State.freeSeg_keeps | simp only [Keeps.lit]

theorem State.freeEntry_keeps (s : State) (id q pos : Nat) (k0 : Keeps p₀ s) : Keeps p₀ (State.freeEntry s id q pos) := by
  unfold State.freeEntry; try dsimp only
  repeat' first | with_reducible first | assumption | apply Keeps.ite | split | apply State.modDisp_keeps | apply State.dropRay_keeps

theorem State.holdEntry_keeps (s : State) (id q pos : Nat) (b : Bool) (k0 : Keeps p₀ s) : Keeps p₀ (State.holdEntry s id q pos b) := by
  unfold State.holdEntry; try dsimp only
  repeat' first | with_reducible first | assumption | apply State.modDisp_keeps

theorem State.passMarked_keeps (s : State) (id q : Nat) (k0 : Keeps p₀ s) : Keeps p₀ (State.passMarked s id q) := by
  unfold State.passMarked; try dsimp only
  repeat' first | with_reducible first | assumption | intro _ | split | apply Keeps.foldl | apply State.freeEntry_keeps

theorem State.produce_keeps (s : State) (u : EUnit) (id : Nat) (t : Stage) (item flags ray : Nat) (ended : Bool) (bs : List Byte) (k0 : Keeps p₀ s) : Keeps p₀ (State.produce s u id t item flags ray ended bs) := by
  unfold State.produce; try dsimp only
  repeat' first | with_reducible first | assumption | apply Keeps.ite | apply State.endItem_keeps | apply State.append_keeps

theorem State.readPoison_keeps (s : State) (a n : Nat) (k0 : Keeps p₀ s) : Keeps p₀ (State.readPoison s a n).2 := by
  unfold State.readPoison; try dsimp only
  repeat' first | with_reducible first | assumption | split | apply State.capture_keeps

theorem State.failDispatches_keeps (s : State) (p : Dispatch → Bool) (status : Nat) (u : Option EUnit) (k0 : Keeps p₀ s) : Keeps p₀ (State.failDispatches s p status u) := by
  unfold State.failDispatches; try dsimp only
  repeat' first | with_reducible first | assumption | intro _ | apply Keeps.foldl | apply State.failItems_keeps | apply State.modDisp_keeps

theorem State.beginHold_keeps (s : State) (k0 : Keeps p₀ s) : Keeps p₀ (State.beginHold s) := by
  unfold State.beginHold; try dsimp only
  repeat' first | with_reducible first | assumption | apply Keeps.ite | apply State.mark_keeps

theorem State.ldrReport_keeps (s : State) (code detail : Nat) (k0 : Keeps p₀ s) : Keeps p₀ (State.ldrReport s code detail) := by
  unfold State.ldrReport; try dsimp only
  repeat' first | with_reducible first | assumption | apply State.setAll_keeps

theorem State.ldrLoad_keeps (s : State) (k0 : Keeps p₀ s) : Keeps p₀ (State.ldrLoad s) := by
  unfold State.ldrLoad; try dsimp only
  repeat' first | with_reducible first | assumption | apply Keeps.ite | split | apply State.set_keeps | apply State.ldrReport_keeps | simp only [Keeps.lit]

theorem State.ldrActivate_keeps (s : State) (k0 : Keeps p₀ s) : Keeps p₀ (State.ldrActivate s) := by
  unfold State.ldrActivate; try dsimp only
  repeat' first | with_reducible first | assumption | apply Keeps.ite | apply State.set_keeps

theorem State.ldrEnd_keeps (s : State) (k0 : Keeps p₀ s) : Keeps p₀ (State.ldrEnd s) := by
  unfold State.ldrEnd; try dsimp only
  repeat' first | with_reducible first | assumption | simp only [Keeps.lit]

theorem State.ldrDiscard_keeps (s : State) (k0 : Keeps p₀ s) : Keeps p₀ (State.ldrDiscard s) := by
  unfold State.ldrDiscard; try dsimp only
  repeat' first | with_reducible first | assumption | apply Keeps.ite | apply State.ldrEnd_keeps | apply State.set_keeps | apply State.ldrReport_keeps | simp only [Keeps.lit]

theorem State.ldrFail_keeps (s : State) (code detail : Nat) (k0 : Keeps p₀ s) : Keeps p₀ (State.ldrFail s code detail) := by
  unfold State.ldrFail; try dsimp only
  repeat' first | with_reducible first | assumption | apply State.set_keeps | apply State.ldrEnd_keeps | apply State.ldrReport_keeps

theorem State.ldrCommand_keeps (s : State) (cmd : Nat) (k0 : Keeps p₀ s) : Keeps p₀ (State.ldrCommand s cmd) := by
  unfold State.ldrCommand; try dsimp only
  repeat' first | with_reducible first | assumption | split | apply State.ldrLoad_keeps | apply State.ldrActivate_keeps | apply State.ldrDiscard_keeps

theorem State.ldrAbort_keeps (s : State) (a : Nat) (k0 : Keeps p₀ s) : Keeps p₀ (State.ldrAbort s a) := by
  unfold State.ldrAbort; try dsimp only
  repeat' first | with_reducible first | assumption | apply Keeps.ite | apply State.ldrFail_keeps

theorem State.validationEnd_keeps (s : State) (r : LoadRead) (k0 : Keeps p₀ s) : Keeps p₀ (State.validationEnd s r) := by
  unfold State.validationEnd; try dsimp only
  repeat' first | with_reducible first | assumption | apply Keeps.ite | split | apply State.ldrFail_keeps | apply State.uncRead_keeps | apply State.access_keeps | apply State.setAll_keeps | apply State.ldrReport_keeps | simp only [Keeps.lit]

theorem State.imageEpoch_keeps (s : State) (k0 : Keeps p₀ s) : Keeps p₀ (State.imageEpoch s) := by
  unfold State.imageEpoch; try dsimp only
  repeat' first | with_reducible exact id | with_reducible exact fun q => (List.length_map _).trans q | exact swf_sclear _ _ _ | exact fun q => stores_map (by intro l; first | rfl | ((try dsimp only); split <;> rfl)) q | exact fun _ => rfl | with_reducible first | assumption | apply Keeps.ite | split | apply State.set_keeps | apply State.ncActivate_keeps | apply Keeps.litAll

theorem State.fetchPlace_keeps (s : State) (im : Image) (half : Nat) (l : PlacedLayer) (i : Nat) (count : Bool) (k0 : Keeps p₀ s) : Keeps p₀ (State.fetchPlace s im half l i count) := by
  unfold State.fetchPlace; try dsimp only
  repeat' first | with_reducible exact id | with_reducible exact fun q => (length_modifyAt _ _ _).trans q | with_reducible first | assumption | intro _ | split | apply Keeps.foldl | apply State.access_keeps | apply Keeps.litAll

theorem State.fetchHalf_keeps (s : State) (im : Image) (half : Nat) (p : Nat → Bool) (k0 : Keeps p₀ s) : Keeps p₀ (State.fetchHalf s im half p) := by
  unfold State.fetchHalf; try dsimp only
  repeat' first | with_reducible first | assumption | intro _ | apply Keeps.foldl | apply State.fetchPlace_keeps

theorem State.switchOver_keeps (s : State) (own : Image → Nat → Bool) (k0 : Keeps p₀ s) : Keeps p₀ (State.switchOver s own) := by
  unfold State.switchOver; try dsimp only
  repeat' first | with_reducible first | assumption | apply Keeps.ite | split | apply State.setAll_keeps | apply State.raise_keeps | apply State.fetchHalf_keeps | simp only [Keeps.lit]

theorem State.actTimeout_keeps (s : State) (k0 : Keeps p₀ s) : Keeps p₀ (State.actTimeout s) := by
  unfold State.actTimeout; try dsimp only
  repeat' first | with_reducible first | assumption | apply Keeps.ite | apply State.setAll_keeps

theorem State.dqShow_keeps (s : State) (c : Nat) (k0 : Keeps p₀ s) : Keeps p₀ (State.dqShow s c) := by
  unfold State.dqShow; try dsimp only
  repeat' first | with_reducible first | assumption | split | apply State.set_keeps

theorem State.dqFault_keeps (s : State) (c : Nat) (k0 : Keeps p₀ s) : Keeps p₀ (State.dqFault s c) := by
  unfold State.dqFault; try dsimp only
  repeat' first | with_reducible first | assumption | apply State.modQueue_keeps | apply State.dqShow_keeps | apply State.raise_keeps

theorem State.wake_keeps (s : State) (src : Nat) (k0 : Keeps p₀ s) : Keeps p₀ (State.wake s src) := by
  unfold State.wake; try dsimp only
  repeat' first | with_reducible first | assumption | apply State.setAll_keeps

theorem State.dqTail_keeps (s : State) (c v : Nat) (k0 : Keeps p₀ s) : Keeps p₀ (State.dqTail s c v) := by
  unfold State.dqTail; try dsimp only
  repeat' first | with_reducible first | assumption | apply Keeps.ite | apply State.mark_keeps | apply State.set_keeps | apply State.wake_keeps

theorem State.dqCommand_keeps (s : State) (c cmd : Nat) (k0 : Keeps p₀ s) : Keeps p₀ (State.dqCommand s c cmd) := by
  unfold State.dqCommand; try dsimp only
  repeat' first | with_reducible first | assumption | apply Keeps.ite | split | apply State.modQueue_keeps | apply State.dqShow_keeps

theorem State.recordRead_keeps (s : State) (c : Fin 4) (r : ReadOutcome) (k0 : Keeps p₀ s) : Keeps p₀ (State.recordRead s c r) := by
  unfold State.recordRead; try dsimp only
  repeat' first | with_reducible first | assumption | apply Keeps.ite | apply State.readEnds_keeps | apply State.dqFault_keeps | apply State.modQueue_keeps

theorem State.preemptFor_keeps (s : State) (c : Chain) (k0 : Keeps p₀ s) : Keeps p₀ (State.preemptFor s c) := by
  unfold State.preemptFor; try dsimp only
  repeat' first | with_reducible first | assumption | intro _ | apply Keeps.ite | apply Keeps.foldl | simp only [Keeps.lit]

theorem State.rejectDispatch_keeps (s : State) (id status itemStatus : Nat) (k0 : Keeps p₀ s) : Keeps p₀ (State.rejectDispatch s id status itemStatus) := by
  unfold State.rejectDispatch; try dsimp only
  repeat' first | with_reducible first | assumption | split | apply State.modDisp_keeps | apply State.failItems_keeps

theorem State.takeRecord_keeps (s : State) (c : Nat) (r : DispRec) (triggered flushed : Bool) (k0 : Keeps p₀ s) : Keeps p₀ (State.takeRecord s c r triggered flushed) := by
  unfold State.takeRecord; try dsimp only
  repeat' first | with_reducible first | assumption | apply Keeps.ite | split | apply State.tally_keeps | apply State.rejectDispatch_keeps | apply State.modDisp_keeps | apply State.preemptFor_keeps | simp only [Keeps.lit]

theorem State.dispatchTake_keeps (s : State) (c : Nat) (k0 : Keeps p₀ s) : Keeps p₀ (State.dispatchTake s c) := by
  unfold State.dispatchTake; try dsimp only
  repeat' first | with_reducible first | assumption | apply Keeps.ite | split | apply State.set_keeps | apply State.modQueue_keeps | apply State.takeRecord_keeps | apply State.dqShow_keeps

theorem State.paramEnds_keeps (s : State) (d : Dispatch) (ch : Chain) (r desc : ReadOutcome) (k0 : Keeps p₀ s) : Keeps p₀ (State.paramEnds s d ch r desc) := by
  unfold State.paramEnds; try dsimp only
  repeat' first | with_reducible first | assumption | split | apply State.readEnds_keeps | apply State.rejectDispatch_keeps | apply State.modDisp_keeps

theorem State.paramRead_keeps (s : State) (id : Nat) (r desc : ReadOutcome) (k0 : Keeps p₀ s) : Keeps p₀ (State.paramRead s id r desc) := by
  unfold State.paramRead; try dsimp only
  repeat' first | with_reducible first | assumption | apply Keeps.ite | split | apply State.paramEnds_keeps

theorem State.paramLost_keeps (s : State) (id : Nat) (desc : Bool) (k0 : Keeps p₀ s) : Keeps p₀ (State.paramLost s id desc) := by
  unfold State.paramLost; try dsimp only
  repeat' first | with_reducible first | assumption | apply Keeps.ite | split | apply State.paramEnds_keeps

theorem State.complete_keeps (s : State) (c : Fin 4) (k0 : Keeps p₀ s) : Keeps p₀ (State.complete s c) := by
  unfold State.complete; try dsimp only
  repeat' first | with_reducible first | assumption | apply Keeps.ite | split | apply State.pushWrite_keeps | simp only [Keeps.lit]

theorem State.doneLostRead_keeps (s : State) (c : Fin 4) (k0 : Keeps p₀ s) : Keeps p₀ (State.doneLostRead s c) := by
  unfold State.doneLostRead; try dsimp only
  repeat' first | with_reducible first | assumption | apply Keeps.ite | split | apply State.set_keeps | apply State.modQueue_keeps | apply State.loseWrite_keeps | apply State.drain_keeps

theorem State.frameEvent_keeps (s : State) (n : Nat) (k0 : Keeps p₀ s) : Keeps p₀ (State.frameEvent s n) := by
  unfold State.frameEvent; try dsimp only
  repeat' first | with_reducible first | assumption | apply Keeps.ite | apply State.fire_keeps | apply State.wake_keeps

theorem State.schedPlaced_keeps (s : State) (i : Fin 32) (r : ReadOutcome) (k0 : Keeps p₀ s) : Keeps p₀ (State.schedPlaced s i r) := by
  unfold State.schedPlaced; try dsimp only
  repeat' first | with_reducible exact id | with_reducible exact fun q => (length_modifyAt _ _ _).trans q | with_reducible first | assumption | apply Keeps.ite | split | apply State.readEnds_keeps | apply State.modQueue_keeps | apply State.note_keeps | simp only [Keeps.lit] | apply Keeps.litAll

theorem State.schedEnable_keeps (s : State) (v : Nat) (k0 : Keeps p₀ s) : Keeps p₀ (State.schedEnable s v) := by
  unfold State.schedEnable; try dsimp only
  repeat' first | with_reducible exact id | exact fun _ => rfl | with_reducible first | assumption | apply State.set_keeps | apply Keeps.litAll

theorem State.ownChanged_keeps (s : State) (k0 : Keeps p₀ s) : Keeps p₀ (State.ownChanged s) := by
  unfold State.ownChanged; try dsimp only
  repeat' first | with_reducible first | assumption | apply State.set_keeps | apply State.bump_keeps

theorem State.grant_keeps (s : State) (m : Nat) (k0 : Keeps p₀ s) : Keeps p₀ (State.grant s m) := by
  unfold State.grant; try dsimp only
  repeat' first | with_reducible first | assumption | apply State.setAll_keeps | apply State.ownChanged_keeps | simp only [Keeps.lit]

theorem State.deny_keeps (s : State) (m addr : Nat) (k0 : Keeps p₀ s) : Keeps p₀ (State.deny s m addr) := by
  unfold State.deny; try dsimp only
  repeat' first | with_reducible first | assumption | apply Keeps.ite | apply State.setAll_keeps

theorem State.claim_keeps (s : State) (m id : Nat) (k0 : Keeps p₀ s) : Keeps p₀ (State.claim s m id) := by
  unfold State.claim; try dsimp only
  repeat' first | with_reducible first | assumption | apply Keeps.ite | apply State.deny_keeps | simp only [Keeps.lit]

theorem State.claimEnd_keeps (s : State) (k0 : Keeps p₀ s) : Keeps p₀ (State.claimEnd s) := by
  unfold State.claimEnd; try dsimp only
  repeat' first | with_reducible first | assumption | apply Keeps.ite | split | apply State.grant_keeps | simp only [Keeps.lit]

theorem State.handover_keeps (s : State) (m succ : Nat) (release : Bool) (k0 : Keeps p₀ s) : Keeps p₀ (State.handover s m succ release) := by
  unfold State.handover; try dsimp only
  repeat' first | with_reducible first | assumption | apply Keeps.ite | apply State.setAll_keeps | apply State.ownChanged_keeps | apply State.grant_keeps | simp only [Keeps.lit]

theorem State.heartbeat_keeps (s : State) (k0 : Keeps p₀ s) : Keeps p₀ (State.heartbeat s) := by
  unfold State.heartbeat; try dsimp only
  repeat' first | with_reducible first | assumption | simp only [Keeps.lit]

theorem State.heartbeatLost_keeps (s : State) (k0 : Keeps p₀ s) : Keeps p₀ (State.heartbeatLost s) := by
  unfold State.heartbeatLost; try dsimp only
  repeat' first | with_reducible first | assumption | apply Keeps.ite | apply State.setAll_keeps | apply State.ownChanged_keeps

end Sys2Proof.Machine
end

