-- ==== Sys2Proof/Laws/KeepsTrace.lean ====
section
/-! SUPPORT. One lemma for each operation over rays, windows, streams, power and the ray sorter:
what `Keeps` says of it, for the state it is given and the state it answers. -/

namespace Sys2Proof.Machine

variable {p₀ : State}

theorem State.ttRead_keeps (s : State) (id cls : Nat) (d : List Byte) (i : Nat) (k0 : Keeps p₀ s) : Keeps p₀ (State.ttRead s id cls d i) := by
  unfold State.ttRead; try dsimp only
  repeat' first | with_reducible first | assumption | apply Keeps.ite | apply State.access_keeps

theorem State.leaveBatch_keeps (s : State) (ray : Nat) (k0 : Keeps p₀ s) : Keeps p₀ (State.leaveBatch s ray) := by
  unfold State.leaveBatch; try dsimp only
  repeat' first | with_reducible first | assumption | simp only [Keeps.lit]

theorem State.closeBlock_keeps (s : State) (id : Nat) (k0 : Keeps p₀ s) : Keeps p₀ (State.closeBlock s id) := by
  unfold State.closeBlock; try dsimp only
  repeat' first | with_reducible first | assumption | apply Keeps.ite | split | apply State.append_keeps | apply State.bump_keeps | simp only [Keeps.lit]

theorem State.closeFull_keeps (s : State) (k0 : Keeps p₀ s) : Keeps p₀ (State.closeFull s) := by
  unfold State.closeFull; try dsimp only
  repeat' first | with_reducible first | assumption | intro _ | apply Keeps.ite | apply Keeps.foldl | apply State.closeBlock_keeps

theorem State.gather_keeps (s : State) (id stage : Nat) (q : GQuery) (k0 : Keeps p₀ s) : Keeps p₀ (State.gather s id stage q) := by
  unfold State.gather; try dsimp only
  repeat' first | with_reducible first | assumption | split | apply State.closeFull_keeps | simp only [Keeps.lit]

theorem State.settleRay_keeps (s : State) (r : Ray) (k0 : Keeps p₀ s) : Keeps p₀ (State.settleRay s r) := by
  unfold State.settleRay; try dsimp only
  repeat' first | with_reducible first | assumption | apply Keeps.ite | split | apply State.endItem_keeps | apply State.dropRay_keeps | apply State.append_keeps | apply State.modRay_keeps

theorem State.flushRays_keeps (s : State) (k0 : Keeps p₀ s) : Keeps p₀ (State.flushRays s) := by
  unfold State.flushRays; try dsimp only
  repeat' first | with_reducible first | assumption | intro _ | apply Keeps.foldl | apply State.settleRay_keeps | apply State.closeFull_keeps

theorem State.finishOwn_keeps (s : State) (r : Ray) (fin : List Byte) (failed : Bool) (k0 : Keeps p₀ s) : Keeps p₀ (State.finishOwn s r fin failed) := by
  unfold State.finishOwn; try dsimp only
  repeat' first | with_reducible first | assumption | split | apply State.spcRelease_keeps | apply State.leaveBatch_keeps | apply State.takeEntry_keeps | apply State.modRay_keeps | apply State.flushRays_keeps | apply State.tidyQueues_keeps

theorem State.writeResult_keeps (s : State) (d : Dispatch) (item : Nat) (rcd list : List Byte) (k0 : Keeps p₀ s) : Keeps p₀ (State.writeResult s d item rcd list) := by
  unfold State.writeResult; try dsimp only
  repeat' first | with_reducible first | assumption | split | apply State.memPut_keeps

theorem State.qryCapture_keeps (s : State) (status cause : Nat) (u : Option EUnit) (qid treelet : Nat) (k0 : Keeps p₀ s) : Keeps p₀ (State.qryCapture s status cause u qid treelet) := by
  unfold State.qryCapture; try dsimp only
  repeat' first | with_reducible first | assumption | apply Keeps.ite | apply State.bump_keeps | apply State.setAll_keeps

theorem State.tgCapture_keeps (s : State) (tc status cause rayId treelet : Nat) (k0 : Keeps p₀ s) : Keeps p₀ (State.tgCapture s tc status cause rayId treelet) := by
  unfold State.tgCapture; try dsimp only
  repeat' first | with_reducible first | assumption | apply Keeps.ite | apply State.bump_keeps | apply State.setAll_keeps

theorem State.endOwnQuery_keeps (s : State) (r : Ray) (rcd bytes : List Byte) (u : Option EUnit) (k0 : Keeps p₀ s) : Keeps p₀ (State.endOwnQuery s r rcd bytes u) := by
  unfold State.endOwnQuery; try dsimp only
  repeat' first | with_reducible first | assumption | apply Keeps.ite | split | apply State.spcRelease_keeps | apply State.leaveBatch_keeps | apply State.takeEntry_keeps | apply State.modRay_keeps | apply State.gather_keeps | apply State.tidyQueues_keeps | apply State.writeResult_keeps | apply State.finishOwn_keeps | apply State.dropRay_keeps

theorem State.recordArrives_keeps (s : State) (query : Bool) (arg : Nat) (bs : List Byte) (k0 : Keeps p₀ s) : Keeps p₀ (State.recordArrives s query arg bs) := by
  unfold State.recordArrives; try dsimp only
  repeat' first | with_reducible first | assumption | apply Keeps.ite | split | apply State.bump_keeps | apply State.freeSeg_keeps | apply State.modRay_keeps | apply State.failItem_keeps | apply State.endOwnQuery_keeps | apply State.finishOwn_keeps

theorem State.finishRay_keeps (s : State) (r : Ray) (fin extra : List Byte) (failed : Bool) (k0 : Keeps p₀ s) : Keeps p₀ (State.finishRay s r fin extra failed) := by
  unfold State.finishRay; try dsimp only
  repeat' first | with_reducible first | assumption | apply Keeps.ite | split | apply State.spcRelease_keeps | apply State.leaveBatch_keeps | apply State.dropRay_keeps | apply State.tidyQueues_keeps | apply State.recordArrives_keeps | apply State.plkPost_keeps | apply State.finishOwn_keeps

theorem State.endQuery_keeps (s : State) (r : Ray) (status : Nat) (u : Option EUnit) (k0 : Keeps p₀ s) : Keeps p₀ (State.endQuery s r status u) := by
  unfold State.endQuery; try dsimp only
  repeat' first | with_reducible first | assumption | split | apply State.finishRay_keeps | apply State.endOwnQuery_keeps

theorem State.failRay_keeps (s : State) (r : Ray) (status cause : Nat) (u : EUnit) (byCluster : Bool) (k0 : Keeps p₀ s) : Keeps p₀ (State.failRay s r status cause u byCluster) := by
  unfold State.failRay; try dsimp only
  repeat' first | with_reducible first | assumption | apply Keeps.ite | split | apply State.qryCapture_keeps | apply State.tgCapture_keeps | apply State.capture_keeps | apply State.failItem_keeps | apply State.endQuery_keeps | apply State.finishRay_keeps

theorem State.loseRay_keeps (s : State) (r : Ray) (u : Option EUnit) (k0 : Keeps p₀ s) : Keeps p₀ (State.loseRay s r u) := by
  unfold State.loseRay; try dsimp only
  repeat' first | with_reducible first | assumption | apply Keeps.ite | split | apply State.qryCapture_keeps | apply State.tgCapture_keeps | apply State.endQuery_keeps | apply State.finishRay_keeps

theorem State.sorterFail_keeps (s : State) (r : Ray) (status cause : Nat) (k0 : Keeps p₀ s) : Keeps p₀ (State.sorterFail s r status cause) := by
  unfold State.sorterFail; try dsimp only
  repeat' first | with_reducible first | assumption | apply State.failRay_keeps

theorem State.forwardRay_keeps (s : State) (r : Ray) (node : Nat) (k0 : Keeps p₀ s) : Keeps p₀ (State.forwardRay s r node) := by
  unfold State.forwardRay; try dsimp only
  repeat' first | with_reducible first | assumption | split | apply State.draw_keeps | apply State.plkSend_keeps | apply State.bump_keeps | apply State.modRay_keeps | apply State.failRay_keeps | simp only [Keeps.lit]

theorem State.unserved_keeps (s : State) (r : Ray) (t : Stage) (k0 : Keeps p₀ s) : Keeps p₀ (State.unserved s r t) := by
  unfold State.unserved; try dsimp only
  repeat' first | with_reducible first | assumption | apply State.failRay_keeps

theorem State.binRay_keeps (s : State) (r : Ray) (k0 : Keeps p₀ s) : Keeps p₀ (State.binRay s r) := by
  unfold State.binRay; try dsimp only
  repeat' first | with_reducible first | assumption | apply Keeps.ite | split | apply State.sorterFail_keeps | apply State.forwardRay_keeps | apply State.unserved_keeps | apply State.enqueue_keeps

theorem State.rreadSend_keeps (s : State) (acc : Access) (cls node a n : Nat) (k0 : Keeps p₀ s) : Keeps p₀ (State.rreadSend s acc cls node a n).2 := by
  unfold State.rreadSend; try dsimp only
  repeat' first | with_reducible first | assumption | split | apply State.plkSend_keeps | simp only [Keeps.lit] | (refine Keeps.ofSnd (by assumption) ?_)

theorem State.windowReads_keeps (s : State) (acc : Access) (cls : Nat) (sectors : List Nat) (k0 : Keeps p₀ s) : Keeps p₀ (State.windowReads s acc cls sectors).2 := by
  unfold State.windowReads; try dsimp only
  repeat' first | with_reducible first | assumption | intro _ | apply Keeps.foldlSnd | apply State.rreadSend_keeps

theorem State.modSe_keeps (s : State) (e : Nat) (f : StreamEng → StreamEng) (k0 : Keeps p₀ s) : Keeps p₀ (State.modSe s e f) := by
  unfold State.modSe; try dsimp only
  repeat' first | with_reducible exact id | with_reducible exact fun q => (length_modifyAt _ _ _).trans q | with_reducible first | assumption | apply Keeps.litAll

theorem State.modRun_keeps (s : State) (e : Nat) (f : Run → Run) (k0 : Keeps p₀ s) : Keeps p₀ (State.modRun s e f) := by
  unfold State.modRun; try dsimp only
  repeat' first | with_reducible first | assumption | apply State.modSe_keeps

theorem State.seWait_keeps (s : State) (e w : Nat) (k0 : Keeps p₀ s) : Keeps p₀ (State.seWait s e w) := by
  unfold State.seWait; try dsimp only
  repeat' first | with_reducible first | assumption | apply State.modSe_keeps

theorem State.restartAt_keeps (s : State) (n : Nat) (r : Run) (e : Nat) (k0 : Keeps p₀ s) : Keeps p₀ (State.restartAt s n r e) := by
  unfold State.restartAt; try dsimp only
  repeat' first | with_reducible first | assumption | apply State.setAll_keeps

theorem State.startRun_keeps (s : State) (n : Nat) (r : Run) (k0 : Keeps p₀ s) : Keeps p₀ (State.startRun s n r) := by
  unfold State.startRun; try dsimp only
  repeat' first | with_reducible first | assumption | apply State.modSe_keeps | apply State.restartAt_keeps | apply State.setAll_keeps

theorem State.streamItemGone_keeps (s : State) (x : StreamItem) (k0 : Keeps p₀ s) : Keeps p₀ (State.streamItemGone s x) := by
  unfold State.streamItemGone; try dsimp only
  repeat' first | with_reducible first | assumption | split | apply State.freeEntry_keeps | simp only [Keeps.lit]

theorem State.streamItemFails_keeps (s : State) (x : StreamItem) (status : Nat) (u : EUnit) (k0 : Keeps p₀ s) : Keeps p₀ (State.streamItemFails s x status u) := by
  unfold State.streamItemFails; try dsimp only
  repeat' first | with_reducible first | assumption | split | apply State.failItem_keeps | apply State.modDisp_keeps | apply State.passMarked_keeps | apply State.flushRays_keeps | apply State.streamItemGone_keeps

theorem State.streamItemEnds_keeps (s : State) (x : StreamItem) (e : Nat) (k0 : Keeps p₀ s) : Keeps p₀ (State.streamItemEnds s x e) := by
  unfold State.streamItemEnds; try dsimp only
  repeat' first | with_reducible first | assumption | split | apply State.endItem_keeps | apply State.streamItemGone_keeps

theorem State.startShadow_keeps (s : State) (n : Nat) (k0 : Keeps p₀ s) : Keeps p₀ (State.startShadow s n) := by
  unfold State.startShadow; try dsimp only
  repeat' first | with_reducible first | assumption | split | apply State.modSe_keeps | apply State.startRun_keeps

theorem State.dropRunWaits_keeps (s : State) (n : Nat) (k0 : Keeps p₀ s) : Keeps p₀ (State.dropRunWaits s n) := by
  unfold State.dropRunWaits; try dsimp only
  repeat' first | with_reducible first | assumption | simp only [Keeps.lit]

theorem State.endRun_keeps (s : State) (n : Nat) (r : Run) (st : Nat) (k0 : Keeps p₀ s) : Keeps p₀ (State.endRun s n r st) := by
  unfold State.endRun; try dsimp only
  repeat' first | with_reducible first | assumption | split | apply State.dropRunWaits_keeps | apply State.set_keeps | apply State.bump_keeps | apply State.setBit_keeps | apply State.raise_keeps | apply State.streamItemFails_keeps | apply State.streamItemEnds_keeps | apply State.startShadow_keeps | simp only [Keeps.lit]

theorem State.appendTile_keeps (s : State) (n : Nat) (r : Run) (d : Dispatch) (t : Stage) (bs : List Byte) (k0 : Keeps p₀ s) : Keeps p₀ (State.appendTile s n r d t bs) := by
  unfold State.appendTile; try dsimp only
  repeat' first | with_reducible first | assumption | split | apply State.appendEntry_keeps

theorem State.appendTiles_keeps (s : State) (n : Nat) (e0 : Nat) (k0 : Keeps p₀ s) : Keeps p₀ (State.appendTiles s n e0) := by
  induction e0 generalizing s n with
  | zero => unfold State.appendTiles; first | exact k0 | skip; try dsimp only; repeat' first | assumption
  | succ e0 ih =>
    unfold State.appendTiles; try dsimp only
    repeat' first | with_reducible first | assumption | apply Keeps.ite | split | apply State.appendTile_keeps | apply State.modRun_keeps | apply ih

theorem State.deliver_keeps (s : State) (n : Nat) (r : Run) (e : Nat) (bs : List Byte) (k0 : Keeps p₀ s) : Keeps p₀ (State.deliver s n r e bs) := by
  unfold State.deliver; try dsimp only
  repeat' first | with_reducible first | assumption | apply Keeps.ite | split | apply State.modRun_keeps | apply State.memPut_keeps | apply State.sfPut_keeps | apply State.tally2_keeps | apply State.setAll_keeps | apply State.set_keeps

theorem State.stopRun_keeps (s : State) (n : Nat) (e st : Nat) (k0 : Keeps p₀ s) : Keeps p₀ (State.stopRun s n e st) := by
  unfold State.stopRun; try dsimp only
  repeat' first | with_reducible first | assumption | apply Keeps.ite | split | apply State.restartAt_keeps | apply State.modRun_keeps

theorem State.elemBytes_keeps (s : State) (r : Run) (e : Nat) (k0 : Keeps p₀ s) : Keeps p₀ (State.elemBytes s r e).2 := by
  unfold State.elemBytes; try dsimp only
  repeat' first | with_reducible first | assumption | split | apply State.readPoison_keeps | simp only [Keeps.lit] | (refine Keeps.ofSnd (by assumption) ?_)

theorem State.deliverElems_keeps (s : State) (n : Nat) (es : List Nat) (k0 : Keeps p₀ s) : Keeps p₀ (State.deliverElems s n es) := by
  unfold State.deliverElems; try dsimp only
  repeat' first | with_reducible first | assumption | intro _ | apply Keeps.ite | split | apply Keeps.foldl | apply State.elemBytes_keeps | apply State.stopRun_keeps | apply State.deliver_keeps | (refine Keeps.ofSnd (by assumption) ?_)

theorem State.handBack_keeps (s : State) (n : Nat) (r : Run) (head tail : Nat) (k0 : Keeps p₀ s) : Keeps p₀ (State.handBack s n r head tail) := by
  unfold State.handBack; try dsimp only
  repeat' first | with_reducible first | assumption | apply State.memPut_keeps | apply State.request_keeps | apply State.modRun_keeps

theorem State.takeRing_keeps (s : State) (n : Nat) (x : Xfer) (k0 : Keeps p₀ s) : Keeps p₀ (State.takeRing s n x) := by
  unfold State.takeRing; try dsimp only
  repeat' first | with_reducible first | assumption | intro _ | apply Keeps.ite | split | apply Keeps.foldl | apply State.modRun_keeps | apply State.deliver_keeps | apply State.stopRun_keeps | apply State.set_keeps | apply State.handBack_keeps

theorem State.runWrites_keeps (s : State) (n : Nat) (es : List Nat) (k0 : Keeps p₀ s) : Keeps p₀ (State.runWrites s n es) := by
  unfold State.runWrites; try dsimp only
  repeat' first | with_reducible first | assumption | intro _ | split | apply Keeps.foldl | apply State.request_keeps

theorem State.turn_keeps (s : State) (n : Nat) (e0 : Nat) (k0 : Keeps p₀ s) : Keeps p₀ (State.turn s n e0) := by
  induction e0 generalizing s n with
  | zero => unfold State.turn; first | exact k0 | skip; try dsimp only; repeat' first | assumption
  | succ e0 ih =>
    unfold State.turn; try dsimp only
    repeat' first | with_reducible first | assumption | apply Keeps.ite | split | apply State.modRun_keeps | apply State.takeRing_keeps | apply State.runWrites_keeps | apply State.deliverElems_keeps | apply ih

theorem State.settleRun_keeps (s : State) (n : Nat) (e0 : Nat) (k0 : Keeps p₀ s) : Keeps p₀ (State.settleRun s n e0) := by
  induction e0 generalizing s n with
  | zero => unfold State.settleRun; first | exact k0 | skip; try dsimp only; repeat' first | assumption
  | succ e0 ih =>
    unfold State.settleRun; try dsimp only
    repeat' first | with_reducible first | assumption | apply Keeps.ite | split | apply State.turn_keeps | apply State.appendTiles_keeps | apply State.endRun_keeps | apply State.appendTile_keeps | apply State.set_keeps | apply ih

theorem State.settleRuns_keeps (s : State) (n : Nat) (k0 : Keeps p₀ s) : Keeps p₀ (State.settleRuns s n) := by
  unfold State.settleRuns; try dsimp only
  repeat' first | with_reducible first | assumption | intro _ | apply Keeps.foldl | apply State.settleRun_keeps

theorem State.seArm_keeps (s : State) (n cls : Nat) (k0 : Keeps p₀ s) : Keeps p₀ (State.seArm s n cls) := by
  unfold State.seArm; try dsimp only
  repeat' first | with_reducible first | assumption | apply Keeps.ite | apply State.set_keeps | apply State.modSe_keeps

theorem State.armResult_keeps (s : State) (n arm result : Nat) (k0 : Keeps p₀ s) : Keeps p₀ (State.armResult s n arm result) := by
  unfold State.armResult; try dsimp only
  repeat' first | with_reducible first | assumption | apply Keeps.ite | apply State.set_keeps

theorem State.armReleased_keeps (s : State) (n result : Nat) (k0 : Keeps p₀ s) : Keeps p₀ (State.armReleased s n result) := by
  unfold State.armReleased; try dsimp only
  repeat' first | with_reducible first | assumption | split | apply State.modSe_keeps | apply State.armResult_keeps

theorem State.armDescRead_keeps (s : State) (e : Fin 16) (r : ReadOutcome) (k0 : Keeps p₀ s) : Keeps p₀ (State.armDescRead s e r) := by
  unfold State.armDescRead; try dsimp only
  repeat' first | with_reducible first | assumption | apply Keeps.ite | split | apply State.readEnds_keeps | apply State.armReleased_keeps | apply State.armResult_keeps | apply State.startRun_keeps | apply State.settleRuns_keeps | apply State.modSe_keeps

theorem State.seAbort_keeps (s : State) (n : Nat) (k0 : Keeps p₀ s) : Keeps p₀ (State.seAbort s n) := by
  unfold State.seAbort; try dsimp only
  repeat' first | with_reducible first | assumption | apply Keeps.ite | split | apply State.modRun_keeps | apply State.dropRunWaits_keeps | apply State.settleRuns_keeps

theorem State.seClearShadow_keeps (s : State) (n : Nat) (k0 : Keeps p₀ s) : Keeps p₀ (State.seClearShadow s n) := by
  unfold State.seClearShadow; try dsimp only
  repeat' first | with_reducible first | assumption | apply Keeps.ite | split | apply State.modSe_keeps

theorem State.takeItem_keeps (s : State) (x : StreamItem) (k0 : Keeps p₀ s) : Keeps p₀ (State.takeItem s x) := by
  unfold State.takeItem; try dsimp only
  repeat' first | with_reducible first | assumption | split | apply State.holdEntry_keeps | apply State.modDisp_keeps | simp only [Keeps.lit]

theorem State.putRun_keeps (s : State) (e : Nat) (run : Run) (k0 : Keeps p₀ s) : Keeps p₀ (State.putRun s e run) := by
  unfold State.putRun; try dsimp only
  repeat' first | with_reducible first | assumption | apply Keeps.ite | apply State.modSe_keeps | apply State.startRun_keeps | apply State.settleRuns_keeps

theorem State.placeRun_keeps (s : State) (x : StreamItem) (d : Dispatch) (t : Stage) (e : Nat) (r : ReadOutcome) (k0 : Keeps p₀ s) : Keeps p₀ (State.placeRun s x d t e r) := by
  unfold State.placeRun; try dsimp only
  repeat' first | with_reducible first | assumption | apply Keeps.ite | split | apply State.putRun_keeps | apply State.readEnds_keeps | simp only [Keeps.lit]

theorem State.streamPlace_keeps (s : State) (id k : Nat) (r : ReadOutcome) (k0 : Keeps p₀ s) : Keeps p₀ (State.streamPlace s id k r) := by
  unfold State.streamPlace; try dsimp only
  repeat' first | with_reducible first | assumption | apply Keeps.ite | split | apply State.takeItem_keeps | apply State.streamItemFails_keeps | apply State.placeRun_keeps

theorem State.runReads_keeps (s : State) (e : Fin 16) (r : Run) (sectors : List Nat) (pre : Nat → Bool) (k0 : Keeps p₀ s) : Keeps p₀ (State.runReads s e r sectors pre) := by
  unfold State.runReads; try dsimp only
  repeat' first | with_reducible first | assumption | intro _ | split | apply Keeps.foldl | apply State.request_keeps | apply State.windowReads_keeps | apply State.modRun_keeps | (refine Keeps.ofSnd (by assumption) ?_)

theorem State.issueRing_keeps (s : State) (e : Fin 16) (r : Run) (k0 : Keeps p₀ s) : Keeps p₀ (State.issueRing s e r) := by
  unfold State.issueRing; try dsimp only
  repeat' first | with_reducible first | assumption | apply Keeps.ite | split | apply State.modRun_keeps | apply State.stopRun_keeps | apply State.settleRuns_keeps | apply State.seWait_keeps | apply State.runReads_keeps

theorem State.streamIssue_keeps (s : State) (e : Fin 16) (k0 : Keeps p₀ s) : Keeps p₀ (State.streamIssue s e) := by
  unfold State.streamIssue; try dsimp only
  repeat' first | with_reducible first | assumption | apply Keeps.ite | split | apply State.seWait_keeps | apply State.issueRing_keeps | apply State.stopRun_keeps | apply State.settleRuns_keeps | apply State.runReads_keeps | apply State.modRun_keeps

theorem State.streamDone_keeps (s : State) (e : Fin 16) (t : Nat) (k0 : Keeps p₀ s) : Keeps p₀ (State.streamDone s e t) := by
  unfold State.streamDone; try dsimp only
  repeat' first | with_reducible first | assumption | apply Keeps.ite | split | apply State.modRun_keeps | apply State.settleRuns_keeps

theorem State.dictPoll_keeps (s : State) (e : Fin 16) (k0 : Keeps p₀ s) : Keeps p₀ (State.dictPoll s e) := by
  unfold State.dictPoll; try dsimp only
  repeat' first | with_reducible first | assumption | apply Keeps.ite | split | apply State.seWait_keeps | apply State.modRun_keeps

theorem State.runFaulted_keeps (s : State) (e : Fin 16) (page : Nat) (k0 : Keeps p₀ s) : Keeps p₀ (State.runFaulted s e page) := by
  unfold State.runFaulted; try dsimp only
  repeat' first | with_reducible first | assumption | split | apply State.restartAt_keeps | apply State.seWait_keeps

theorem State.cutRun_keeps (s : State) (e : Fin 16) (page : Nat) (k0 : Keeps p₀ s) : Keeps p₀ (State.cutRun s e page) := by
  unfold State.cutRun; try dsimp only
  repeat' first | with_reducible exact id | with_reducible exact fun q => (List.length_map _).trans q | with_reducible first | assumption | apply Keeps.ite | split | apply State.modRun_keeps | apply Keeps.litAll

theorem State.runAborted'_keeps (s : State) (n : Nat) (k0 : Keeps p₀ s) : Keeps p₀ (State.runAborted' s n) := by
  unfold State.runAborted'; try dsimp only
  repeat' first | with_reducible first | assumption | apply Keeps.ite | split | apply State.modRun_keeps | apply State.settleRuns_keeps

theorem State.setOp_keeps (s : State) (k v : Nat) (k0 : Keeps p₀ s) : Keeps p₀ (State.setOp s k v) := by
  unfold State.setOp; try dsimp only
  repeat' first | with_reducible first | assumption | split | apply State.set_keeps

theorem State.modLoop_keeps (s : State) (k : Nat) (f : LoopDom → LoopDom) (k0 : Keeps p₀ s) : Keeps p₀ (State.modLoop s k f) := by
  unfold State.modLoop; try dsimp only
  repeat' first | with_reducible first | assumption | simp only [Keeps.lit]

theorem State.vreqOut_keeps (s : State) (k code : Nat) (k0 : Keeps p₀ s) : Keeps p₀ (State.vreqOut s k code) := by
  unfold State.vreqOut; try dsimp only
  repeat' first | with_reducible exact id | with_reducible exact fun q => (length_modifyAt _ _ _).trans q | with_reducible first | assumption | apply State.emit_keeps | apply Keeps.litAll

theorem State.opKick_keeps (s : State) (k0 : Keeps p₀ s) : Keeps p₀ (State.opKick s) := by
  unfold State.opKick; try dsimp only
  repeat' first | with_reducible first | assumption | apply Keeps.ite | split | apply State.set_keeps | apply State.mark_keeps | apply State.vreqOut_keeps | simp only [Keeps.lit]

theorem State.opRequested_keeps (s : State) (v : Nat) (k0 : Keeps p₀ s) : Keeps p₀ (State.opRequested s v) := by
  unfold State.opRequested; try dsimp only
  repeat' first | with_reducible first | assumption | apply State.set_keeps | apply State.opKick_keeps

theorem State.opOverridden_keeps (s : State) (v : Nat) (k0 : Keeps p₀ s) : Keeps p₀ (State.opOverridden s v) := by
  unfold State.opOverridden; try dsimp only
  repeat' first | with_reducible first | assumption | apply State.setAll_keeps | apply State.opKick_keeps

theorem State.vack_keeps (s : State) (k : Nat) (k0 : Keeps p₀ s) : Keeps p₀ (State.vack s k) := by
  unfold State.vack; try dsimp only
  repeat' first | with_reducible first | assumption | apply Keeps.ite | split | apply State.vreqOut_keeps | apply State.opKick_keeps | simp only [Keeps.lit]

theorem State.clockSwitched_keeps (s : State) (k : Nat) (k0 : Keeps p₀ s) : Keeps p₀ (State.clockSwitched s k) := by
  unfold State.clockSwitched; try dsimp only
  repeat' first | with_reducible first | assumption | apply Keeps.ite | split | apply State.opKick_keeps | apply State.setOp_keeps | apply State.vreqOut_keeps | simp only [Keeps.lit]

theorem State.opReset_keeps (s : State) (k0 : Keeps p₀ s) : Keeps p₀ (State.opReset s) := by
  unfold State.opReset; try dsimp only
  repeat' first | with_reducible first | assumption | intro _ | apply Keeps.foldl | apply State.setOp_keeps

theorem State.showLimit_keeps (s : State) (k : Nat) (k0 : Keeps p₀ s) : Keeps p₀ (State.showLimit s k) := by
  unfold State.showLimit; try dsimp only
  repeat' first | with_reducible first | assumption | split | apply State.set_keeps

theorem State.limitMoved_keeps (s : State) (w k a b : Nat) (k0 : Keeps p₀ s) : Keeps p₀ (State.limitMoved s w k a b) := by
  unfold State.limitMoved; try dsimp only
  repeat' first | with_reducible first | assumption | split | apply State.note_keeps | apply State.mark_keeps | apply State.showLimit_keeps | apply State.opKick_keeps

theorem State.dip_keeps (s : State) (d : Nat) (k0 : Keeps p₀ s) : Keeps p₀ (State.dip s d) := by
  unfold State.dip; try dsimp only
  repeat' first | with_reducible first | assumption | apply Keeps.ite | split | apply State.setBit_keeps | apply State.bump_keeps | apply State.capture_keeps | apply State.modLoop_keeps | apply State.limitMoved_keeps

theorem State.dipOver_keeps (s : State) (d clks : Nat) (k0 : Keeps p₀ s) : Keeps p₀ (State.dipOver s d clks) := by
  unfold State.dipOver; try dsimp only
  repeat' first | with_reducible first | assumption | apply Keeps.ite | apply State.setBit_keeps | apply State.set_keeps | apply State.note_keeps

theorem State.brownRecover_keeps (s : State) (d : Nat) (k0 : Keeps p₀ s) : Keeps p₀ (State.brownRecover s d) := by
  unfold State.brownRecover; try dsimp only
  repeat' first | with_reducible first | assumption | apply Keeps.ite | split | apply State.modLoop_keeps | apply State.limitMoved_keeps

theorem State.clockMoved_keeps (s : State) (c : SuppliedClock) (khz : Nat) (k0 : Keeps p₀ s) : Keeps p₀ (State.clockMoved s c khz) := by
  unfold State.clockMoved; try dsimp only
  repeat' first | with_reducible exact id | with_reducible exact fun q => (length_modifyAt _ _ _).trans q | with_reducible first | assumption | apply Keeps.ite | apply Keeps.litAll

theorem State.refFail_keeps (s : State) (r : Ray) (k0 : Keeps p₀ s) : Keeps p₀ (State.refFail s r) := by
  unfold State.refFail; try dsimp only
  repeat' first | with_reducible first | assumption | split | apply State.failRay_keeps | apply State.sorterFail_keeps

theorem State.takeQuery_keeps (s : State) (r : Ray) (q : QryCfg) (addr : Nat) (ds : List Byte) (ksFail : Nat) (k0 : Keeps p₀ s) : Keeps p₀ (State.takeQuery s r q addr ds ksFail) := by
  unfold State.takeQuery; try dsimp only
  repeat' first | with_reducible first | assumption | apply Keeps.ite | split | apply State.failRay_keeps | apply State.endQuery_keeps | apply State.refFail_keeps | apply State.binRay_keeps

theorem State.takeRay_keeps (s : State) (r : Ray) (addr : Nat) (ds : List Byte) (asFail : Nat) (k0 : Keeps p₀ s) : Keeps p₀ (State.takeRay s r addr ds asFail) := by
  unfold State.takeRay; try dsimp only
  repeat' first | with_reducible first | assumption | apply Keeps.ite | split | apply State.sorterFail_keeps | apply State.refFail_keeps | apply State.binRay_keeps

theorem State.rayIntake_keeps (s : State) (id k : Nat) (k0 : Keeps p₀ s) : Keeps p₀ (State.rayIntake s id k) := by
  unfold State.rayIntake; try dsimp only
  repeat' first | with_reducible first | assumption | apply Keeps.ite | split | apply State.modDisp_keeps | apply State.readPoison_keeps | apply State.sfTouch_keeps | apply State.ttRead_keeps | apply State.freeEntry_keeps | apply State.passMarked_keeps | apply State.bump_keeps | apply State.loseRay_keeps | apply State.failRay_keeps | apply State.takeQuery_keeps | apply State.takeRay_keeps | simp only [Keeps.lit]

theorem State.keysetRead_keeps (s : State) (id : Nat) (o : ReadOutcome) (k0 : Keeps p₀ s) : Keeps p₀ (State.keysetRead s id o) := by
  unfold State.keysetRead; try dsimp only
  repeat' first | with_reducible first | assumption | apply Keeps.ite | split | apply State.readEnds_keeps | apply State.modDisp_keeps

theorem State.batchPick_keeps (s : State) (tc p : Nat) (k0 : Keeps p₀ s) : Keeps p₀ (State.batchPick s tc p) := by
  unfold State.batchPick; try dsimp only
  repeat' first | with_reducible first | assumption | intro _ | apply Keeps.ite | split | apply Keeps.foldl | apply State.giveHome_keeps | apply State.bump_keeps | simp only [Keeps.lit]

theorem State.service_keeps (s : State) (e n : Nat) (up : Bool) (k0 : Keeps p₀ s) : Keeps p₀ (State.service s e n up) := by
  unfold State.service; try dsimp only
  repeat' first | with_reducible exact id | with_reducible exact fun q => (length_modifyAt _ _ _).trans q | with_reducible first | assumption | split | apply Keeps.litAll

theorem State.treeletGone_keeps (s : State) (hit : TQueue → Bool) (treelet status : Nat) (k0 : Keeps p₀ s) : Keeps p₀ (State.treeletGone s hit treelet status) := by
  unfold State.treeletGone; try dsimp only
  repeat' first | with_reducible first | assumption | intro _ | split | apply Keeps.foldl | apply State.sorterFail_keeps | apply State.tidyQueues_keeps | simp only [Keeps.lit]

theorem State.treeletLost_keeps (s : State) (slot status : Nat) (k0 : Keeps p₀ s) : Keeps p₀ (State.treeletLost s slot status) := by
  unfold State.treeletLost; try dsimp only
  repeat' first | with_reducible first | assumption | split | apply State.treeletGone_keeps | apply State.service_keeps | simp only [Keeps.lit]

theorem State.tableLost_keeps (s : State) (id treelet status : Nat) (k0 : Keeps p₀ s) : Keeps p₀ (State.tableLost s id treelet status) := by
  unfold State.tableLost; try dsimp only
  repeat' first | with_reducible first | assumption | apply State.treeletGone_keeps | simp only [Keeps.lit]

theorem State.fetchIssue_keeps (s : State) (k0 : Keeps p₀ s) : Keeps p₀ (State.fetchIssue s) := by
  unfold State.fetchIssue
  split
  · exact k0
  split
  · exact k0
  split
  · split
    refine Keeps.ite k0 (Keeps.ite ?_ ?_)
    · extract_lets s1
      have k1 : Keeps p₀ s1 := State.ttRead_keeps _ _ _ _ _ k0
      exact State.tidyQueues_keeps _ (Keeps.foldl k1 fun s r k => State.refFail_keeps _ _ k)
    · extract_lets s1 tt old gone k n s2 acc
      have k1 : Keeps p₀ s1 := State.ttRead_keeps _ _ _ _ _ k0
      have k2 : Keeps p₀ s2 := Keeps.lit.2 k1
      clear_value s1 s2
      split
      extract_lets s3 s4 s5 s6
      have k3 : Keeps p₀ s3 := Keeps.foldl (State.ncSlotFetching_keeps _ _ k2) fun s a k => State.requestBy_keeps _ _ _ _ _ _ _ k
      have k5 : Keeps p₀ s5 := State.perf_keeps _ _ _ _ _ (State.bump_keeps _ _ _ (State.service_keeps _ _ _ _ k3))
      have k6 : Keeps p₀ s6 := by
        unfold s6
        split
        · exact State.bump_keeps _ _ _ k5
        · exact k5
      clear_value s6
      split <;> rename_i q
      · exact Keeps.ofSnd q (State.windowReads_keeps _ _ _ _ k6)
      · exact State.treeletLost_keeps _ _ _ (Keeps.ofSnd q (State.windowReads_keeps _ _ _ _ k6))
  · exact k0

theorem State.fetchDone_keeps (s : State) (slot : Fin 256) (o : ReadOutcome) (k0 : Keeps p₀ s) : Keeps p₀ (State.fetchDone s slot o) := by
  unfold State.fetchDone; try dsimp only
  repeat' first | with_reducible exact id | exact fun q => putBytes_wf _ _ _ (swf_sclear _ _ _ q) | with_reducible first | assumption | apply Keeps.ite | split | apply State.seMoved_keeps | apply State.service_keeps | apply State.treeletLost_keeps | apply Keeps.litAll

theorem State.streamTurn_keeps (s : State) (e : Fin 16) (k0 : Keeps p₀ s) : Keeps p₀ (State.streamTurn s e) := by
  unfold State.streamTurn; try dsimp only
  repeat' first | with_reducible first | assumption | apply Keeps.ite | apply State.streamIssue_keeps

theorem State.segSpill_keeps (s : State) (k0 : Keeps p₀ s) : Keeps p₀ (State.segSpill s) := by
  unfold State.segSpill; try dsimp only
  repeat' first | with_reducible first | assumption | apply Keeps.ite | split | apply State.draw_keeps | apply State.memPut_keeps | apply State.request_keeps | apply State.bump_keeps | apply State.drainOverflow_keeps | simp only [Keeps.lit]

theorem State.segLost_keeps (s : State) (q ord status : Nat) (k0 : Keeps p₀ s) : Keeps p₀ (State.segLost s q ord status) := by
  unfold State.segLost; try dsimp only
  repeat' first | with_reducible first | assumption | intro _ | split | apply Keeps.foldl | apply State.sorterFail_keeps | apply State.tidyQueues_keeps | simp only [Keeps.lit]

theorem State.segRefill_keeps (s : State) (q : Nat) (o : ReadOutcome) (k0 : Keeps p₀ s) : Keeps p₀ (State.segRefill s q o) := by
  unfold State.segRefill; try dsimp only
  repeat' first | with_reducible first | assumption | apply Keeps.ite | split | apply State.readEnds_keeps | apply State.bump_keeps | apply State.segLost_keeps | simp only [Keeps.lit]

theorem State.spillFails_keeps {s t : State} {r : Ray} {tc : Nat} {l : List (Nat × Bool × Bool)} (q : s.spillFails r tc l = some t)
    (k0 : Keeps p₀ s) : Keeps p₀ t := by
  unfold State.spillFails at q
  obtain ⟨a, _, rfl⟩ := Option.map_eq_some_iff.1 q
  exact State.failRay_keeps _ _ _ _ _ _ (State.readPoison_keeps _ _ _ k0)

theorem State.resume_keeps (s : State) (r : Ray) (tc : Nat) (k0 : Keeps p₀ s) : Keeps p₀ (State.resume s r tc).2 := by
  unfold State.resume; try dsimp only
  repeat' first | with_reducible first | assumption | split | (refine State.spillFails_keeps (by assumption) ?_) | apply State.spcAccess_keeps

theorem State.commit_keeps (s s0 : State) (r r' : Ray) (tc p : Nat) (k0 : Keeps p₀ s) (k1 : Keeps p₀ s0) : Keeps p₀ (State.commit s s0 r r' tc p) := by
  unfold State.commit; try dsimp only
  repeat' first | (refine State.spillFails_keeps (by assumption) ?_) | with_reducible first | assumption | apply Keeps.ite | split | apply State.spcAccess_keeps | apply State.modRay_keeps | apply State.finishRay_keeps | (refine Keeps.ofSnd (by assumption) ?_)

theorem State.walkFail_keeps (s : State) (r : Ray) (tc cause : Nat) (k0 : Keeps p₀ s) : Keeps p₀ (State.walkFail s r tc cause) := by
  unfold State.walkFail; try dsimp only
  repeat' first | with_reducible first | assumption | apply State.failRay_keeps

theorem State.walkUnc_keeps (s : State) (r : Ray) (tc : Nat) (k0 : Keeps p₀ s) : Keeps p₀ (State.walkUnc s r tc) := by
  unfold State.walkUnc; try dsimp only
  repeat' first | with_reducible first | assumption | apply State.failRay_keeps

theorem State.walkStart_keeps (s : State) (r : Ray) (tc p : Nat) (k0 : Keeps p₀ s) : Keeps p₀ (State.walkStart s r tc p) := by
  unfold State.walkStart; try dsimp only
  repeat' first | with_reducible first | assumption | split | apply State.commit_keeps

theorem State.rebin_keeps (s : State) (r : Ray) (tc : Nat) (e : SEntry) (k0 : Keeps p₀ s) : Keeps p₀ (State.rebin s r tc e) := by
  unfold State.rebin; try dsimp only
  repeat' first | with_reducible first | assumption | apply Keeps.ite | apply State.spcRelease_keeps | apply State.leaveBatch_keeps | apply State.modRay_keeps | apply State.bump_keeps | apply State.binRay_keeps | apply State.tidyQueues_keeps | apply State.ttRead_keeps | apply State.walkFail_keeps

theorem State.walkInner_keeps (s : State) (r : Ray) (tc p : Nat) (e : SEntry) (rest : List SEntry) (k0 : Keeps p₀ s) : Keeps p₀ (State.walkInner s r tc p e rest) := by
  unfold State.walkInner; try dsimp only
  repeat' first | with_reducible first | assumption | apply Keeps.ite | split | apply State.walkFail_keeps | apply State.walkUnc_keeps | apply State.ncRead_keeps | apply State.ncGather_keeps | apply State.perf_keeps | apply State.commit_keeps | (refine Keeps.ofSnd (by assumption) ?_)

theorem State.walkInstance_keeps (s : State) (r : Ray) (tc p : Nat) (e : SEntry) (rest : List SEntry) (k0 : Keeps p₀ s) : Keeps p₀ (State.walkInstance s r tc p e rest) := by
  unfold State.walkInstance; try dsimp only
  repeat' first | with_reducible first | assumption | apply Keeps.ite | split | apply State.walkFail_keeps | apply State.walkUnc_keeps | apply State.ncRead_keeps | apply State.commit_keeps | (refine Keeps.ofSnd (by assumption) ?_)

theorem State.neuralClose_keeps (s : State) (id : Nat) (k0 : Keeps p₀ s) : Keeps p₀ (State.neuralClose s id) := by
  unfold State.neuralClose; try dsimp only
  repeat' first | with_reducible first | assumption | simp only [Keeps.lit]

theorem State.addSample_keeps (s : State) (tg weights : Nat) (r : Ray) (t : Nat) (k0 : Keeps p₀ s) : Keeps p₀ (State.addSample s tg weights r t) := by
  unfold State.addSample; try dsimp only
  repeat' first | with_reducible first | assumption | apply Keeps.ite | split | apply State.neuralClose_keeps | simp only [Keeps.lit]

theorem State.walkNeural_keeps (s : State) (r : Ray) (tc p : Nat) (e : SEntry) (rest : List SEntry) (k0 : Keeps p₀ s) : Keeps p₀ (State.walkNeural s r tc p e rest) := by
  unfold State.walkNeural; try dsimp only
  repeat' first | (refine State.spillFails_keeps (by assumption) ?_) | with_reducible first | assumption | intro _ | apply Keeps.ite | split | apply Keeps.foldl | apply State.commit_keeps | apply State.walkFail_keeps | apply State.walkUnc_keeps | apply State.ncRead_keeps | apply State.spcAccess_keeps | apply State.modRay_keeps | apply State.addSample_keeps | (refine Keeps.ofSnd (by assumption) ?_)

theorem State.walkProc_keeps (s : State) (r : Ray) (tc p : Nat) (l : Leaf) (k0 : Keeps p₀ s) : Keeps p₀ (State.walkProc s r tc p l) := by
  unfold State.walkProc; try dsimp only
  repeat' first | with_reducible first | assumption | apply Keeps.ite | split | apply State.walkFail_keeps | apply State.walkUnc_keeps | apply State.ncRead_keeps | apply State.commit_keeps | (refine Keeps.ofSnd (by assumption) ?_)

theorem State.walkPop_keeps (s : State) (r : Ray) (tc p : Nat) (e : SEntry) (rest : List SEntry) (k0 : Keeps p₀ s) : Keeps p₀ (State.walkPop s r tc p e rest) := by
  unfold State.walkPop; try dsimp only
  repeat' first | with_reducible first | assumption | apply Keeps.ite | split | apply State.commit_keeps | apply State.walkFail_keeps | apply State.rebin_keeps | apply State.walkInner_keeps | apply State.walkNeural_keeps | apply State.walkInstance_keeps

theorem State.nodeStep_keeps (s : State) (tc p id : Nat) (k0 : Keeps p₀ s) : Keeps p₀ (State.nodeStep s tc p id) := by
  unfold State.nodeStep; try dsimp only
  repeat' first | with_reducible first | assumption | apply Keeps.ite | split | apply State.resume_keeps | apply State.walkStart_keeps | apply State.walkProc_keeps | apply State.modRay_keeps | apply State.walkPop_keeps | apply State.finishRay_keeps | (refine Keeps.ofSnd (by assumption) ?_)

theorem State.triangleTest_keeps (s : State) (tc id : Nat) (k0 : Keeps p₀ s) : Keeps p₀ (State.triangleTest s tc id) := by
  unfold State.triangleTest; try dsimp only
  repeat' first | with_reducible first | assumption | apply Keeps.ite | split | apply State.walkUnc_keeps | apply State.ncRead_keeps | apply State.walkFail_keeps | apply State.perf_keeps | apply State.commit_keeps

theorem State.calloutPost_keeps (s : State) (tc id : Nat) (k0 : Keeps p₀ s) : Keeps p₀ (State.calloutPost s tc id) := by
  unfold State.calloutPost; try dsimp only
  repeat' first | (refine State.spillFails_keeps (by assumption) ?_) | with_reducible first | assumption | apply Keeps.ite | split | apply State.failRay_keeps | apply State.spcAccess_keeps | apply State.modRay_keeps | apply State.perf_keeps | simp only [Keeps.lit] | (refine Keeps.ofSnd (by assumption) ?_)

theorem State.calloutReply_keeps (s : State) (tc id : Nat) (k0 : Keeps p₀ s) : Keeps p₀ (State.calloutReply s tc id) := by
  unfold State.calloutReply; try dsimp only
  repeat' first | with_reducible first | assumption | apply Keeps.ite | split | apply State.failRay_keeps | apply State.modRay_keeps | apply State.finishRay_keeps

theorem State.neuralTimeout_keeps (s : State) (tg b : Nat) (k0 : Keeps p₀ s) : Keeps p₀ (State.neuralTimeout s tg b) := by
  unfold State.neuralTimeout; try dsimp only
  repeat' first | with_reducible first | assumption | split | apply State.neuralClose_keeps

theorem State.neuralResume_keeps (s : State) (r : Ray) (k0 : Keeps p₀ s) : Keeps p₀ (State.neuralResume s r) := by
  unfold State.neuralResume; try dsimp only
  repeat' first | with_reducible first | assumption | apply Keeps.ite | apply State.modRay_keeps | apply State.finishRay_keeps

theorem State.neuralRefine_keeps (s : State) (r : Ray) (b : List Byte) (lo hi g steps : Nat) (k0 : Keeps p₀ s) : Keeps p₀ (State.neuralRefine s r b lo hi g steps) := by
  unfold State.neuralRefine; try dsimp only
  repeat' first | with_reducible first | assumption | apply Keeps.ite | apply State.neuralResume_keeps | apply State.modRay_keeps | apply State.addSample_keeps

theorem State.neuralSettle_keeps (s : State) (r : Ray) (n : Neural) (k0 : Keeps p₀ s) : Keeps p₀ (State.neuralSettle s r n) := by
  unfold State.neuralSettle; try dsimp only
  repeat' first | with_reducible first | assumption | apply Keeps.ite | split | apply State.neuralRefine_keeps | apply State.neuralResume_keeps | apply State.modRay_keeps

theorem State.neuralDone_keeps (s : State) (tg : Fin 8) (b : Nat) (o : ReadOutcome) (k0 : Keeps p₀ s) : Keeps p₀ (State.neuralDone s tg b o) := by
  unfold State.neuralDone; try dsimp only
  repeat' first | with_reducible first | assumption | intro _ | apply Keeps.ite | split | apply Keeps.foldl | apply State.readEnds_keeps | apply State.failRay_keeps | apply State.perf_keeps | apply State.perfMac_keeps | apply State.tally2_keeps | apply State.neuralSettle_keeps | apply State.modRay_keeps | simp only [Keeps.lit]

end Sys2Proof.Machine
end

