-- ==== Sys2Proof/Laws/KeepsLane.lean ====
section
/-! SUPPORT. One lemma for each operation over thread groups and lane instructions:
what `Keeps` says of it, for the state it is given and the state it answers. -/

namespace Sys2Proof.Machine

variable {p₀ : State}

theorem State.modGroup_keeps (s : State) (id : Nat) (f : Group → Group) (h : Keeps p₀ s)
    (hf : Canon p₀ → ∀ g, g.Canon → (f g).Canon) (hi : ∀ g, g.id = id → (f g).id = id) : Keeps p₀ (s.modGroup id f) := by
  refine ⟨h.pending, h.integ, fun c0 => ?_⟩
  have k := h.canon c0
  refine ⟨k.mem, k.sf, k.ts, k.regs, k.stores, map_all (P := Group.Canon) (fun x hx => ?_) _ k.groups, k.clkKhzLen, k.vreqLen, k.queuesLen, k.schedKLen, k.hrBufLen, k.lcsLen, k.ageingLen, k.sesLen, k.portsLen, k.tlbsLen, k.cachesLen, k.quadsLen, k.wsLen, handles_map (fun x _ => ?_) k.handles⟩
  · split
    · exact hf c0 x hx
    · exact hx
  · split
    · rename_i e
      rw [beq_iff_eq] at e
      rw [hi x e, e]
    · rfl

theorem State.divWrite_keeps (s : State) (g : Group) (j : Nat) (e : Nat × Nat) (k0 : Keeps p₀ s) : Keeps p₀ (State.divWrite s g j e) := by
  unfold State.divWrite; try dsimp only
  repeat' first | with_reducible exact id | with_reducible exact fun q => (length_modifyAt _ _ _).trans q | exact fun q => stores_put (by intro l hl; first | exact rfl | exact foldl_put_wf _ _ hl | exact putBytes_wf _ _ _ hl) q | with_reducible first | assumption | apply Keeps.ite | apply State.sfStore_keeps | apply Keeps.litAll

theorem State.divPush_keeps (s : State) (gid : Nat) (e : Nat × Nat) (k0 : Keeps p₀ s) : Keeps p₀ (State.divPush s gid e) := by
  unfold State.divPush; try dsimp only
  repeat' first | exact fun _ q => q | exact fun _ _ q => q | with_reducible first | assumption | apply Keeps.ite | split | apply State.modGroup_keeps | apply State.divWrite_keeps

theorem State.divPushAll_keeps (s : State) (gid : Nat) (l : List (Nat × Nat)) (k0 : Keeps p₀ s) : Keeps p₀ (State.divPushAll s gid l) := by
  induction l with
  | nil => exact k0
  | cons e r ih => exact State.divPush_keeps _ _ _ ih

theorem State.divPop_keeps (s : State) (gid : Nat) (k0 : Keeps p₀ s) : Keeps p₀ (State.divPop s gid) := by
  unfold State.divPop; try dsimp only
  repeat' first | exact fun _ q => q | exact fun _ _ q => q | with_reducible first | assumption | apply Keeps.ite | split | apply State.modGroup_keeps

theorem State.divKeep_keeps (s : State) (gid : Nat) (keep : Nat → Nat) (k0 : Keeps p₀ s) : Keeps p₀ (State.divKeep s gid keep) := by
  unfold State.divKeep; try dsimp only
  repeat' first | exact fun _ q => q | exact fun _ _ q => q | with_reducible first | assumption | intro _ | split | apply Keeps.foldl | apply State.divWrite_keeps | apply State.modGroup_keeps

theorem State.localPut_keeps (s : State) (g : Group) (x : Nat) (bs : List Byte) (k0 : Keeps p₀ s) : Keeps p₀ (State.localPut s g x bs) := by
  unfold State.localPut; try dsimp only
  repeat' first | with_reducible exact id | with_reducible exact fun q => (length_modifyAt _ _ _).trans q | exact fun q => stores_put (by intro l hl; first | exact rfl | exact foldl_put_wf _ _ hl | exact putBytes_wf _ _ _ hl) q | with_reducible first | assumption | intro _ | split | apply Keeps.foldl | apply State.sfStore_keeps | apply Keeps.litAll

theorem State.fillLine_keeps (s : State) (lc cls line : Nat) (l : List Nat) (k0 : Keeps p₀ s) : Keeps p₀ (State.fillLine s lc cls line l) := by
  unfold State.fillLine; try dsimp only
  repeat' first | with_reducible exact id | with_reducible exact fun q => (length_modifyAt _ _ _).trans q | exact fun q => stores_modify (by intro l; first | rfl | ((try dsimp only); split <;> rfl)) q | with_reducible first | assumption | intro _ | apply Keeps.ite | apply Keeps.foldl | apply State.carry_keeps | apply Keeps.litAll

theorem State.fillLines_keeps (s : State) (lc cls : Nat) (addrs : List Nat) (k0 : Keeps p₀ s) : Keeps p₀ (State.fillLines s lc cls addrs) := by
  unfold State.fillLines; try dsimp only
  repeat' first | with_reducible first | assumption | intro _ | apply Keeps.foldl | apply State.fillLine_keeps

theorem State.spacePut_keeps (s : State) (g : Group) (space a : Nat) (bs : List Byte) (k0 : Keeps p₀ s) : Keeps p₀ (State.spacePut s g space a bs) := by
  unfold State.spacePut; try dsimp only
  repeat' first | with_reducible first | assumption | split | apply State.memPut_keeps | apply State.sfStore_keeps | apply State.localPut_keeps

theorem State.groupTouch_keeps (s : State) (g : Group) (space : Nat) (l : List (Nat × Nat)) (k0 : Keeps p₀ s) : Keeps p₀ (State.groupTouch s g space l) := by
  unfold State.groupTouch; try dsimp only
  repeat' first | with_reducible first | assumption | apply Keeps.ite | apply State.perf_keeps

theorem State.putLock_keeps (s : State) (space a v : Nat) (k0 : Keeps p₀ s) : Keeps p₀ (State.putLock s space a v) := by
  unfold State.putLock; try dsimp only
  repeat' first | with_reducible first | assumption | apply Keeps.ite | apply State.memPut_keeps | apply State.sfStore_keeps

theorem State.releaseLocks_keeps (s : State) (g : Group) (mask : Nat) (k0 : Keeps p₀ s) : Keeps p₀ (State.releaseLocks s g mask) := by
  unfold State.releaseLocks; try dsimp only
  repeat' first | exact fun _ _ q => q | exact fun _ q => q | with_reducible first | assumption | intro _ | apply Keeps.foldl | apply State.putLock_keeps | apply State.bump_keeps | apply State.modGroup_keeps

theorem State.laneDone_keeps (s : State) (gid l : Nat) (k0 : Keeps p₀ s) : Keeps p₀ (State.laneDone s gid l) := by
  unfold State.laneDone; try dsimp only
  repeat' first | exact fun _ _ q => q | exact fun _ q => q | with_reducible first | assumption | split | apply State.modGroup_keeps | apply State.freeEntry_keeps

theorem State.replyTo_keeps (s : State) (ray : Nat) (fault : Bool) (code t u v : Nat) (k0 : Keeps p₀ s) : Keeps p₀ (State.replyTo s ray fault code t u v) := by
  unfold State.replyTo; try dsimp only
  repeat' first | with_reducible first | assumption | apply State.modRay_keeps

theorem State.laneFailsIn_keeps (s : State) (u : EUnit) (g : Group) (l status rayCause : Nat) (k0 : Keeps p₀ s) : Keeps p₀ (State.laneFailsIn s u g l status rayCause) := by
  unfold State.laneFailsIn; try dsimp only
  repeat' first | with_reducible first | assumption | apply Keeps.ite | split | apply State.replyTo_keeps | apply State.laneDone_keeps | apply State.failItem_keeps

theorem State.laneFails_keeps (s : State) (g : Group) (l status rayCause : Nat) (k0 : Keeps p₀ s) : Keeps p₀ (State.laneFails s g l status rayCause) := by
  unfold State.laneFails; try dsimp only
  repeat' first | with_reducible first | assumption | apply State.laneFailsIn_keeps

theorem State.tileDone_keeps (s : State) (gid : Nat) (k0 : Keeps p₀ s) : Keeps p₀ (State.tileDone s gid) := by
  unfold State.tileDone; try dsimp only
  repeat' first | exact fun _ _ q => q | exact fun _ q => q | with_reducible first | assumption | split | apply State.modGroup_keeps | apply State.freeEntry_keeps

theorem State.tileFailsIn_keeps (s : State) (u : EUnit) (g : Group) (status : Nat) (k0 : Keeps p₀ s) : Keeps p₀ (State.tileFailsIn s u g status) := by
  unfold State.tileFailsIn; try dsimp only
  repeat' first | with_reducible first | assumption | intro _ | apply Keeps.ite | apply Keeps.foldl | apply State.tileDone_keeps | apply State.failItem_keeps

theorem State.tileFails_keeps (s : State) (g : Group) (status : Nat) (k0 : Keeps p₀ s) : Keeps p₀ (State.tileFails s g status) := by
  unfold State.tileFails; try dsimp only
  repeat' first | with_reducible first | assumption | apply State.tileFailsIn_keeps

theorem State.copyMove_keeps (s : State) (g : Group) (c : Copy) (k0 : Keeps p₀ s) : Keeps p₀ (State.copyMove s g c) := by
  unfold State.copyMove; try dsimp only
  repeat' first | with_reducible first | assumption | split | apply State.carry_keeps | apply State.groupTouch_keeps | apply State.spacePut_keeps

theorem State.groupEnd_keeps (s : State) (g : Group) (k0 : Keeps p₀ s) : Keeps p₀ (State.groupEnd s g) := by
  unfold State.groupEnd; try dsimp only
  repeat' first | with_reducible exact id | with_reducible exact groups_filter | with_reducible exact handles_filter | with_reducible first | assumption | intro _ | split | apply Keeps.foldl | apply State.tileDone_keeps | apply State.endItem_keeps | apply State.tileFails_keeps | apply State.copyMove_keeps | apply State.flushRays_keeps | apply Keeps.litAll

theorem State.dropLanes_keeps (s : State) (gid mask : Nat) (k0 : Keeps p₀ s) : Keeps p₀ (State.dropLanes s gid mask) := by
  unfold State.dropLanes; try dsimp only
  repeat' first | exact fun _ q => q | exact fun _ _ q => q | with_reducible first | assumption | split | apply State.releaseLocks_keeps | apply State.modGroup_keeps | apply State.divKeep_keeps

theorem State.laneFaults_keeps (s : State) (gid pc : Nat) (l : List (Nat × Nat)) (k0 : Keeps p₀ s) : Keeps p₀ (State.laneFaults s gid pc l) := by
  unfold State.laneFaults; try dsimp only
  repeat' first | with_reducible first | assumption | intro _ | apply Keeps.ite | split | apply Keeps.foldl | apply State.bump_keeps | apply State.capture_keeps | apply State.setAll_keeps | apply State.raise_keeps | apply State.tileFails_keeps | apply State.dropLanes_keeps | apply State.laneFails_keeps

theorem State.groupSettle_keeps (s : State) (gid : Nat) (e0 : Nat) (k0 : Keeps p₀ s) : Keeps p₀ (State.groupSettle s gid e0) := by
  induction e0 generalizing s gid with
  | zero => unfold State.groupSettle; first | exact k0 | skip; try dsimp only; repeat' first | assumption
  | succ e0 ih =>
    unfold State.groupSettle; try dsimp only
    repeat' first | exact fun _ q => q | exact fun _ _ q => q | with_reducible first | assumption | apply Keeps.ite | split | apply State.groupEnd_keeps | apply State.divPop_keeps | apply State.modGroup_keeps | apply State.laneFaults_keeps | apply ih

theorem State.finish_keeps (s : State) (gid pc : Nat) (faults : List (Nat × Nat)) (k0 : Keeps p₀ s) : Keeps p₀ (State.finish s gid pc faults) := by
  unfold State.finish; try dsimp only
  repeat' first | with_reducible first | assumption | apply State.laneFaults_keeps | apply State.groupSettle_keeps

theorem State.laneLost_keeps (s : State) (gid : Nat) (l : List (Nat × EUnit)) (k0 : Keeps p₀ s) : Keeps p₀ (State.laneLost s gid l) := by
  unfold State.laneLost; try dsimp only
  repeat' first | with_reducible first | assumption | intro _ | apply Keeps.ite | split | apply Keeps.foldl | apply State.tileFailsIn_keeps | apply State.dropLanes_keeps | apply State.laneFailsIn_keeps

theorem State.unpoisoned_keeps (s : State) (field : Bool) (n : Nat) (l : List (Nat × Nat)) (k0 : Keeps p₀ s) : Keeps p₀ (State.unpoisoned s field n l).2 := by
  unfold State.unpoisoned; try dsimp only
  repeat' first | with_reducible first | assumption | intro _ | split | apply Keeps.foldlSnd | apply State.readPoison_keeps | simp only [Keeps.lit] | (refine Keeps.ofSnd (by assumption) ?_)

theorem State.faultAll_keeps (s : State) (g : Group) (cause : Nat) (k0 : Keeps p₀ s) : Keeps p₀ (State.faultAll s g cause) := by
  unfold State.faultAll; try dsimp only
  repeat' first | with_reducible first | assumption | apply State.finish_keeps

theorem State.issued_keeps (s : State) (g : Group) (k0 : Keeps p₀ s) : Keeps p₀ (State.issued s g) := by
  unfold State.issued; try dsimp only
  repeat' first | with_reducible first | assumption | apply State.tally2_keeps | apply State.perf_keeps

theorem State.checked_keeps (s : State) (g : Group) (w : Nat) (act : State → State) (h : Keeps p₀ s)
    (hf : ∀ s, Keeps p₀ s → Keeps p₀ (act s)) : Keeps p₀ (s.checked g w act) := by
  unfold State.checked
  split
  · exact State.faultAll_keeps _ _ _ h
  · split
    · exact State.faultAll_keeps _ _ _ h
    · exact hf s h

theorem State.groupAt_mem {s : State} {lc slot : Nat} {g : Group} (q : s.groupAt lc slot = some g) : g ∈ s.groups := List.mem_of_find?_eq_some q

theorem State.ready_mem {s : State} {lc slot : Nat} {g : Group} {w : Nat} (q : s.ready lc slot = some (g, w)) : g ∈ s.groups := by
  unfold State.ready at q
  split at q
  · cases q
  · rename_i g' e
    have m := State.groupAt_mem e
    repeat' split at q
    all_goals first | cases q | skip
    exact m

theorem State.issue_keeps (s : State) (lc slot : Nat) (ops : List Nat) (act : State → Group → Nat → State) (h : Keeps p₀ s)
    (hf : ∀ s g w, Keeps p₀ s → (Canon p₀ → g.Canon) → Keeps p₀ (act s g w)) : Keeps p₀ (s.issue lc slot ops act) := by
  unfold State.issue
  split
  · exact h
  · rename_i g w q
    split
    · exact State.checked_keeps _ _ _ _ (State.issued_keeps _ _ h) fun s k => hf s g w k (h.canonOf (State.ready_mem q))
    · exact h

theorem State.issueMod_keeps (s : State) (lc slot op : Nat) (a : Nat → Bool) (act : State → Group → Nat → State) (h : Keeps p₀ s)
    (hf : ∀ s g w, Keeps p₀ s → (Canon p₀ → g.Canon) → Keeps p₀ (act s g w)) : Keeps p₀ (s.issueMod lc slot op a act) := by
  unfold State.issueMod
  split
  · exact h
  · rename_i g w q
    split
    · exact State.checked_keeps _ _ _ _ (State.issued_keeps _ _ h) fun s k => hf s g w k (h.canonOf (State.ready_mem q))
    · exact h

theorem State.lanewise_keeps (s : State) (g : Group) (w : Nat) (f : Nat → Group → Group) (h : Keeps p₀ s)
    (hg : Canon p₀ → g.Canon) (hf : ∀ l a, Group.Canon a → (f l a).Canon) (hi : ∀ l a, (f l a).id = a.id) :
    Keeps p₀ (s.lanewise g w f) := by
  unfold State.lanewise
  exact State.finish_keeps _ _ _ _ (State.modGroup_keeps _ _ _ h
    (fun c _ _ => Group.foldl_canon (Group.next_canon (hg c)) fun a x q => hf x a q) (fun _ _ => Group.foldl_id (fun a l => hi l a) _ _))

theorem State.writesD_keeps (s : State) (g : Group) (w : Nat) (f : Nat → Nat) (h : Keeps p₀ s)
    (hg : Canon p₀ → g.Canon) : Keeps p₀ (s.writesD g w f) :=
  State.lanewise_keeps _ _ _ _ h hg (fun _ _ q => Group.setReg_canon _ _ _ q) fun _ _ => Group.setReg_id ..

theorem State.writesP_keeps (s : State) (g : Group) (w : Nat) (f : Nat → Bool) (h : Keeps p₀ s)
    (hg : Canon p₀ → g.Canon) : Keeps p₀ (s.writesP g w f) :=
  State.lanewise_keeps _ _ _ _ h hg (fun _ _ q => Group.setPred_canon _ _ _ q) fun _ _ => Group.setPred_id ..

theorem State.globalTouch_keeps (s : State) (g : Group) (space n : Nat) (l : List (Nat × Nat)) (k0 : Keeps p₀ s) : Keeps p₀ (State.globalTouch s g space n l) := by
  unfold State.globalTouch; try dsimp only
  repeat' first | with_reducible first | assumption | intro _ | apply Keeps.ite | apply Keeps.foldl | apply State.carry_keeps

theorem State.grantLock_keeps (s : State) (gid l space a : Nat) (k0 : Keeps p₀ s) : Keeps p₀ (State.grantLock s gid l space a).1 := by
  unfold State.grantLock; try dsimp only
  repeat' first | exact fun _ _ q => q | exact fun _ q => q | with_reducible first | assumption | split | apply State.putLock_keeps | apply State.modGroup_keeps

theorem State.lockIssue_keeps (s : State) (g : Group) (space : Nat) (l : List (Nat × Nat)) (k0 : Keeps p₀ s) : Keeps p₀ (State.lockIssue s g space l).1 := by
  unfold State.lockIssue; try dsimp only
  repeat' first | with_reducible first | assumption | intro _ | split | apply Keeps.foldlFst | apply State.grantLock_keeps | simp only [Keeps.lit] | (refine Keeps.ofFst (by assumption) ?_)

theorem State.copyGone_keeps (s : State) (gid : Nat) (k : Copy) (k0 : Keeps p₀ s) : Keeps p₀ (State.copyGone s gid k) := by
  unfold State.copyGone; try dsimp only
  repeat' first | exact fun _ q => q | exact fun _ _ q => q | with_reducible first | assumption | apply State.modGroup_keeps

theorem State.transfer_keeps (s : State) (g : Group) (jumps : List (Nat × List Nat)) (k0 : Keeps p₀ s) : Keeps p₀ (State.transfer s g jumps) := by
  unfold State.transfer; try dsimp only
  repeat' first | exact fun _ q => q | exact fun _ _ q => q | with_reducible first | assumption | apply Keeps.ite | split | apply State.finish_keeps | apply State.modGroup_keeps | apply State.divPushAll_keeps

theorem State.laneExit_keeps (s : State) (g : Group) (l : Nat) (k0 : Keeps p₀ s) : Keeps p₀ (State.laneExit s g l) := by
  unfold State.laneExit; try dsimp only
  repeat' first | with_reducible first | assumption | apply Keeps.ite | split | apply State.laneFails_keeps | apply State.endItem_keeps | apply State.laneDone_keeps

theorem State.exitLanes_keeps (s : State) (g : Group) (l : List Nat) (k0 : Keeps p₀ s) : Keeps p₀ (State.exitLanes s g l) := by
  unfold State.exitLanes; try dsimp only
  repeat' first | with_reducible first | assumption | intro _ | apply Keeps.foldl | apply State.laneExit_keeps | apply State.dropLanes_keeps

theorem State.poisonLane_keeps (s : State) (g : Gather) (x : LaneIn) (k0 : Keeps p₀ s) : Keeps p₀ (State.poisonLane s g x).2 := by
  unfold State.poisonLane; try dsimp only
  repeat' first | with_reducible first | assumption | split | apply State.readPoison_keeps | apply State.failItem_keeps | apply State.freeEntry_keeps | simp only [Keeps.lit] | (refine Keeps.ofSnd (by assumption) ?_)

theorem State.closeGroup_keeps (s : State) (lc : Nat) (x : Gather) (k0 : Keeps p₀ s) : Keeps p₀ (State.closeGroup s lc x).2 := by
  unfold State.closeGroup
  split
  rename_i lanes s1 q
  have k1 : Keeps p₀ s1 := by
    refine Keeps.ofSnd q (Keeps.foldlSnd k0 fun b s y k => ?_)
    have := State.poisonLane_keeps s x y k
    dsimp only
    split <;> (rename_i e; rw [e] at this; exact this)
  extract_lets d t s2 id s3
  have k2 : Keeps p₀ s2 := by
    unfold s2
    repeat' first | with_reducible first | assumption | intro _ | split | apply State.modDisp_keeps | apply Keeps.foldl | apply State.holdEntry_keeps | apply State.passMarked_keeps
  clear_value s2
  split
  extract_lets g
  have k3 : Keeps p₀ s3 := Keeps.lit.2 k2
  split
  · exact k3
  · exact Keeps.litGroups k3 (fun h => groups_append rfl rfl rfl h) (handles_append rfl)

theorem State.failGroup_keeps (s : State) (g : Group) (u : EUnit) (k0 : Keeps p₀ s) : Keeps p₀ (State.failGroup s g u) := by
  unfold State.failGroup; try dsimp only
  repeat' first | with_reducible exact id | with_reducible exact groups_filter | with_reducible exact handles_filter | with_reducible first | assumption | intro _ | apply Keeps.ite | split | apply Keeps.foldl | apply State.tileDone_keeps | apply State.failItem_keeps | apply State.laneDone_keeps | apply Keeps.litAll

theorem State.failLaneStage_keeps (s : State) (id k : Nat) (k0 : Keeps p₀ s) : Keeps p₀ (State.failLaneStage s id k) := by
  unfold State.failLaneStage; try dsimp only
  repeat' first | with_reducible first | assumption | intro _ | apply Keeps.ite | split | apply Keeps.foldl | apply State.failGroup_keeps | apply State.modDisp_keeps | apply State.failItems_keeps | apply State.freeEntry_keeps

theorem State.groupTimeout_keeps (s : State) (lc form : Nat) (k0 : Keeps p₀ s) : Keeps p₀ (State.groupTimeout s lc form) := by
  unfold State.groupTimeout; try dsimp only
  repeat' first | with_reducible first | assumption | apply Keeps.ite | split | apply State.failLaneStage_keeps | apply State.closeGroup_keeps

theorem State.admitGroup_keeps (s : State) (lc id : Nat) (k0 : Keeps p₀ s) : Keeps p₀ (State.admitGroup s lc id) := by
  unfold State.admitGroup; try dsimp only
  repeat' first | with_reducible exact fun q => (length_modifyAt _ _ _).trans q | exact fun q => stores_modify (by intro l; first | rfl | ((try dsimp only); split <;> rfl)) q | exact fun _ _ q => q | exact fun _ q => q | with_reducible first | assumption | intro _ | split | apply State.modGroup_keeps | apply Keeps.litAll

theorem State.groupAdmitted_keeps (s : State) (lc form : Nat) (k0 : Keeps p₀ s) : Keeps p₀ (State.groupAdmitted s lc form) := by
  unfold State.groupAdmitted; try dsimp only
  repeat' first | with_reducible first | assumption | apply Keeps.ite | split | apply State.admitGroup_keeps | apply State.closeGroup_keeps

theorem State.codeArrives_keeps (s : State) (lc : Fin 16) (addr : Nat) (r : ReadOutcome) (k0 : Keeps p₀ s) : Keeps p₀ (State.codeArrives s lc addr r) := by
  unfold State.codeArrives; try dsimp only
  repeat' first | with_reducible exact id | with_reducible exact fun q => (length_modifyAt _ _ _).trans q | exact fun q => stores_modify (by intro l; first | rfl | ((try dsimp only); split <;> rfl)) q | with_reducible first | assumption | intro _ | apply Keeps.ite | split | apply Keeps.foldl | apply State.carry_keeps | apply State.faultAll_keeps | apply State.uncRead_keeps | apply Keeps.litAll

end Sys2Proof.Machine
end

