-- ==== Sys2Proof/Laws/KeepsMove.lean ====
section
/-! SUPPORT. One lemma for each operation over queries, matrix arrays, translation, fences and resets:
what `Keeps` says of it, for the state it is given and the state it answers. -/

namespace Sys2Proof.Machine

variable {p₀ : State}

theorem State.queryCommit_keeps (s s0 : State) (r r' : Ray) (tc p : Nat) (k0 : Keeps p₀ s) (k1 : Keeps p₀ s0) : Keeps p₀ (State.queryCommit s s0 r r' tc p) := by
  unfold State.queryCommit; try dsimp only
  repeat' first | (refine State.spillFails_keeps (by assumption) ?_) | with_reducible first | assumption | apply Keeps.ite | split | apply State.spcAccess_keeps | apply State.modRay_keeps | apply State.endQuery_keeps | (refine Keeps.ofSnd (by assumption) ?_)

theorem State.queryBlock_keeps (s : State) (r0 r : Ray) (n tc p : Nat) (l : Leaf) (k0 : Keeps p₀ s) : Keeps p₀ (State.queryBlock s r0 r n tc p l) := by
  unfold State.queryBlock; try dsimp only
  repeat' first | with_reducible first | assumption | apply Keeps.ite | split | apply State.walkFail_keeps | apply State.walkUnc_keeps | apply State.ncRead_keeps | apply State.bump_keeps | apply State.perf_keeps | apply State.queryCommit_keeps | (refine Keeps.ofSnd (by assumption) ?_)

theorem State.queryNodeStep_keeps (s : State) (tc p id : Nat) (k0 : Keeps p₀ s) : Keeps p₀ (State.queryNodeStep s tc p id) := by
  unfold State.queryNodeStep; try dsimp only
  repeat' first | with_reducible first | assumption | apply Keeps.ite | split | apply State.resume_keeps | apply State.queryBlock_keeps | apply State.queryCommit_keeps | apply State.walkFail_keeps | apply State.rebin_keeps | apply State.walkUnc_keeps | apply State.ncRead_keeps | apply State.bump_keeps | apply State.perf_keeps | (refine Keeps.ofSnd (by assumption) ?_)

theorem State.gatherTimeout_keeps (s : State) (id : Nat) (k0 : Keeps p₀ s) : Keeps p₀ (State.gatherTimeout s id) := by
  unfold State.gatherTimeout; try dsimp only
  repeat' first | with_reducible first | assumption | intro _ | apply Keeps.foldl | apply State.closeBlock_keeps

theorem State.endScored_keeps (s : State) (d : Dispatch) (t : Stage) (b : GBlock) (q : GQuery) (k0 : Keeps p₀ s) : Keeps p₀ (State.endScored s d t b q) := by
  unfold State.endScored; try dsimp only
  repeat' first | with_reducible first | assumption | split | apply State.qryCapture_keeps | apply State.capture_keeps | apply State.writeResult_keeps | apply State.failItem_keeps | apply State.produce_keeps

theorem State.scoreEnds_keeps (s : State) (id blk : Nat) (t : Stage) (e0 : List GQuery) (k0 : Keeps p₀ s) : Keeps p₀ (State.scoreEnds s id blk t e0) := by
  induction e0 generalizing s id blk t with
  | nil => unfold State.scoreEnds; first | exact k0 | skip; try dsimp only; repeat' first | assumption
  | cons e0 r0 ih =>
    unfold State.scoreEnds; try dsimp only
    repeat' first | with_reducible first | assumption | apply Keeps.ite | split | apply State.endScored_keeps | apply ih | simp only [Keeps.lit]

theorem State.scoreQuadrant_keeps (s : State) (q : Fin 8) (b : GBlock) (c : ScoreSet) (k0 : Keeps p₀ s) : Keeps p₀ (State.scoreQuadrant s q b c) := by
  unfold State.scoreQuadrant; try dsimp only
  repeat' first | with_reducible exact id | with_reducible exact fun q => (length_modifyAt _ _ _).trans q | with_reducible first | assumption | split | apply State.setBit_keeps | simp only [Keeps.lit] | apply Keeps.litAll

theorem State.scoreBlock_keeps (s : State) (d : Dispatch) (src : Stage) (b : GBlock) (q : Fin 8) (lost : List Nat) (fixed : Option (Nat × Nat × EUnit)) (k0 : Keeps p₀ s) : Keeps p₀ (State.scoreBlock s d src b q lost fixed) := by
  unfold State.scoreBlock; try dsimp only
  repeat' first | with_reducible first | assumption | intro _ | apply Keeps.ite | split | apply Keeps.foldl | apply State.readEnds_keeps | apply State.perfMac_keeps | apply State.tally2_keeps | apply State.scoreQuadrant_keeps | simp only [Keeps.lit]

theorem State.scoreBlockDone_keeps (s : State) (id blk : Nat) (quad : Fin 8) (lost : List Nat) (k0 : Keeps p₀ s) : Keeps p₀ (State.scoreBlockDone s id blk quad lost) := by
  unfold State.scoreBlockDone; try dsimp only
  repeat' first | with_reducible first | assumption | intro _ | apply Keeps.ite | split | apply Keeps.foldl | apply State.readPoison_keeps | apply State.scoreBlock_keeps | apply State.scoreEnds_keeps | apply State.dropRay_keeps | apply State.freeEntry_keeps | apply State.flushRays_keeps | apply State.tidyQueues_keeps | simp only [Keeps.lit]

theorem State.scoreFenced_keeps (s : State) (k0 : Keeps p₀ s) : Keeps p₀ (State.scoreFenced s) := by
  unfold State.scoreFenced; try dsimp only
  repeat' first | with_reducible first | assumption | intro _ | apply Keeps.ite | split | apply Keeps.foldl | apply State.scoreBlockDone_keeps | simp only [Keeps.lit]

theorem State.modBatch_keeps (s : State) (id : Nat) (f : MBatch → MBatch) (k0 : Keeps p₀ s) : Keeps p₀ (State.modBatch s id f) := by
  unfold State.modBatch; try dsimp only
  repeat' first | with_reducible first | assumption | simp only [Keeps.lit]

theorem State.mxFail_keeps (s : State) (id item status cause layer : Nat) (u : EUnit) (k0 : Keeps p₀ s) : Keeps p₀ (State.mxFail s id item status cause layer u) := by
  unfold State.mxFail; try dsimp only
  repeat' first | with_reducible first | assumption | apply Keeps.ite | split | apply State.failItem_keeps | apply State.capture_keeps | apply State.setAll_keeps

theorem State.failVecs_keeps (s : State) (b : MBatch) (p : Nat → Bool) (status cause : Nat) (u : EUnit) (k0 : Keeps p₀ s) : Keeps p₀ (State.failVecs s b p status cause u) := by
  unfold State.failVecs; try dsimp only
  repeat' first | with_reducible first | assumption | intro _ | split | apply Keeps.foldl | apply State.mxFail_keeps | apply State.modBatch_keeps

theorem State.emitBatchN_keeps (s : State) (id : Nat) (e0 : Nat) (k0 : Keeps p₀ s) : Keeps p₀ (State.emitBatchN s id e0) := by
  induction e0 generalizing s id with
  | zero => unfold State.emitBatchN; first | exact k0 | skip; try dsimp only; repeat' first | assumption
  | succ e0 ih =>
    unfold State.emitBatchN; try dsimp only
    repeat' first | with_reducible first | assumption | intro _ | apply Keeps.ite | split | apply Keeps.foldl | apply State.modBatch_keeps | apply State.endItem_keeps | apply State.append_keeps | apply ih | simp only [Keeps.lit]

theorem State.emitBatch_keeps (s : State) (id : Nat) (k0 : Keeps p₀ s) : Keeps p₀ (State.emitBatch s id) := by
  unfold State.emitBatch; try dsimp only
  repeat' first | with_reducible first | assumption | split | apply State.emitBatchN_keeps

theorem State.batchIfDead_keeps (s : State) (id : Nat) (k0 : Keeps p₀ s) : Keeps p₀ (State.batchIfDead s id) := by
  unfold State.batchIfDead; try dsimp only
  repeat' first | with_reducible first | assumption | apply Keeps.ite | split | apply State.modBatch_keeps | apply State.emitBatch_keeps

theorem State.batchChecks_keeps (s : State) (b : MBatch) (t : Stage) (vb : Nat) (u : EUnit) (k0 : Keeps p₀ s) : Keeps p₀ (State.batchChecks s b t vb u) := by
  unfold State.batchChecks; try dsimp only
  repeat' first | with_reducible first | assumption | apply Keeps.ite | split | apply State.failVecs_keeps

theorem State.takeVecs_keeps (s : State) (id q : Nat) (l : Layer) (u : EUnit) (e0 : List QEntry) (n : Nat) (acc : List MVec)
    (k0 : Keeps p₀ s) : Keeps p₀ (s.takeVecs id q l u e0 n acc).1 := by
  induction e0 generalizing s n acc with
  | nil => exact k0
  | cons e r ih =>
    unfold State.takeVecs
    repeat' first | with_reducible first | assumption | intro _ | extract_lets | split | apply Keeps.foldlFst | apply ih | apply State.freeEntry_keeps | apply State.modDisp_keeps | apply State.sfTouch_keeps | apply State.mxFail_keeps | apply State.readPoison_keeps | (refine Keeps.ofFst (by assumption) ?_) | (refine Keeps.ofSnd (by assumption) ?_) | apply Keeps.ite

theorem State.matmulAssign_keeps (s : State) (id k arr : Nat) (k0 : Keeps p₀ s) : Keeps p₀ (State.matmulAssign s id k arr) := by
  unfold State.matmulAssign
  split
  · exact k0
  split
  · exact k0
  extract_lets t none' goes dead n acc s1 group u to'
  split
  · exact k0
  split
  · exact k0
  split
  · exact k0
  have k1 : Keeps p₀ s1 := by
    unfold s1
    split
    · exact k0
    · exact State.access_keeps _ _ _ _ _ _ k0
  clear_value s1
  split
  rename_i s2 vs q
  have k2 : Keeps p₀ s2 := Keeps.ofFst q (State.takeVecs_keeps _ _ _ _ _ _ _ _ k1)
  extract_lets b s3 s4
  have k3 : Keeps p₀ s3 := Keeps.lit.2 k2
  split
  · exact State.flushRays_keeps _ k3
  · have k4 : Keeps p₀ s4 := Keeps.litAll k3 (fun q => q) (fun q => q) (fun q => q) (fun q => q) (fun q => q) (fun q => q) (fun q => q) (fun q => q) (fun q => q) (fun q => q) (fun q => q) (fun q => q) (fun q => q) (fun q => q) (fun q => q) (fun q => q) (fun q => q) (fun q => q)
      (fun q => (List.length_map _).trans (by rw [List.length_zip, q]; rfl)) (fun q => q)
    exact State.flushRays_keeps _ (State.batchIfDead_keeps _ _ (State.batchChecks_keeps _ _ _ _ _ k4))

theorem State.takeTile_keeps (s : State) (half : Nat) (b : MBatch) (layer i : Nat) (attr : List Byte) (data : Option Nat) (k0 : Keeps p₀ s) : Keeps p₀ (State.takeTile s half b layer i attr data) := by
  unfold State.takeTile; try dsimp only
  repeat' first | with_reducible exact id | with_reducible exact fun q => (length_modifyAt _ _ _).trans q | with_reducible first | assumption | split | apply Keeps.litAll

theorem State.tileArrives_keeps (s : State) (arr : Nat) (b : MBatch) (layer i : Nat) (da : Nat) (attr : List Byte) (k0 : Keeps p₀ s) : Keeps p₀ (State.tileArrives s arr b layer i da attr) := by
  unfold State.tileArrives; try dsimp only
  repeat' first | with_reducible first | assumption | intro _ | apply Keeps.ite | apply Keeps.foldl | apply State.takeTile_keeps

theorem State.loadHalf_keeps (s : State) (arr : Fin 2) (q : Nat) (h : Bool) (b : MBatch) (l : Layer) (c : MxClass) (w : HalfW) (k0 : Keeps p₀ s) : Keeps p₀ (State.loadHalf s arr q h b l c w) := by
  unfold State.loadHalf; try dsimp only
  repeat' first | with_reducible exact id | with_reducible exact fun q => (length_modifyAt _ _ _).trans q | with_reducible first | assumption | apply Keeps.ite | apply State.failVecs_keeps | apply State.batchIfDead_keeps | apply Keeps.litAll

theorem State.weightFails_keeps (s : State) (b : MBatch) (a : Nat) (o : ReadOutcome) (u : EUnit) (k0 : Keeps p₀ s) : Keeps p₀ (State.weightFails s b a o u) := by
  unfold State.weightFails; try dsimp only
  repeat' first | with_reducible first | assumption | split | apply State.modDisp_keeps | apply State.failVecs_keeps | apply State.batchIfDead_keeps

theorem State.weightLoaded_keeps (s : State) (arr : Fin 2) (q kslice nblk : Nat) (o : ReadOutcome) (k0 : Keeps p₀ s) : Keeps p₀ (State.weightLoaded s arr q kslice nblk o) := by
  unfold State.weightLoaded
  repeat' first | with_reducible first | assumption | extract_lets | apply Keeps.ite | split | apply State.failVecs_keeps | apply State.batchIfDead_keeps | apply State.bump_keeps | apply State.fetchPlace_keeps | apply State.loadHalf_keeps | apply State.weightFails_keeps | apply State.access_keeps | apply State.uncRead_keeps | apply State.tileArrives_keeps

theorem State.swapHalves_keeps (s : State) (arr q : Nat) (k0 : Keeps p₀ s) : Keeps p₀ (State.swapHalves s arr q) := by
  unfold State.swapHalves; try dsimp only
  repeat' first | with_reducible exact id | with_reducible exact fun q => (length_modifyAt _ _ _).trans q | with_reducible first | assumption | apply Keeps.ite | split | apply State.setBit_keeps | apply Keeps.litAll

theorem State.poisonVecs_keeps (s : State) (b : MBatch) (vs : List Nat) (k0 : Keeps p₀ s) : Keeps p₀ (State.poisonVecs s b vs) := by
  unfold State.poisonVecs; try dsimp only
  repeat' first | with_reducible first | assumption | intro _ | split | apply Keeps.foldl | apply State.readPoison_keeps | apply State.failVecs_keeps | (refine Keeps.ofSnd (by assumption) ?_)

theorem State.tileStep_keeps (s : State) (arr q first count : Nat) (bad : List Nat) (k0 : Keeps p₀ s) : Keeps p₀ (State.tileStep s arr q first count bad) := by
  unfold State.tileStep; try dsimp only
  repeat' first | with_reducible exact id | with_reducible exact fun q => (length_modifyAt _ _ _).trans q | with_reducible first | assumption | intro _ | apply Keeps.ite | split | apply Keeps.foldl | apply State.failVecs_keeps | apply State.batchIfDead_keeps | apply State.modBatch_keeps | apply State.bump_keeps | apply State.tally2_keeps | apply State.perfMac_keeps | apply State.sfTouch_keeps | apply State.poisonVecs_keeps | apply Keeps.litAll

theorem State.layerEnd_keeps (s : State) (b : MBatch) (l : Layer) (k0 : Keeps p₀ s) : Keeps p₀ (State.layerEnd s b l) := by
  unfold State.layerEnd; try dsimp only
  repeat' first | with_reducible first | assumption | intro _ | apply Keeps.ite | split | apply Keeps.foldl | apply State.bump_keeps | apply State.modBatch_keeps | apply State.emitBatch_keeps | apply State.sfPut_keeps

theorem State.postUnit_keeps (s : State) (arr : Fin 2) (nblk : Nat) (o : ReadOutcome) (k0 : Keeps p₀ s) : Keeps p₀ (State.postUnit s arr nblk o) := by
  unfold State.postUnit; try dsimp only
  repeat' first | with_reducible first | assumption | intro _ | apply Keeps.ite | split | apply Keeps.foldl | apply State.emitBatch_keeps | apply State.failVecs_keeps | apply State.batchIfDead_keeps | apply State.readEnds_keeps | apply State.weightFails_keeps | apply State.bump_keeps | apply State.modBatch_keeps | apply State.layerEnd_keeps | apply State.flushRays_keeps

theorem State.runAgain_keeps (s : State) (id arr : Nat) (k0 : Keeps p₀ s) : Keeps p₀ (State.runAgain s id arr) := by
  unfold State.runAgain; try dsimp only
  repeat' first | with_reducible exact fun q => (List.length_map _).trans q | with_reducible first | assumption | intro _ | apply State.modBatch_keeps | apply Keeps.litAll

theorem State.batchMoves_keeps (s : State) (b : MBatch) (t : Stage) (arr : Nat) (k0 : Keeps p₀ s) : Keeps p₀ (State.batchMoves s b t arr) := by
  unfold State.batchMoves; try dsimp only
  repeat' first | with_reducible first | assumption | apply Keeps.ite | split | apply State.runAgain_keeps | apply State.failVecs_keeps | apply State.batchIfDead_keeps

theorem State.quadFenced_keeps (s : State) (u : Fin 8) (k0 : Keeps p₀ s) : Keeps p₀ (State.quadFenced s u) := by
  unfold State.quadFenced; try dsimp only
  repeat' first | with_reducible exact id | with_reducible exact fun q => (length_modifyAt _ _ _).trans q | with_reducible first | assumption | intro _ | apply Keeps.ite | split | apply Keeps.foldl | apply State.setBit_keeps | apply State.failVecs_keeps | apply State.batchIfDead_keeps | apply State.batchMoves_keeps | apply State.scoreFenced_keeps | apply Keeps.litAll

theorem State.sendXlat_keeps (s : State) (x : XReq) (k0 : Keeps p₀ s) : Keeps p₀ (State.sendXlat s x) := by
  unfold State.sendXlat; try dsimp only
  repeat' first | with_reducible first | assumption | apply State.emit_keeps

theorem State.xlatPump_keeps (s : State) (e0 : Nat) (k0 : Keeps p₀ s) : Keeps p₀ (State.xlatPump s e0) := by
  induction e0 generalizing s with
  | zero => unfold State.xlatPump; first | exact k0 | skip; try dsimp only; repeat' first | assumption
  | succ e0 ih =>
    unfold State.xlatPump; try dsimp only
    repeat' first | with_reducible first | assumption | apply Keeps.ite | split | apply State.sendXlat_keeps | apply ih | simp only [Keeps.lit]

theorem State.xlatRequest_keeps (s : State) (req page : Nat) (write : Bool) (acc : Access) (k0 : Keeps p₀ s) : Keeps p₀ (State.xlatRequest s req page write acc) := by
  unfold State.xlatRequest; try dsimp only
  repeat' first | with_reducible first | assumption | apply Keeps.ite | apply State.bump_keeps | apply State.perf_keeps | apply State.xlatPump_keeps | simp only [Keeps.lit]

theorem State.invalidate_keeps (s : State) (v : Inval) (k0 : Keeps p₀ s) : Keeps p₀ (State.invalidate s v) := by
  unfold State.invalidate; try dsimp only
  repeat' first | with_reducible exact id | with_reducible exact fun q => (List.length_map _).trans q | with_reducible first | assumption | apply Keeps.ite | split | apply Keeps.litAll

theorem State.dropLines_keeps (s : State) (v : Inval) (k0 : Keeps p₀ s) : Keeps p₀ (State.dropLines s v) := by
  unfold State.dropLines; try dsimp only
  repeat' first | with_reducible exact id | with_reducible exact fun q => (List.length_map _).trans q | exact fun q => stores_map (by intro l; first | rfl | ((try dsimp only); split <;> rfl)) q | with_reducible first | assumption | apply Keeps.ite | apply Keeps.litAll

theorem State.invalAck_keeps (s : State) (id : Fin 8) (clks : Nat) (k0 : Keeps p₀ s) : Keeps p₀ (State.invalAck s id clks) := by
  unfold State.invalAck; try dsimp only
  repeat' first | with_reducible exact fun q => (List.length_map _).trans q | with_reducible first | assumption | intro _ | apply Keeps.ite | split | apply State.dropLines_keeps | apply State.bump_keeps | apply State.set_keeps | apply State.emit_keeps | apply Keeps.litAll

theorem State.openRecord_keeps (s : State) (slot : Nat) (w : FWait) (k0 : Keeps p₀ s) : Keeps p₀ (State.openRecord s slot w) := by
  unfold State.openRecord; try dsimp only
  repeat' first | with_reducible first | assumption | apply Keeps.ite | apply State.setAll_keeps | apply State.bump_keeps | apply State.raise_keeps | apply State.capture_keeps | simp only [Keeps.lit]

theorem State.joinRecord_keeps (s : State) (slot : Nat) (w : FWait) (k0 : Keeps p₀ s) : Keeps p₀ (State.joinRecord s slot w) := by
  unfold State.joinRecord; try dsimp only
  repeat' first | with_reducible first | assumption | split | apply State.mark_keeps | apply State.set_keeps | apply State.setBit_keeps | apply State.bump_keeps

theorem State.fault_keeps (s : State) (w : FWait) (k0 : Keeps p₀ s) : Keeps p₀ (State.fault s w) := by
  unfold State.fault; try dsimp only
  repeat' first | with_reducible first | assumption | split | apply State.joinRecord_keeps | apply State.openRecord_keeps | simp only [Keeps.lit]

theorem State.takeSlots_keeps (s : State) (k0 : Keeps p₀ s) : Keeps p₀ (State.takeSlots s) := by
  unfold State.takeSlots; try dsimp only
  repeat' first | with_reducible first | assumption | intro _ | apply Keeps.foldl | apply State.fault_keeps | simp only [Keeps.lit]

theorem State.faultAccs_keeps (s : State) (x : XReq) (reason : Nat) (k0 : Keeps p₀ s) : Keeps p₀ (State.faultAccs s x reason) := by
  unfold State.faultAccs; try dsimp only
  repeat' first | with_reducible first | assumption | intro _ | split | apply Keeps.foldl | apply State.fault_keeps | apply State.runFaulted_keeps

theorem State.tlbFill_keeps (s : State) (req : Nat) (e : TlbEntry) (k0 : Keeps p₀ s) : Keeps p₀ (State.tlbFill s req e) := by
  unfold State.tlbFill; try dsimp only
  repeat' first | with_reducible exact id | with_reducible exact fun q => (length_modifyAt _ _ _).trans q | with_reducible exact fun q => (List.length_map _).trans q | with_reducible first | assumption | intro _ | split | apply Keeps.foldl | apply State.portPush_keeps | apply Keeps.litAll

theorem State.xlatResponse_keeps (s : State) (id : Fin 64) (r : XlatResp) (k0 : Keeps p₀ s) : Keeps p₀ (State.xlatResponse s id r) := by
  unfold State.xlatResponse; try dsimp only
  repeat' first | with_reducible first | assumption | apply Keeps.ite | split | apply State.sendXlat_keeps | apply State.tlbFill_keeps | apply State.faultAccs_keeps | apply State.xlatPump_keeps | simp only [Keeps.lit]

theorem State.xlatTimeout_keeps (s : State) (id : Fin 64) (k0 : Keeps p₀ s) : Keeps p₀ (State.xlatTimeout s id) := by
  unfold State.xlatTimeout; try dsimp only
  repeat' first | with_reducible first | assumption | apply Keeps.ite | split | apply State.sendXlat_keeps | apply State.faultAccs_keeps | apply State.capture_keeps | apply State.xlatPump_keeps | simp only [Keeps.lit]

theorem State.withdraw_keeps (s : State) (acc : Access) (k0 : Keeps p₀ s) : Keeps p₀ (State.withdraw s acc) := by
  unfold State.withdraw; try dsimp only
  repeat' first | with_reducible exact id | with_reducible exact fun q => (List.length_map _).trans q | with_reducible first | assumption | apply Keeps.litAll

theorem State.lostCompletion_keeps (s : State) (c : Fin 4) (k0 : Keeps p₀ s) : Keeps p₀ (State.lostCompletion s c) := by
  unfold State.lostCompletion; try dsimp only
  repeat' first | with_reducible first | assumption | split | apply State.modQueue_keeps | apply State.loseWrite_keeps

theorem State.weightsLost_keeps (s : State) (by' page : Nat) (k0 : Keeps p₀ s) : Keeps p₀ (State.weightsLost s by' page) := by
  unfold State.weightsLost; try dsimp only
  repeat' first | with_reducible first | assumption | intro _ | apply Keeps.ite | split | apply Keeps.foldl | apply State.modDisp_keeps | apply State.failVecs_keeps | apply State.batchIfDead_keeps

theorem State.tableGone_keeps (s : State) (id k : Nat) (k0 : Keeps p₀ s) : Keeps p₀ (State.tableGone s id k) := by
  unfold State.tableGone; try dsimp only
  repeat' first | with_reducible first | assumption | intro _ | split | apply Keeps.foldl | apply State.modDisp_keeps | apply State.failVecs_keeps | apply State.batchIfDead_keeps

theorem State.blockLost_keeps (s : State) (blk : Nat) (f : GBlock → Option Nat) (k0 : Keeps p₀ s) : Keeps p₀ (State.blockLost s blk f) := by
  unfold State.blockLost; try dsimp only
  repeat' first | with_reducible first | assumption | simp only [Keeps.lit]

theorem State.guestLost_keeps (s : State) (acc : Access) (k0 : Keeps p₀ s) : Keeps p₀ (State.guestLost s acc) := by
  unfold State.guestLost; try dsimp only
  repeat' first | with_reducible first | assumption | simp only [Keeps.lit]

theorem State.abortAccess_keeps (s : State) (w : FWait) (k0 : Keeps p₀ s) : Keeps p₀ (State.abortAccess s w) := by
  unfold State.abortAccess; try dsimp only
  repeat' first | with_reducible first | assumption | intro _ | apply Keeps.ite | split | apply State.withdraw_keeps | apply State.cutRun_keeps | apply State.runAborted'_keeps | apply State.armReleased_keeps | apply State.fetchDone_keeps | apply State.segLost_keeps | apply State.weightsLost_keeps | apply State.tableGone_keeps | apply State.tableLost_keeps | apply State.blockLost_keeps | apply State.neuralDone_keeps | apply State.ldrAbort_keeps | apply State.paramLost_keeps | apply State.guestLost_keeps | apply State.keysetRead_keeps | apply State.recordRead_keeps | apply State.schedPlaced_keeps | apply State.lostCompletion_keeps | apply State.drain_keeps | apply State.modGroup_keeps | apply State.finish_keeps | apply State.copyMove_keeps | apply State.copyGone_keeps | apply State.faultAll_keeps | apply State.streamPlace_keeps | simp only [Keeps.lit] | simp only [Group.canon_lit]

theorem State.closeRecord_keeps (s : State) (slot : Nat) (k0 : Keeps p₀ s) : Keeps p₀ (State.closeRecord s slot) := by
  unfold State.closeRecord; try dsimp only
  repeat' first | with_reducible first | assumption | apply State.set_keeps

theorem State.resumeFault_keeps (s : State) (slot : Nat) (k0 : Keeps p₀ s) : Keeps p₀ (State.resumeFault s slot) := by
  unfold State.resumeFault; try dsimp only
  repeat' first | with_reducible first | assumption | intro _ | apply Keeps.ite | split | apply Keeps.foldl | apply State.closeRecord_keeps | apply State.seWait_keeps | apply State.drain_keeps | apply State.xlatRequest_keeps | apply State.takeSlots_keeps | simp only [Keeps.lit]

theorem State.abortFault_keeps (s : State) (slot : Nat) (k0 : Keeps p₀ s) : Keeps p₀ (State.abortFault s slot) := by
  unfold State.abortFault; try dsimp only
  repeat' first | with_reducible first | assumption | intro _ | apply Keeps.ite | apply Keeps.foldl | apply State.closeRecord_keeps | apply State.abortAccess_keeps | apply State.takeSlots_keeps | simp only [Keeps.lit]

theorem State.answerFault_keeps (s : State) (slot v : Nat) (k0 : Keeps p₀ s) : Keeps p₀ (State.answerFault s slot v) := by
  unfold State.answerFault; try dsimp only
  repeat' first | with_reducible first | assumption | split | apply State.resumeFault_keeps | apply State.abortFault_keeps

theorem State.faultTimeout_keeps (s : State) (slot : Fin 16) (k0 : Keeps p₀ s) : Keeps p₀ (State.faultTimeout s slot) := by
  unfold State.faultTimeout; try dsimp only
  repeat' first | with_reducible first | assumption | apply Keeps.ite | apply State.bump_keeps | apply State.note_keeps | apply State.abortFault_keeps

theorem State.dropRequester_keeps (s : State) (req : Nat) (k0 : Keeps p₀ s) : Keeps p₀ (State.dropRequester s req) := by
  unfold State.dropRequester; try dsimp only
  repeat' first | with_reducible first | assumption | intro _ | split | apply State.xlatPump_keeps | apply Keeps.foldl | apply State.setBit_keeps | simp only [Keeps.lit]

theorem State.hotDecay_keeps (s : State) (k0 : Keeps p₀ s) : Keeps p₀ (State.hotDecay s) := by
  unfold State.hotDecay; try dsimp only
  repeat' first | with_reducible first | assumption | apply Keeps.ite | simp only [Keeps.lit]

theorem State.hotPop_keeps (s : State) (v : Nat) (k0 : Keeps p₀ s) : Keeps p₀ (State.hotPop s v) := by
  unfold State.hotPop; try dsimp only
  repeat' first | with_reducible first | assumption | apply Keeps.ite | simp only [Keeps.lit]

theorem State.memIssue_keeps (s : State) (mp : Fin 16) (pos : Nat) (k0 : Keeps p₀ s) : Keeps p₀ (State.memIssue s mp pos) := by
  unfold State.memIssue; try dsimp only
  repeat' first | with_reducible exact id | with_reducible exact fun q => (length_modifyAt _ _ _).trans q | with_reducible first | assumption | apply Keeps.ite | split | apply State.bump_keeps | apply State.modSe_keeps | apply State.emit_keeps | apply State.perf_keeps | apply State.hotCount_keeps | apply Keeps.litAll

theorem State.looseSector_keeps (s : State) (a : Nat) (k0 : Keeps p₀ s) : Keeps p₀ (State.looseSector s a) := by
  unfold State.looseSector; try dsimp only
  repeat' first | with_reducible first | assumption | apply State.draw_keeps | apply State.memStore_keeps

theorem State.memResponse_keeps (s : State) (mp : Fin 16) (tag : Nat) (status : Nat) (k0 : Keeps p₀ s) : Keeps p₀ (State.memResponse s mp tag status) := by
  unfold State.memResponse; try dsimp only
  repeat' first | with_reducible exact id | with_reducible exact fun q => (length_modifyAt _ _ _).trans q | with_reducible first | assumption | apply Keeps.ite | split | apply State.bump_keeps | apply State.capture_keeps | apply State.modRun_keeps | apply State.looseSector_keeps | apply State.writeAnswered_keeps | apply Keeps.litAll

theorem State.memTimeout_keeps (s : State) (mp : Fin 16) (tag : Nat) (k0 : Keeps p₀ s) : Keeps p₀ (State.memTimeout s mp tag) := by
  unfold State.memTimeout; try dsimp only
  repeat' first | with_reducible first | assumption | apply Keeps.ite | split | apply State.fenceFault_keeps

theorem State.countReplay_keeps (s : State) (n : Nat) (k0 : Keeps p₀ s) : Keeps p₀ (State.countReplay s n) := by
  unfold State.countReplay; try dsimp only
  repeat' first | with_reducible first | assumption | simp only [Keeps.lit]

theorem State.takeBack_keeps (s : State) (l : List Nat) (k0 : Keeps p₀ s) : Keeps p₀ (State.takeBack s l) := by
  unfold State.takeBack; try dsimp only
  repeat' first | with_reducible exact id | exact fun q => handles_map (by intro g _; first | rfl | ((try dsimp only); split <;> first | rfl | ((try dsimp only); split <;> rfl))) q | exact fun q => groups_map (by intro g hg; first | exact hg | ((try dsimp only); split <;> first | exact hg | ((try dsimp only); split <;> first | exact hg | (split <;> exact hg)))) q | with_reducible first | assumption | apply Keeps.litAll

theorem State.returnRays_keeps (s : State) (l : List Nat) (k0 : Keeps p₀ s) : Keeps p₀ (State.returnRays s l) := by
  unfold State.returnRays; try dsimp only
  repeat' first | with_reducible first | assumption | apply State.takeBack_keeps | apply State.countReplay_keeps

theorem State.failUnserved_keeps (s : State) (k0 : Keeps p₀ s) : Keeps p₀ (State.failUnserved s) := by
  unfold State.failUnserved; try dsimp only
  repeat' first | with_reducible first | assumption | intro _ | split | apply Keeps.foldl | apply State.unserved_keeps | apply State.tidyQueues_keeps | simp only [Keeps.lit]

theorem State.clusterLost_keeps (s : State) (tc : Nat) (k0 : Keeps p₀ s) : Keeps p₀ (State.clusterLost s tc) := by
  unfold State.clusterLost; try dsimp only
  repeat' first | with_reducible first | assumption | apply State.returnRays_keeps | apply State.dropRequester_keeps | apply State.modCaches_keeps | apply State.failUnserved_keeps | simp only [Keeps.lit]

theorem State.repost_keeps (s : State) (ray : Nat) (k0 : Keeps p₀ s) : Keeps p₀ (State.repost s ray) := by
  unfold State.repost; try dsimp only
  repeat' first | with_reducible first | assumption | apply State.modRay_keeps

theorem State.groupLost_keeps (s : State) (g : Group) (k0 : Keeps p₀ s) : Keeps p₀ (State.groupLost s g) := by
  unfold State.groupLost; try dsimp only
  repeat' first | exact fun _ q => q | with_reducible exact id | with_reducible exact groups_filter | with_reducible exact handles_filter | exact Group.new_canon rfl rfl rfl | with_reducible first | assumption | intro _ | apply Keeps.ite | apply Keeps.foldl | apply State.releaseLocks_keeps | apply State.repost_keeps | apply State.modGroup_keeps | apply State.countReplay_keeps | apply Keeps.litAll

theorem State.coreLost_keeps (s : State) (lc : Nat) (k0 : Keeps p₀ s) : Keeps p₀ (State.coreLost s lc) := by
  unfold State.coreLost; try dsimp only
  repeat' first | with_reducible exact id | with_reducible exact fun q => (length_modifyAt _ _ _).trans q | exact fun q => stores_put (by intro l hl; first | exact rfl | exact foldl_put_wf _ _ hl | exact putBytes_wf _ _ _ hl) q | with_reducible first | assumption | intro _ | apply Keeps.foldl | apply State.groupLost_keeps | apply State.dropRequester_keeps | apply State.repost_keeps | apply State.failRay_keeps | apply State.failLaneStage_keeps | apply Keeps.litAll

theorem State.quadLost_keeps (s : State) (q : Fin 8) (k0 : Keeps p₀ s) : Keeps p₀ (State.quadLost s q) := by
  unfold State.quadLost; try dsimp only
  repeat' first | with_reducible first | assumption | apply State.quadFenced_keeps | simp only [Keeps.lit]

theorem State.slotLost_keeps (s : State) (n : Nat) (x : SSlot) (k0 : Keeps p₀ s) : Keeps p₀ (State.slotLost s n x) := by
  unfold State.slotLost; try dsimp only
  repeat' first | with_reducible first | assumption | apply Keeps.ite | split | apply State.armResult_keeps | apply State.endRun_keeps | simp only [Keeps.lit]

theorem State.dropRequests_keeps (s : State) (req : Nat) (k0 : Keeps p₀ s) : Keeps p₀ (State.dropRequests s req).2 := by
  unfold State.dropRequests; try dsimp only
  repeat' first | with_reducible exact id | with_reducible exact fun q => (List.length_map _).trans q | with_reducible first | assumption | apply Keeps.litAll

theorem State.fetchesMove_keeps (s : State) (n : Nat) (k0 : Keeps p₀ s) : Keeps p₀ (State.fetchesMove s n) := by
  unfold State.fetchesMove; try dsimp only
  repeat' first | with_reducible first | assumption | intro _ | split | apply Keeps.foldl | apply State.service_keeps | simp only [Keeps.lit]

theorem State.reissue_keeps (s : State) (q : MemReq) (k0 : Keeps p₀ s) : Keeps p₀ (State.reissue s q) := by
  unfold State.reissue; try dsimp only
  repeat' first | with_reducible first | assumption | split | apply State.modSe_keeps | apply State.portPush_keeps

theorem State.seLost_keeps (s : State) (n : Nat) (k0 : Keeps p₀ s) : Keeps p₀ (State.seLost s n) := by
  unfold State.seLost; try dsimp only
  repeat' first | with_reducible first | assumption | intro _ | apply Keeps.foldl | apply State.modSe_keeps | apply State.dropRequester_keeps | apply State.slotLost_keeps | apply State.fetchesMove_keeps | apply State.dropRequests_keeps | apply State.reissue_keeps | apply State.drain_keeps

theorem State.portLost_keeps (s : State) (p : Nat) (k0 : Keeps p₀ s) : Keeps p₀ (State.portLost s p) := by
  unfold State.portLost; try dsimp only
  repeat' first | with_reducible exact id | with_reducible exact fun q => (length_modifyAt _ _ _).trans q | with_reducible first | assumption | intro _ | split | apply Keeps.foldl | apply State.portPush_keeps | apply Keeps.litAll

theorem State.plkReset_keeps (s : State) (k0 : Keeps p₀ s) : Keeps p₀ (State.plkReset s) := by
  unfold State.plkReset; try dsimp only
  repeat' first | with_reducible first | assumption | intro _ | split | apply Keeps.foldl | apply State.resetRegs_keeps | apply State.set_keeps | simp only [Keeps.lit]

theorem State.goodbyes_keeps (s : State) (k0 : Keeps p₀ s) : Keeps p₀ (State.goodbyes s) := by
  unfold State.goodbyes; try dsimp only
  repeat' first | with_reducible first | assumption | intro _ | apply Keeps.ite | apply Keeps.foldl | apply State.linkSend_keeps

theorem State.softContent_keeps (s : State) (k0 : Keeps p₀ s) : Keeps p₀ (State.softContent s) := by
  unfold State.softContent; try dsimp only
  repeat' first | exact fun _ => handles_nil | with_reducible exact id | with_reducible exact fun q => (List.length_map _).trans q | exact fun _ => nil_all | exact fun _ => stores_init | exact fun _ => rfl | with_reducible first | assumption | apply State.resetRegs_keeps | apply State.plkReset_keeps | apply Keeps.litAll

theorem State.fullContent_keeps (s : State) (cause : Nat) (k0 : Keeps p₀ s) : Keeps p₀ (State.fullContent s cause) := by
  unfold State.fullContent; try dsimp only
  repeat' first | with_reducible exact id | exact fun _ => rfl | with_reducible first | assumption | split | apply State.softContent_keeps | apply State.resetRegs_keeps | apply State.set_keeps | apply State.plkReset_keeps | apply State.opReset_keeps | apply Keeps.litAll

theorem State.porReset_keeps (s : State) (strap : Nat) (k0 : Keeps p₀ s) : Keeps p₀ (State.porReset s strap) := by
  unfold State.porReset; try dsimp only
  repeat' first | with_reducible first | assumption | apply State.fullContent_keeps | simp only [Keeps.lit]

theorem State.beginReset_keeps (s : State) (cause : Nat) (k0 : Keeps p₀ s) : Keeps p₀ (State.beginReset s cause) := by
  unfold State.beginReset; try dsimp only
  repeat' first | with_reducible first | assumption | apply Keeps.ite | split | apply State.goodbyes_keeps | simp only [Keeps.lit]

theorem State.softBegin_keeps (s : State) (k0 : Keeps p₀ s) : Keeps p₀ (State.softBegin s) := by
  unfold State.softBegin; try dsimp only
  repeat' first | with_reducible first | assumption | apply Keeps.ite | split | apply State.setAll_keeps | apply State.beginReset_keeps

theorem State.warmBegin_keeps (s : State) (cause : Nat) (k0 : Keeps p₀ s) : Keeps p₀ (State.warmBegin s cause) := by
  unfold State.warmBegin; try dsimp only
  repeat' first | with_reducible first | assumption | apply Keeps.ite | apply State.fullContent_keeps | apply State.beginReset_keeps

theorem State.drained_keeps (s : State) (k0 : Keeps p₀ s) : Keeps p₀ (State.drained s) := by
  unfold State.drained; try dsimp only
  repeat' first | with_reducible first | assumption | apply Keeps.ite | split | apply State.softContent_keeps | apply State.set_keeps | apply State.fullContent_keeps | simp only [Keeps.lit]

theorem State.softEnd_keeps (s : State) (k0 : Keeps p₀ s) : Keeps p₀ (State.softEnd s) := by
  unfold State.softEnd; try dsimp only
  repeat' first | with_reducible first | assumption | apply Keeps.ite | split | apply State.setAll_keeps | simp only [Keeps.lit]

theorem State.wipeClusters_keeps (s : State) (p : Nat → Bool) (k0 : Keeps p₀ s) : Keeps p₀ (State.wipeClusters s p) := by
  unfold State.wipeClusters; try dsimp only
  repeat' first | with_reducible exact id | with_reducible exact fun q => (length_zipMap _ _).trans q | with_reducible first | assumption | apply Keeps.litAll

theorem State.wipeCores_keeps (s : State) (p : Nat → Bool) (k0 : Keeps p₀ s) : Keeps p₀ (State.wipeCores s p) := by
  unfold State.wipeCores; try dsimp only
  repeat' first | with_reducible exact id | with_reducible exact fun q => (length_zipMap _ _).trans q | exact fun q => stores_zip (by intro l i hl; dsimp only; split <;> first | exact rfl | exact hl) q | with_reducible first | assumption | apply Keeps.litAll

theorem State.wipeField_keeps (s : State) (d : Nat) (k0 : Keeps p₀ s) : Keeps p₀ (State.wipeField s d) := by
  unfold State.wipeField; try dsimp only
  repeat' first | with_reducible exact id | exact swf_sclear _ _ _ | with_reducible first | assumption | apply Keeps.litAll

theorem State.wipeTreelets_keeps (s : State) (k0 : Keeps p₀ s) : Keeps p₀ (State.wipeTreelets s) := by
  unfold State.wipeTreelets; try dsimp only
  repeat' first | with_reducible exact id | exact fun _ => rfl | with_reducible first | assumption | intro _ | apply Keeps.ite | apply Keeps.foldl | apply State.service_keeps | apply State.returnRays_keeps | apply Keeps.litAll

theorem State.wipeHalf_keeps (s : State) (h : Nat) (k0 : Keeps p₀ s) : Keeps p₀ (State.wipeHalf s h) := by
  unfold State.wipeHalf; try dsimp only
  repeat' first | with_reducible exact id | with_reducible exact fun q => (length_modifyAt _ _ _).trans q | with_reducible first | assumption | apply Keeps.litAll

theorem State.abortArmed_keeps (s : State) (n : Nat) (k0 : Keeps p₀ s) : Keeps p₀ (State.abortArmed s n) := by
  unfold State.abortArmed; try dsimp only
  repeat' first | with_reducible first | assumption | apply Keeps.ite | split | apply State.modSe_keeps | apply State.endRun_keeps

theorem State.domainInit_keeps (s : State) (d : Nat) (k0 : Keeps p₀ s) : Keeps p₀ (State.domainInit s d) := by
  unfold State.domainInit
  refine Keeps.ite (State.plkReset_keeps _ k0) (Keeps.ite ?_ (Keeps.ite ?_ (Keeps.ite (State.wipeHalf_keeps _ _ k0) (Keeps.ite (State.wipeField_keeps _ _ k0)
    (Keeps.ite (State.wipeTreelets_keeps _ k0) (Keeps.ite ?_ (Keeps.ite ?_ k0)))))))
  · extract_lets s1
    have k1 : Keeps p₀ s1 := State.resetRegs_keeps _ _ (Keeps.foldl k0 fun s x k => State.abortArmed_keeps _ _ k)
    clear_value s1
    exact Keeps.litAll k1 id id id id id id id id id id id id id id (fun _ => rfl) id (fun q => (length_zipMap _ _).trans q) id id id
  · extract_lets q s1 s2 b
    have k1 : Keeps p₀ s1 := Keeps.litAll k0 id id id id id id id id id id id id id id id id id id (fun q => (length_modifyAt _ _ _).trans q) id
    have k2 : Keeps p₀ s2 := State.setBit_keeps _ _ _ _ k1
    exact Keeps.ite (State.resetRegs_keeps _ _ k2) k2
  · extract_lets g s1 s2
    have k1 : Keeps p₀ s1 := Keeps.foldl k0 fun s x k => State.clusterLost_keeps _ _ k
    have k2 : Keeps p₀ s2 := Keeps.foldl k1 fun s x k => State.coreLost_keeps _ _ k
    exact State.resetRegs_keeps _ _ (State.wipeCores_keeps _ _ (State.wipeClusters_keeps _ _ k2))
  · extract_lets s1
    have k1 : Keeps p₀ s1 := State.resetRegs_keeps _ _ k0
    exact Keeps.litAll k1 id id id id id id id id id id id (fun _ => rfl) id id id id id id id id

theorem State.domainRequest_keeps (s : State) (k0 : Keeps p₀ s) : Keeps p₀ (State.domainRequest s) := by
  unfold State.domainRequest; try dsimp only
  repeat' first | with_reducible first | assumption | apply Keeps.ite | apply State.mark_keeps | apply State.beginHold_keeps | apply State.set_keeps

theorem State.dropStaged_keeps (s : State) (k0 : Keeps p₀ s) : Keeps p₀ (State.dropStaged s) := by
  unfold State.dropStaged; try dsimp only
  repeat' first | with_reducible first | assumption | apply Keeps.ite | apply State.set_keeps | simp only [Keeps.lit]

theorem State.domainBegin_keeps (s : State) (k0 : Keeps p₀ s) : Keeps p₀ (State.domainBegin s) := by
  unfold State.domainBegin; try dsimp only
  repeat' first | with_reducible first | assumption | apply Keeps.ite | apply State.dropStaged_keeps | apply State.domainInit_keeps | apply State.set_keeps | apply State.mark_keeps | simp only [Keeps.lit]

theorem State.refetch_keeps (s : State) (h : Nat) (own : Image → Nat → Bool) (k0 : Keeps p₀ s) : Keeps p₀ (State.refetch s h own) := by
  unfold State.refetch; try dsimp only
  repeat' first | with_reducible first | assumption | split | apply State.fetchHalf_keeps

theorem State.domainDone_keeps (s : State) (d : Nat) (own : Image → Nat → Bool) (k0 : Keeps p₀ s) : Keeps p₀ (State.domainDone s d own) := by
  unfold State.domainDone; try dsimp only
  repeat' first | with_reducible first | assumption | apply Keeps.ite | apply State.set_keeps | apply State.mark_keeps | apply State.refetch_keeps | simp only [Keeps.lit]

theorem State.wipeSet_keeps (s : State) (set : Nat) (k0 : Keeps p₀ s) : Keeps p₀ (State.wipeSet s set) := by
  unfold State.wipeSet; try dsimp only
  repeat' first | with_reducible exact id | exact fun _ => rfl | with_reducible first | assumption | apply Keeps.ite | split | apply State.wipeField_keeps | apply State.wipeHalf_keeps | apply State.wipeTreelets_keeps | apply State.wipeCores_keeps | apply Keeps.litAll

theorem State.wipeRequest_keeps (s : State) (k0 : Keeps p₀ s) : Keeps p₀ (State.wipeRequest s) := by
  unfold State.wipeRequest; try dsimp only
  repeat' first | with_reducible first | assumption | apply State.setAll_keeps | apply State.beginHold_keeps

theorem State.wipeBegin_keeps (s : State) (k0 : Keeps p₀ s) : Keeps p₀ (State.wipeBegin s) := by
  unfold State.wipeBegin; try dsimp only
  repeat' first | with_reducible first | assumption | apply Keeps.ite | apply State.set_keeps | apply State.wipeSet_keeps | simp only [Keeps.lit]

theorem State.wipeDone_keeps (s : State) (own : Image → Nat → Bool) (k0 : Keeps p₀ s) : Keeps p₀ (State.wipeDone s own) := by
  unfold State.wipeDone; try dsimp only
  repeat' first | with_reducible first | assumption | apply Keeps.ite | split | apply State.set_keeps | apply State.mark_keeps | apply State.refetch_keeps | simp only [Keeps.lit]

theorem State.switchDomain_keeps (s : State) (d : Nat) (on : Bool) (k0 : Keeps p₀ s) : Keeps p₀ (State.switchDomain s d on) := by
  unfold State.switchDomain; try dsimp only
  repeat' first | with_reducible first | assumption | apply Keeps.ite | apply State.setBit_keeps | apply State.setAll_keeps | apply State.domainInit_keeps | simp only [Keeps.lit]

theorem State.switchDomains_keeps (s : State) (k0 : Keeps p₀ s) : Keeps p₀ (State.switchDomains s) := by
  unfold State.switchDomains; try dsimp only
  repeat' first | with_reducible first | assumption | intro _ | apply Keeps.foldl | apply State.switchDomain_keeps

theorem State.domainUp_keeps (s : State) (d : Nat) (k0 : Keeps p₀ s) : Keeps p₀ (State.domainUp s d) := by
  unfold State.domainUp; try dsimp only
  repeat' first | with_reducible first | assumption | apply Keeps.ite | simp only [Keeps.lit]

theorem State.lpRequest_keeps (s : State) (v : Nat) (k0 : Keeps p₀ s) : Keeps p₀ (State.lpRequest s v) := by
  unfold State.lpRequest; try dsimp only
  repeat' first | with_reducible first | assumption | apply Keeps.ite | apply State.set_keeps

theorem State.lpCancel_keeps (s : State) (k0 : Keeps p₀ s) : Keeps p₀ (State.lpCancel s) := by
  unfold State.lpCancel; try dsimp only
  repeat' first | with_reducible first | assumption | apply Keeps.ite | apply State.set_keeps | apply State.wake_keeps | simp only [Keeps.lit]

theorem State.lpGo_keeps (s : State) (k0 : Keeps p₀ s) : Keeps p₀ (State.lpGo s) := by
  unfold State.lpGo; try dsimp only
  repeat' first | with_reducible exact id | with_reducible exact fun q => (List.length_map _).trans q | exact fun q => stores_map (by intro l; first | rfl | ((try dsimp only); split <;> rfl)) q | exact fun _ => rfl | with_reducible first | assumption | apply Keeps.ite | apply State.goodbyes_keeps | apply Keeps.litAll

theorem State.napLose_keeps (s : State) (d : Nat) (k0 : Keeps p₀ s) : Keeps p₀ (State.napLose s d) := by
  unfold State.napLose; try dsimp only
  repeat' first | with_reducible first | assumption | apply Keeps.ite | apply State.wipeHalf_keeps | apply State.wipeField_keeps | apply State.wipeTreelets_keeps | apply State.wipeClusters_keeps | apply State.wipeCores_keeps

theorem State.lpEntered_keeps (s : State) (k0 : Keeps p₀ s) : Keeps p₀ (State.lpEntered s) := by
  unfold State.lpEntered; try dsimp only
  repeat' first | with_reducible first | assumption | intro _ | apply Keeps.ite | apply Keeps.foldl | apply State.napLose_keeps | apply State.set_keeps | apply State.softContent_keeps | simp only [Keeps.lit]

theorem State.wakeBy_keeps (s : State) (src : WakeSource) (k0 : Keeps p₀ s) : Keeps p₀ (State.wakeBy s src) := by
  unfold State.wakeBy; try dsimp only
  repeat' first | with_reducible first | assumption | apply Keeps.ite | split | apply State.wake_keeps

theorem State.woken_keeps (s : State) (own : Image → Nat → Bool) (k0 : Keeps p₀ s) : Keeps p₀ (State.woken s own) := by
  unfold State.woken; try dsimp only
  repeat' first | with_reducible first | assumption | apply Keeps.ite | split | apply State.set_keeps | apply State.refetch_keeps | apply State.opKick_keeps | simp only [Keeps.lit]

end Sys2Proof.Machine
end

