-- ==== Sys2Proof/Laws/KeepsService.lean ====
section
/-! SUPPORT. One lemma for each operation over the peer link, RAS, management, the register port, the monitor, preemption and the tick:
what `Keeps` says of it, for the state it is given and the state it answers. -/

namespace Sys2Proof.Machine

variable {p₀ : State}

theorem State.rxHead_keeps (s : State) (p : Nat) (k : Packet) (ack : Nat) (k0 : Keeps p₀ s) : Keeps p₀ (State.rxHead s p k ack) := by
  unfold State.rxHead; try dsimp only
  repeat' first | with_reducible first | assumption | apply State.modPlkPort_keeps | apply State.pump_keeps

theorem State.rxDiscard_keeps (s : State) (p : Nat) (sequenced : Bool) (k0 : Keeps p₀ s) : Keeps p₀ (State.rxDiscard s p sequenced) := by
  unfold State.rxDiscard; try dsimp only
  repeat' first | with_reducible first | assumption | apply Keeps.ite | apply State.bump_keeps | apply State.capture_keeps | apply State.modPlkPort_keeps | apply State.emit_keeps | apply State.perf_keeps

theorem State.refuse_keeps (s : State) (k : Packet) (k0 : Keeps p₀ s) : Keeps p₀ (State.refuse s k) := by
  unfold State.refuse; try dsimp only
  repeat' first | with_reducible first | assumption | apply Keeps.ite | apply State.plkPost_keeps

theorem State.passOn_keeps (s : State) (p : Nat) (k : Packet) (k0 : Keeps p₀ s) : Keeps p₀ (State.passOn s p k) := by
  unfold State.passOn; try dsimp only
  repeat' first | with_reducible first | assumption | split | apply State.depart_keeps | apply State.plkFree_keeps | apply State.refuse_keeps | (refine Keeps.ofSnd (by assumption) ?_)

theorem State.receive_keeps (s : State) (p : Nat) (k : Packet) (take : State → State) (kf_take : ∀ s, Keeps p₀ s → Keeps p₀ (take s)) (k0 : Keeps p₀ s) : Keeps p₀ (State.receive s p k take) := by
  unfold State.receive; try dsimp only
  repeat' first | with_reducible first | assumption | apply Keeps.ite | apply kf_take | apply State.bump_keeps | apply State.rxDiscard_keeps | apply State.rxHead_keeps | apply State.modPlkPort_keeps | apply State.plkFree_keeps | apply State.wakeBy_keeps | apply State.passOn_keeps

theorem State.receiveLink_keeps (s : State) (p typ : Nat) (k : Packet) (take : State → State) (kf_take : ∀ s, Keeps p₀ s → Keeps p₀ (take s)) (k0 : Keeps p₀ s) : Keeps p₀ (State.receiveLink s p typ k take) := by
  unfold State.receiveLink; try dsimp only
  repeat' first | with_reducible first | assumption | apply Keeps.ite | apply kf_take | apply State.bump_keeps | apply State.rxDiscard_keeps

theorem State.initSend_keeps (s : State) (p : Nat) (k0 : Keeps p₀ s) : Keeps p₀ (State.initSend s p) := by
  unfold State.initSend; try dsimp only
  repeat' first | with_reducible first | assumption | apply Keeps.ite | apply State.linkSend_keeps

theorem State.initReceived_keeps (s : State) (p : Nat) (k : Packet) (k0 : Keeps p₀ s) : Keeps p₀ (State.initReceived s p k) := by
  unfold State.initReceived; try dsimp only
  repeat' first | with_reducible first | assumption | apply Keeps.ite | split | apply State.setAll_keeps | apply State.modPlkPort_keeps | apply State.mark_keeps | apply State.linkSend_keeps | apply State.set_keeps

theorem State.keepaliveSend_keeps (s : State) (p : Nat) (k0 : Keeps p₀ s) : Keeps p₀ (State.keepaliveSend s p) := by
  unfold State.keepaliveSend; try dsimp only
  repeat' first | with_reducible first | assumption | apply Keeps.ite | apply State.linkSend_keeps

theorem State.ackTimer_keeps (s : State) (p : Nat) (k0 : Keeps p₀ s) : Keeps p₀ (State.ackTimer s p) := by
  unfold State.ackTimer; try dsimp only
  repeat' first | with_reducible first | assumption | apply Keeps.ite | apply State.linkSend_keeps

theorem State.laneChange_keeps (s : State) (p : Nat) (up : Bool) (k0 : Keeps p₀ s) : Keeps p₀ (State.laneChange s p up) := by
  unfold State.laneChange; try dsimp only
  repeat' first | with_reducible first | assumption | apply Keeps.ite | split | apply State.pump_keeps | simp only [Keeps.lit]

theorem State.mcFetch_keeps (s : State) (model : Nat) (k0 : Keeps p₀ s) : Keeps p₀ (State.mcFetch s model) := by
  unfold State.mcFetch; try dsimp only
  repeat' first | with_reducible first | assumption | intro _ | apply Keeps.ite | split | apply Keeps.foldl | apply State.fetchPlace_keeps | simp only [Keeps.lit]

theorem State.mcPass_keeps (s : State) (im : Image) (model : Nat) (dsts : List Nat) (k0 : Keeps p₀ s) : Keeps p₀ (State.mcPass s im model dsts) := by
  unfold State.mcPass; try dsimp only
  repeat' first | with_reducible first | assumption | intro _ | split | apply Keeps.foldl | apply State.plkPost_keeps

theorem State.mcServe_keeps (s : State) (k0 : Keeps p₀ s) : Keeps p₀ (State.mcServe s) := by
  unfold State.mcServe; try dsimp only
  repeat' first | with_reducible first | assumption | intro _ | split | apply Keeps.foldl | apply State.mcPass_keeps | simp only [Keeps.lit]

theorem State.mcBegin_keeps (s : State) (k0 : Keeps p₀ s) : Keeps p₀ (State.mcBegin s) := by
  unfold State.mcBegin; try dsimp only
  repeat' first | with_reducible first | assumption | intro _ | apply Keeps.ite | split | apply Keeps.foldl | apply State.plkPost_keeps | apply State.mcServe_keeps | simp only [Keeps.lit]

theorem State.mcReq_keeps (s : State) (k : Packet) (k0 : Keeps p₀ s) : Keeps p₀ (State.mcReq s k) := by
  unfold State.mcReq; try dsimp only
  repeat' first | with_reducible first | assumption | apply Keeps.ite | split | apply State.plkPost_keeps | apply State.mcServe_keeps | simp only [Keeps.lit]

theorem State.mcTile_keeps (s : State) (k : Packet) (k0 : Keeps p₀ s) : Keeps p₀ (State.mcTile s k) := by
  unfold State.mcTile; try dsimp only
  repeat' first | with_reducible exact id | with_reducible exact fun q => (length_modifyAt _ _ _).trans q | with_reducible exact fun q => (length_modifyAt _ _ _).trans ((length_modifyAt _ _ _).trans q) | with_reducible first | assumption | apply Keeps.ite | split | simp only [Keeps.lit] | apply Keeps.litAll

theorem State.guestPair_keeps (s : State) (g : GuestItem) (query : Bool) (cls : Nat) (k0 : Keeps p₀ s) : Keeps p₀ (State.guestPair s g query cls).2 := by
  unfold State.guestPair; try dsimp only
  repeat' first | with_reducible first | assumption | intro _ | split | apply Keeps.foldl | apply State.readEnds_keeps | simp only [Keeps.lit]

theorem State.guestArrives_keeps (s : State) (query : Bool) (k : Packet) (k0 : Keeps p₀ s) : Keeps p₀ (State.guestArrives s query k) := by
  unfold State.guestArrives; try dsimp only
  repeat' first | with_reducible first | assumption | apply Keeps.ite | split | apply State.guestPair_keeps | apply State.failRay_keeps | apply State.ttRead_keeps | apply State.binRay_keeps | apply State.plkPost_keeps | simp only [Keeps.lit]

theorem State.guestReceived_keeps (s : State) (p : Nat) (query : Bool) (k : Packet) (k0 : Keeps p₀ s) : Keeps p₀ (State.guestReceived s p query k) := by
  unfold State.guestReceived; try dsimp only
  repeat' first | with_reducible first | assumption | intro _ | apply Keeps.ite | apply State.receive_keeps | apply State.guestArrives_keeps

theorem State.ackArrives_keeps (s : State) (k : Packet) (k0 : Keeps p₀ s) : Keeps p₀ (State.ackArrives s k) := by
  unfold State.ackArrives; try dsimp only
  repeat' first | with_reducible first | assumption | split | apply State.dropRay_keeps | apply State.tidyQueues_keeps

theorem State.serveRead_keeps (s : State) (k : Packet) (o : ReadOutcome) (k0 : Keeps p₀ s) : Keeps p₀ (State.serveRead s k o) := by
  unfold State.serveRead; try dsimp only
  repeat' first | with_reducible first | assumption | split | apply State.plkPost_keeps | apply State.carry_keeps | apply State.seMoved_keeps | apply State.uncRead_keeps | simp only [Keeps.lit]

theorem State.rreadFails_keeps (s : State) (x : RRead) (status : Nat) (k0 : Keeps p₀ s) : Keeps p₀ (State.rreadFails s x status) := by
  unfold State.rreadFails; try dsimp only
  repeat' first | with_reducible first | assumption | apply Keeps.ite | split | apply State.modRun_keeps | apply State.settleRuns_keeps | apply State.cutRun_keeps | apply State.runAborted'_keeps | apply State.treeletLost_keeps | simp only [Keeps.lit]

theorem State.rdataArrives_keeps (s : State) (k : Packet) (k0 : Keeps p₀ s) : Keeps p₀ (State.rdataArrives s k) := by
  unfold State.rdataArrives; try dsimp only
  repeat' first | with_reducible first | assumption | split | apply State.rreadFails_keeps | simp only [Keeps.lit]

theorem State.unreachableArrives_keeps (s : State) (k : Packet) (k0 : Keeps p₀ s) : Keeps p₀ (State.unreachableArrives s k) := by
  unfold State.unreachableArrives; try dsimp only
  repeat' first | with_reducible first | assumption | apply Keeps.ite | split | apply State.failRay_keeps | apply State.rreadFails_keeps

theorem State.resend_keeps (s : State) (gone : Nat → Bool) (id : Nat) (k0 : Keeps p₀ s) : Keeps p₀ (State.resend s gone id) := by
  unfold State.resend; try dsimp only
  repeat' first | with_reducible first | assumption | apply Keeps.ite | split | apply State.modRay_keeps | apply State.failRay_keeps | apply State.bump_keeps | apply State.countReplay_keeps | apply State.forwardRay_keeps | apply State.binRay_keeps

theorem State.dropGuests_keeps (s : State) (node : Nat) (k0 : Keeps p₀ s) : Keeps p₀ (State.dropGuests s node) := by
  unfold State.dropGuests; try dsimp only
  repeat' first | with_reducible first | assumption | intro _ | apply Keeps.ite | apply Keeps.foldl | apply State.spcRelease_keeps | apply State.takeBack_keeps | apply State.dropRay_keeps | apply State.tidyQueues_keeps | simp only [Keeps.lit]

theorem State.reissueRead_keeps (s : State) (gone : Nat → Bool) (x : RRead) (k0 : Keeps p₀ s) : Keeps p₀ (State.reissueRead s gone x) := by
  unfold State.reissueRead; try dsimp only
  repeat' first | with_reducible first | assumption | apply Keeps.ite | split | apply State.rreadFails_keeps | apply State.plkSend_keeps | (refine Keeps.ofSnd (by assumption) ?_)

theorem State.nodeGone_keeps (s : State) (node : Nat) (k0 : Keeps p₀ s) : Keeps p₀ (State.nodeGone s node) := by
  unfold State.nodeGone; try dsimp only
  repeat' first | with_reducible first | assumption | intro _ | apply Keeps.foldl | apply State.resend_keeps | apply State.dropGuests_keeps | apply State.reissueRead_keeps | apply State.mcFetch_keeps | simp only [Keeps.lit]

theorem State.markLost_keeps (s : State) (node : Nat) (k0 : Keeps p₀ s) : Keeps p₀ (State.markLost s node) := by
  unfold State.markLost; try dsimp only
  repeat' first | with_reducible first | assumption | apply Keeps.ite | apply State.set_keeps | apply State.nodeGone_keeps | simp only [Keeps.lit]

theorem State.redirect_keeps (s : State) (p : Nat) (node : Nat) (x : TxPacket) (k0 : Keeps p₀ s) : Keeps p₀ (State.redirect s p node x) := by
  unfold State.redirect; try dsimp only
  repeat' first | with_reducible first | assumption | apply Keeps.ite | split | apply State.plkFree_keeps | apply State.modPlkPort_keeps | apply State.pump_keeps | apply State.bump_keeps | apply State.mark_keeps | apply State.refuse_keeps

theorem State.abandonPort_keeps (s : State) (p node : Nat) (k0 : Keeps p₀ s) : Keeps p₀ (State.abandonPort s p node) := by
  unfold State.abandonPort; try dsimp only
  repeat' first | with_reducible first | assumption | intro _ | apply Keeps.foldl | apply State.redirect_keeps | apply State.modPlkPort_keeps

theorem State.partnerGone_keeps (s : State) (p : Nat) (k0 : Keeps p₀ s) : Keeps p₀ (State.partnerGone s p) := by
  unfold State.partnerGone; try dsimp only
  repeat' first | with_reducible first | assumption | intro _ | apply Keeps.ite | apply Keeps.foldl | apply State.set_keeps | apply State.mark_keeps | apply State.fenceFault_keeps | apply State.abandonPort_keeps | apply State.plkPost_keeps | apply State.markLost_keeps

theorem State.goodbyeReceived_keeps (s : State) (p : Nat) (k0 : Keeps p₀ s) : Keeps p₀ (State.goodbyeReceived s p) := by
  unfold State.goodbyeReceived; try dsimp only
  repeat' first | with_reducible first | assumption | apply Keeps.ite | apply State.set_keeps | apply State.mark_keeps | apply State.abandonPort_keeps | apply State.nodeGone_keeps | apply State.modPlkPort_keeps

theorem State.lossNotice_keeps (s : State) (k : Packet) (k0 : Keeps p₀ s) : Keeps p₀ (State.lossNotice s k) := by
  unfold State.lossNotice; try dsimp only
  repeat' first | with_reducible first | assumption | apply State.mark_keeps | apply State.markLost_keeps

theorem State.nakReceived_keeps (s : State) (p : Nat) (k : Packet) (k0 : Keeps p₀ s) : Keeps p₀ (State.nakReceived s p k) := by
  unfold State.nakReceived; try dsimp only
  repeat' first | with_reducible first | assumption | intro _ | apply Keeps.ite | split | apply Keeps.foldl | apply State.rxHead_keeps | apply State.modPlkPort_keeps | apply State.partnerGone_keeps | apply State.transmit_keeps | apply State.bump_keeps

theorem State.eventArrives_keeps (s : State) (k : Packet) (k0 : Keeps p₀ s) : Keeps p₀ (State.eventArrives s k) := by
  unfold State.eventArrives; try dsimp only
  repeat' first | with_reducible first | assumption | apply State.fire_keeps

theorem State.evtSend_keeps (s : State) (v : Nat) (k0 : Keeps p₀ s) : Keeps p₀ (State.evtSend s v) := by
  unfold State.evtSend; try dsimp only
  repeat' first | with_reducible first | assumption | apply Keeps.ite | apply State.sendEvents_keeps | apply State.fire_keeps

theorem State.subscribe_keeps (s : State) (k : Packet) (k0 : Keeps p₀ s) : Keeps p₀ (State.subscribe s k) := by
  unfold State.subscribe; try dsimp only
  repeat' first | with_reducible first | assumption | apply Keeps.ite | apply State.mark_keeps | simp only [Keeps.lit]

theorem State.portEnable_keeps (s : State) (v : Nat) (k0 : Keeps p₀ s) : Keeps p₀ (State.portEnable s v) := by
  unfold State.portEnable; try dsimp only
  repeat' first | with_reducible first | assumption | intro _ | apply Keeps.ite | apply Keeps.foldl | apply State.set_keeps | apply State.setAll_keeps | apply State.abandonPort_keeps | apply State.nodeGone_keeps

theorem State.pushHit_keeps (s : State) (ch : Nat) (r : HitSlot) (k0 : Keeps p₀ s) : Keeps p₀ (State.pushHit s ch r) := by
  unfold State.pushHit; try dsimp only
  repeat' first | with_reducible exact id | with_reducible exact fun q => (length_modifyAt _ _ _).trans q | with_reducible first | assumption | apply Keeps.litAll

theorem State.hitEnds_keeps (s : State) (id item : Nat) (ended : Bool) (k0 : Keeps p₀ s) : Keeps p₀ (State.hitEnds s id item ended) := by
  unfold State.hitEnds; try dsimp only
  repeat' first | with_reducible first | assumption | apply Keeps.ite | apply State.endItem_keeps

theorem State.hitRelease_keeps (s : State) (id k : Nat) (k0 : Keeps p₀ s) : Keeps p₀ (State.hitRelease s id k) := by
  unfold State.hitRelease; try dsimp only
  repeat' first | with_reducible first | assumption | apply Keeps.ite | split | apply State.readPoison_keeps | apply State.sfTouch_keeps | apply State.failItem_keeps | apply State.freeEntry_keeps | apply State.flushRays_keeps | apply State.holdEntry_keeps | apply State.pushHit_keeps | simp only [Keeps.lit]

theorem State.orderHoldRelease_keeps (s : State) (id ch : Nat) (k0 : Keeps p₀ s) : Keeps p₀ (State.orderHoldRelease s id ch) := by
  unfold State.orderHoldRelease; try dsimp only
  repeat' first | with_reducible first | assumption | apply Keeps.ite | split | apply State.pushHit_keeps | apply State.freeEntry_keeps | apply State.flushRays_keeps | simp only [Keeps.lit]

theorem State.hitTransfer_keeps (s : State) (ch : Nat) (k0 : Keeps p₀ s) : Keeps p₀ (State.hitTransfer s ch) := by
  unfold State.hitTransfer; try dsimp only
  repeat' first | with_reducible exact id | with_reducible exact fun q => (length_modifyAt _ _ _).trans q | with_reducible first | assumption | apply Keeps.ite | split | apply State.set_keeps | apply State.bump_keeps | apply State.emit_keeps | apply State.perf_keeps | apply State.hitEnds_keeps | apply Keeps.litAll

theorem State.hrCreditReturn_keeps (s : State) (ch : Nat) (k0 : Keeps p₀ s) : Keeps p₀ (State.hrCreditReturn s ch) := by
  unfold State.hrCreditReturn; try dsimp only
  repeat' first | with_reducible first | assumption | apply State.set_keeps

theorem State.corrStore_keeps (s : State) (store : Nat) (k0 : Keeps p₀ s) : Keeps p₀ (State.corrStore s store) := by
  unfold State.corrStore; try dsimp only
  repeat' first | with_reducible first | assumption | apply State.setBit_keeps | apply State.bump_keeps | simp only [Keeps.lit]

theorem State.refetchPlace_keeps (s : State) (half p : Nat) (k0 : Keeps p₀ s) : Keeps p₀ (State.refetchPlace s half p) := by
  unfold State.refetchPlace; try dsimp only
  repeat' first | with_reducible first | assumption | apply Keeps.ite | split | apply State.bump_keeps | apply State.fetchPlace_keeps

theorem State.loseItem_keeps (s : State) (id item : Nat) (u : Option EUnit) (k0 : Keeps p₀ s) : Keeps p₀ (State.loseItem s id item u) := by
  unfold State.loseItem; try dsimp only
  repeat' first | with_reducible exact fun q => (List.length_map _).trans q | with_reducible first | assumption | intro _ | split | apply Keeps.foldl | apply State.failRay_keeps | apply State.failItem_keeps | apply State.loseRay_keeps | apply State.freeEntry_keeps | apply Keeps.litAll

theorem State.loseDispatch_keeps (s : State) (tc : Fin 32) (d : Dispatch) (k0 : Keeps p₀ s) : Keeps p₀ (State.loseDispatch s tc d) := by
  unfold State.loseDispatch; try dsimp only
  repeat' first | with_reducible exact id | with_reducible exact fun q => (List.length_map _).trans q | with_reducible first | assumption | intro _ | split | apply Keeps.foldl | apply State.failItems_keeps | apply State.modDisp_keeps | apply State.freeEntry_keeps | apply State.loseRay_keeps | apply Keeps.litAll

theorem State.dropWork_keeps (s : State) (ids : List Nat) (k0 : Keeps p₀ s) : Keeps p₀ (State.dropWork s ids) := by
  unfold State.dropWork; try dsimp only
  repeat' first | with_reducible exact id | with_reducible exact fun q => (List.length_map _).trans q | with_reducible exact groups_filter | with_reducible exact handles_filter | with_reducible first | assumption | intro _ | split | apply Keeps.foldl | apply State.spcRelease_keeps | apply State.leaveBatch_keeps | apply State.dropRay_keeps | apply State.tidyQueues_keeps | apply Keeps.litAll

theorem State.imageLost_keeps (s : State) (k0 : Keeps p₀ s) : Keeps p₀ (State.imageLost s) := by
  unfold State.imageLost; try dsimp only
  repeat' first | with_reducible first | assumption | simp only [Keeps.lit]

theorem State.detect_keeps (s : State) (f : FaultCause) (k0 : Keeps p₀ s) : Keeps p₀ (State.detect s f) := by
  unfold State.detect; try dsimp only
  repeat' first | with_reducible first | assumption | intro _ | apply Keeps.ite | split | apply Keeps.foldl | apply State.capture_keeps | apply State.fenceFault_keeps | apply State.refetchPlace_keeps | apply State.loseItem_keeps | apply State.failDispatches_keeps | apply State.loseRay_keeps | apply State.dropWork_keeps | apply State.imageLost_keeps | apply State.modCaches_keeps | apply State.parCapture_keeps | apply State.loseDispatch_keeps | apply State.failRay_keeps | apply State.cacheParity_keeps | apply State.draw_keeps | apply State.finish_keeps | simp only [Keeps.lit]

theorem State.watchdog_keeps (s : State) (u : EUnit) (k0 : Keeps p₀ s) : Keeps p₀ (State.watchdog s u) := by
  unfold State.watchdog; try dsimp only
  repeat' first | with_reducible first | assumption | apply Keeps.ite | apply State.fenceFault_keeps

theorem State.scrubLine_keeps (s : State) (store line : Nat) (corrected : Bool) (k0 : Keeps p₀ s) : Keeps p₀ (State.scrubLine s store line corrected) := by
  unfold State.scrubLine; try dsimp only
  repeat' first | with_reducible first | assumption | apply Keeps.ite | split | apply State.capture_keeps | apply State.corrStore_keeps

theorem State.fenceNoted_keeps (s : State) (u : EUnit) (k0 : Keeps p₀ s) : Keeps p₀ (State.fenceNoted s u) := by
  unfold State.fenceNoted; try dsimp only
  repeat' first | with_reducible first | assumption | apply State.note_keeps | simp only [Keeps.lit]

theorem State.linkLost_keeps (s : State) (p : Nat) (k0 : Keeps p₀ s) : Keeps p₀ (State.linkLost s p) := by
  unfold State.linkLost; try dsimp only
  repeat' first | with_reducible first | assumption | apply Keeps.ite | apply State.set_keeps | apply State.abandonPort_keeps | apply State.nodeGone_keeps

theorem State.fenceResult_keeps (s : State) (r : Nat) (k0 : Keeps p₀ s) : Keeps p₀ (State.fenceResult s r) := by
  unfold State.fenceResult; try dsimp only
  repeat' first | with_reducible first | assumption | apply State.set_keeps

theorem State.setPend_keeps (s : State) (b : Nat) (v : Bool) (k0 : Keeps p₀ s) : Keeps p₀ (State.setPend s b v) := by
  unfold State.setPend; try dsimp only
  repeat' first | with_reducible first | assumption | apply Keeps.ite | apply State.setBit_keeps

theorem State.unitLost_keeps (s : State) (u : EUnit) (k0 : Keeps p₀ s) : Keeps p₀ (State.unitLost s u) := by
  unfold State.unitLost; try dsimp only
  repeat' first | with_reducible first | assumption | split | apply State.clusterLost_keeps | apply State.coreLost_keeps | apply State.quadLost_keeps | apply State.seLost_keeps | apply State.portLost_keeps | apply State.linkLost_keeps

theorem State.fenced2_keeps (s : State) (u : EUnit) (k0 : Keeps p₀ s) : Keeps p₀ (State.fenced2 s u) := by
  unfold State.fenced2; try dsimp only
  repeat' first | with_reducible first | assumption | apply Keeps.ite | split | apply State.setPend_keeps | apply State.setFenced_keeps | apply State.unitLost_keeps | apply State.fenceResult_keeps | apply State.fenceNoted_keeps | simp only [Keeps.lit]

theorem State.serviceFull_keeps (s : State) (u : EUnit) (k0 : Keeps p₀ s) : Keeps p₀ (State.serviceFull s u) := by
  unfold State.serviceFull; try dsimp only
  repeat' first | with_reducible first | assumption | apply Keeps.ite | split | simp only [Keeps.lit]

theorem State.fenceCommand_keeps (s : State) (op kind index : Nat) (k0 : Keeps p₀ s) : Keeps p₀ (State.fenceCommand s op kind index) := by
  unfold State.fenceCommand; try dsimp only
  repeat' first | with_reducible first | assumption | apply Keeps.ite | split | apply State.mark_keeps | apply State.set_keeps | apply State.fenceResult_keeps | apply State.openWindow_keeps | simp only [Keeps.lit]

theorem State.wipeUnit_keeps (s : State) (u : EUnit) (k0 : Keeps p₀ s) : Keeps p₀ (State.wipeUnit s u) := by
  unfold State.wipeUnit; try dsimp only
  repeat' first | with_reducible exact id | with_reducible exact fun q => (length_modifyAt _ _ _).trans q | with_reducible first | assumption | split | apply State.wipeClusters_keeps | apply State.wipeCores_keeps | apply Keeps.litAll

theorem State.backInService_keeps (s : State) (u : EUnit) (k0 : Keeps p₀ s) : Keeps p₀ (State.backInService s u) := by
  unfold State.backInService; try dsimp only
  repeat' first | with_reducible first | assumption | apply State.wipeUnit_keeps | apply State.setFenced_keeps | apply State.fenceResult_keeps | simp only [Keeps.lit]

theorem State.returned_keeps (s : State) (u : EUnit) (k0 : Keeps p₀ s) : Keeps p₀ (State.returned s u) := by
  unfold State.returned; try dsimp only
  repeat' first | with_reducible first | assumption | apply Keeps.ite | split | apply State.backInService_keeps

theorem State.returnBank_keeps (s : State) (k0 : Keeps p₀ s) : Keeps p₀ (State.returnBank s) := by
  unfold State.returnBank; try dsimp only
  repeat' first | with_reducible first | assumption | apply Keeps.ite | split | apply State.backInService_keeps | apply State.fenceResult_keeps | apply State.setPend_keeps | simp only [Keeps.lit]

theorem State.markLostRegions_keeps (s : State) (p : Nat → Bool) (k0 : Keeps p₀ s) : Keeps p₀ (State.markLostRegions s p) := by
  unfold State.markLostRegions; try dsimp only
  repeat' first | with_reducible first | assumption | intro _ | apply Keeps.ite | split | apply Keeps.foldl | apply State.setBit_keeps

theorem State.layDomain_keeps (s : State) (d : Nat) (k0 : Keeps p₀ s) : Keeps p₀ (State.layDomain s d) := by
  unfold State.layDomain; try dsimp only
  repeat' first | with_reducible exact id | exact swf_sclear _ _ _ | with_reducible first | assumption | intro _ | apply Keeps.ite | apply Keeps.foldl | apply State.markLostRegions_keeps | apply State.setFenced_keeps | apply State.setPend_keeps | apply State.imageLost_keeps | apply Keeps.litAll

theorem State.recover_keeps (s : State) (apply : State → State) (kf_apply : ∀ s, Keeps p₀ s → Keeps p₀ (apply s)) (k0 : Keeps p₀ s) : Keeps p₀ (State.recover s apply) := by
  unfold State.recover; try dsimp only
  repeat' first | with_reducible first | assumption | apply Keeps.ite | split | apply kf_apply | apply State.layDomain_keeps | apply State.memPut_keeps | apply State.set_keeps | apply State.mark_keeps | apply State.raise_keeps | apply State.setAll_keeps | simp only [Keeps.lit]

theorem State.holdLate_keeps (s : State) (k0 : Keeps p₀ s) : Keeps p₀ (State.holdLate s) := by
  unfold State.holdLate; try dsimp only
  repeat' first | with_reducible first | assumption | apply Keeps.ite | split | apply State.mark_keeps | simp only [Keeps.lit]

theorem State.marginNote_keeps (s : State) (c before after : Nat) (k0 : Keeps p₀ s) : Keeps p₀ (State.marginNote s c before after) := by
  unfold State.marginNote; try dsimp only
  repeat' first | with_reducible first | assumption | apply State.note_keeps

theorem State.modAge_keeps (s : State) (c : Nat) (f : Ageing → Ageing) (k0 : Keeps p₀ s) : Keeps p₀ (State.modAge s c f) := by
  unfold State.modAge; try dsimp only
  repeat' first | with_reducible exact id | with_reducible exact fun q => (length_modifyAt _ _ _).trans q | with_reducible first | assumption | apply Keeps.litAll

theorem State.readAge_keeps (s : State) (c k : Nat) (e0 : List Nat) (k0 : Keeps p₀ s) : Keeps p₀ (State.readAge s c k e0) := by
  induction e0 generalizing s c k with
  | nil => unfold State.readAge; first | exact k0 | skip; try dsimp only; repeat' first | assumption
  | cons e0 r0 ih =>
    unfold State.readAge; try dsimp only
    repeat' first | with_reducible first | assumption | apply Keeps.ite | split | apply State.modAge_keeps | apply State.vreqOut_keeps | apply State.marginNote_keeps | apply State.capture_keeps | apply State.opKick_keeps | apply ih

theorem State.reportAge_keeps (s : State) (c : Nat) (l : List Nat) (k0 : Keeps p₀ s) : Keeps p₀ (State.reportAge s c l) := by
  unfold State.reportAge; try dsimp only
  repeat' first | with_reducible first | assumption | apply Keeps.ite | split | apply State.modAge_keeps | apply State.mark_keeps | apply State.raise_keeps | apply State.marginNote_keeps

theorem State.measure_keeps (s : State) (readings : List (List Nat)) (k0 : Keeps p₀ s) : Keeps p₀ (State.measure s readings) := by
  unfold State.measure; try dsimp only
  repeat' first | with_reducible first | assumption | intro _ | apply Keeps.ite | apply Keeps.foldl | apply State.readAge_keeps | apply State.reportAge_keeps

theorem State.ageingStep_keeps (s : State) (readings : List (List Nat)) (k0 : Keeps p₀ s) : Keeps p₀ (State.ageingStep s readings) := by
  unfold State.ageingStep; try dsimp only
  repeat' first | with_reducible first | assumption | intro _ | apply Keeps.ite | apply Keeps.foldl | apply State.note_keeps | apply State.measure_keeps | simp only [Keeps.lit]

theorem State.started_keeps (s : State) (failed : List EUnit) (age : List (List (List Nat))) (k0 : Keeps p₀ s) : Keeps p₀ (State.started s failed age) := by
  unfold State.started; try dsimp only
  repeat' first | with_reducible first | assumption | intro _ | apply Keeps.ite | apply Keeps.foldl | apply State.setFenced_keeps | apply State.readAge_keeps | apply State.reportAge_keeps | apply State.opKick_keeps | simp only [Keeps.lit]

theorem State.flashPut_keeps (s : State) (a : Nat) (bs : List Byte) (k0 : Keeps p₀ s) : Keeps p₀ (State.flashPut s a bs) := by
  unfold State.flashPut; try dsimp only
  repeat' first | with_reducible first | assumption | simp only [Keeps.lit]

theorem State.flashClear_keeps (s : State) (a n : Nat) (k0 : Keeps p₀ s) : Keeps p₀ (State.flashClear s a n) := by
  unfold State.flashClear; try dsimp only
  repeat' first | with_reducible first | assumption | simp only [Keeps.lit]

theorem State.bootAppend_keeps (s : State) (active try_ tried : Nat) (k0 : Keeps p₀ s) : Keeps p₀ (State.bootAppend s active try_ tried) := by
  unfold State.bootAppend; try dsimp only
  repeat' first | with_reducible first | assumption | split | apply State.flashPut_keeps | apply State.flashClear_keeps

theorem State.fwNote_keeps (s : State) (event slot result svn version : Nat) (k0 : Keeps p₀ s) : Keeps p₀ (State.fwNote s event slot result svn version) := by
  unfold State.fwNote; try dsimp only
  repeat' first | with_reducible first | assumption | apply State.note_keeps

theorem State.runSlot_keeps (s : State) (i : Nat) (trial : Bool) (k0 : Keeps p₀ s) : Keeps p₀ (State.runSlot s i trial) := by
  unfold State.runSlot; try dsimp only
  repeat' first | with_reducible first | assumption | simp only [Keeps.lit]

theorem State.startSlot_keeps (s : State) (i : Nat) (trial : Bool) (k0 : Keeps p₀ s) : Keeps p₀ (State.startSlot s i trial) := by
  unfold State.startSlot; try dsimp only
  repeat' first | with_reducible first | assumption | apply Keeps.ite | apply State.runSlot_keeps | simp only [Keeps.lit]

theorem State.chooseSlot_keeps (s : State) (k0 : Keeps p₀ s) : Keeps p₀ (State.chooseSlot s) := by
  unfold State.chooseSlot; try dsimp only
  repeat' first | with_reducible first | assumption | apply Keeps.ite | split | apply State.bootAppend_keeps | apply State.startSlot_keeps | apply State.fwNote_keeps | apply State.mark_keeps | apply State.raise_keeps

theorem State.firmwareBoot_keeps (s : State) (k0 : Keeps p₀ s) : Keeps p₀ (State.firmwareBoot s) := by
  unfold State.firmwareBoot; try dsimp only
  repeat' first | with_reducible first | assumption | apply Keeps.ite | split | apply State.chooseSlot_keeps | apply State.note_keeps | simp only [Keeps.lit]

theorem State.mgtRestart_keeps (s : State) (k0 : Keeps p₀ s) : Keeps p₀ (State.mgtRestart s) := by
  unfold State.mgtRestart; try dsimp only
  repeat' first | with_reducible first | assumption | apply Keeps.ite | apply State.note_keeps | apply State.set_keeps | apply State.mark_keeps | apply State.raise_keeps | simp only [Keeps.lit]

theorem State.trialLost_keeps (s : State) (k0 : Keeps p₀ s) : Keeps p₀ (State.trialLost s) := by
  unfold State.trialLost; try dsimp only
  repeat' first | with_reducible first | assumption | apply Keeps.ite | apply State.warmBegin_keeps

theorem State.trialDone_keeps (s : State) (k0 : Keeps p₀ s) : Keeps p₀ (State.trialDone s) := by
  unfold State.trialDone; try dsimp only
  repeat' first | with_reducible first | assumption | apply Keeps.ite | split | apply State.bootAppend_keeps | apply State.fwNote_keeps | simp only [Keeps.lit]

theorem State.mailbox_keeps (s : State) (cmd : Nat) (act : State → Nat × State) (kf_act : ∀ s, Keeps p₀ s → Keeps p₀ (act s).2) (k0 : Keeps p₀ s) : Keeps p₀ (State.mailbox s cmd act) := by
  unfold State.mailbox; try dsimp only
  repeat' first | with_reducible first | assumption | apply Keeps.ite | apply kf_act | apply State.mark_keeps | simp only [Keeps.lit]

theorem State.updateFirmware_keeps (s : State) (o : ReadOutcome) (flashOk : Bool) (k0 : Keeps p₀ s) : Keeps p₀ (State.updateFirmware s o flashOk).2 := by
  unfold State.updateFirmware; try dsimp only
  repeat' first | with_reducible first | assumption | split | apply State.readEnds_keeps | apply State.access_keeps | apply State.fwNote_keeps | apply State.flashClear_keeps | apply State.flashPut_keeps | simp only [Keeps.lit]

theorem State.activateFirmware_keeps (s : State) (k0 : Keeps p₀ s) : Keeps p₀ (State.activateFirmware s) := by
  unfold State.activateFirmware; try dsimp only
  repeat' first | with_reducible first | assumption | intro _ | apply Keeps.ite | apply State.mailbox_keeps | apply State.bootAppend_keeps | apply State.fwNote_keeps | apply State.mark_keeps | apply State.warmBegin_keeps

theorem State.mailDone_keeps (s : State) (k0 : Keeps p₀ s) : Keeps p₀ (State.mailDone s) := by
  unfold State.mailDone; try dsimp only
  repeat' first | with_reducible first | assumption | split | apply State.setAll_keeps | apply State.raise_keeps | simp only [Keeps.lit]

theorem State.enterSector_keeps (s : State) (sector seq : Nat) (k0 : Keeps p₀ s) : Keeps p₀ (State.enterSector s sector seq) := by
  unfold State.enterSector; try dsimp only
  repeat' first | with_reducible first | assumption | apply Keeps.ite | apply State.flashPut_keeps | apply State.flashClear_keeps | simp only [Keeps.lit]

theorem State.logProgram_keeps (s : State) (ok : Bool) (k0 : Keeps p₀ s) : Keeps p₀ (State.logProgram s ok) := by
  unfold State.logProgram; try dsimp only
  repeat' first | with_reducible first | assumption | apply Keeps.ite | split | apply State.enterSector_keeps | apply State.flashPut_keeps | apply State.emit_keeps | apply State.mark_keeps | apply State.raise_keeps | simp only [Keeps.lit]

theorem State.copyLog_keeps (s : State) (o : ReadOutcome) (k0 : Keeps p₀ s) : Keeps p₀ (State.copyLog s o).2 := by
  unfold State.copyLog; try dsimp only
  repeat' first | with_reducible first | assumption | split | apply State.access_keeps | apply State.memPut_keeps | apply State.uncRead_keeps | apply State.set_keeps

theorem State.thermNote_keeps (s : State) (i event : Nat) (k0 : Keeps p₀ s) : Keeps p₀ (State.thermNote s i event) := by
  unfold State.thermNote; try dsimp only
  repeat' first | with_reducible first | assumption | apply State.note_keeps

theorem State.thermalTo_keeps (s : State) (k v : Nat) (k0 : Keeps p₀ s) : Keeps p₀ (State.thermalTo s k v) := by
  unfold State.thermalTo; try dsimp only
  repeat' first | with_reducible first | assumption | apply Keeps.ite | apply State.modLoop_keeps | apply State.limitMoved_keeps

theorem State.thermalStep_keeps (s : State) (k : Nat) (k0 : Keeps p₀ s) : Keeps p₀ (State.thermalStep s k) := by
  unfold State.thermalStep; try dsimp only
  repeat' first | with_reducible first | assumption | apply Keeps.ite | apply State.modLoop_keeps | apply State.capture_keeps | apply State.thermNote_keeps | apply State.thermalTo_keeps

theorem State.thermalTick_keeps (s : State) (temps : List (BitVec 16)) (k0 : Keeps p₀ s) : Keeps p₀ (State.thermalTick s temps) := by
  unfold State.thermalTick; try dsimp only
  repeat' first | with_reducible first | assumption | intro _ | apply Keeps.ite | apply Keeps.foldl | apply State.set_keeps | apply State.draw_keeps | apply State.modLoop_keeps | apply State.thermalStep_keeps | apply State.mark_keeps | apply State.thermNote_keeps

theorem State.tripped_keeps (s : State) (i : Nat) (t : BitVec 16) (k0 : Keeps p₀ s) : Keeps p₀ (State.tripped s i t) := by
  unfold State.tripped; try dsimp only
  repeat' first | with_reducible first | assumption | intro _ | apply Keeps.ite | apply Keeps.foldl | apply State.set_keeps | apply State.mark_keeps | apply State.capture_keeps | apply State.modLoop_keeps | apply State.thermalTo_keeps | apply State.thermNote_keeps | apply State.opKick_keeps | simp only [Keeps.lit]

theorem State.tripEnd_keeps (s : State) (k0 : Keeps p₀ s) : Keeps p₀ (State.tripEnd s) := by
  unfold State.tripEnd; try dsimp only
  repeat' first | with_reducible first | assumption | apply Keeps.ite | apply State.set_keeps | apply State.thermNote_keeps | apply State.opKick_keeps | simp only [Keeps.lit]

theorem State.capTo_keeps (s : State) (k v : Nat) (k0 : Keeps p₀ s) : Keeps p₀ (State.capTo s k v) := by
  unfold State.capTo; try dsimp only
  repeat' first | with_reducible first | assumption | apply Keeps.ite | apply State.modLoop_keeps | apply State.limitMoved_keeps

theorem State.capTick_keeps (s : State) (mw : Nat) (k0 : Keeps p₀ s) : Keeps p₀ (State.capTick s mw) := by
  unfold State.capTick; try dsimp only
  repeat' first | with_reducible first | assumption | intro _ | apply Keeps.ite | apply Keeps.foldl | apply State.set_keeps | apply State.capTo_keeps | simp only [Keeps.lit]

theorem State.lcyRequest_keeps (s : State) (target : Nat) (k0 : Keeps p₀ s) : Keeps p₀ (State.lcyRequest s target) := by
  unfold State.lcyRequest; try dsimp only
  repeat' first | with_reducible first | assumption | apply Keeps.ite | split | apply State.note_keeps | apply State.set_keeps | simp only [Keeps.lit]

theorem State.lcyCommit_keeps (s : State) (k0 : Keeps p₀ s) : Keeps p₀ (State.lcyCommit s) := by
  unfold State.lcyCommit; try dsimp only
  repeat' first | with_reducible first | assumption | split | apply State.warmBegin_keeps | simp only [Keeps.lit]

theorem State.keyCommand_keeps (s : State) (cmd slot : Nat) (k0 : Keeps p₀ s) : Keeps p₀ (State.keyCommand s cmd slot) := by
  unfold State.keyCommand; try dsimp only
  repeat' first | with_reducible first | assumption | apply Keeps.ite | apply State.set_keeps | simp only [Keeps.lit]

theorem State.keyDone_keeps (s : State) (k0 : Keeps p₀ s) : Keeps p₀ (State.keyDone s) := by
  unfold State.keyDone; try dsimp only
  repeat' first | with_reducible first | assumption | split | apply State.note_keeps | apply State.set_keeps | apply State.mark_keeps | apply State.raise_keeps | simp only [Keeps.lit]

theorem State.sendTelem_keeps (s : State) (node : Nat) (k0 : Keeps p₀ s) : Keeps p₀ (State.sendTelem s node) := by
  unfold State.sendTelem; try dsimp only
  repeat' first | with_reducible first | assumption | apply State.plkPost_keeps | simp only [Keeps.lit]

theorem State.telemPush_keeps (s : State) (k0 : Keeps p₀ s) : Keeps p₀ (State.telemPush s) := by
  unfold State.telemPush; try dsimp only
  repeat' first | with_reducible first | assumption | intro _ | apply Keeps.ite | apply Keeps.foldl | apply State.sendTelem_keeps

theorem State.telemAsked_keeps (s : State) (k : Packet) (k0 : Keeps p₀ s) : Keeps p₀ (State.telemAsked s k) := by
  unfold State.telemAsked; try dsimp only
  repeat' first | with_reducible first | assumption | apply Keeps.ite | apply State.sendTelem_keeps

theorem State.readEffect_keeps (s : State) (m a : Nat) (k0 : Keeps p₀ s) : Keeps p₀ (State.readEffect s m a) := by
  unfold State.readEffect; try dsimp only
  repeat' first | with_reducible first | assumption | intro _ | apply Keeps.ite | split | apply Keeps.foldl | apply State.set_keeps | apply State.doneLostRead_keeps

theorem State.hostRead_keeps (s : State) (m addr : Nat) (k0 : Keeps p₀ s) : Keeps p₀ (State.hostRead s m addr) := by
  unfold State.hostRead; try dsimp only
  repeat' first | with_reducible first | assumption | apply Keeps.ite | apply State.emit_keeps | apply State.readEffect_keeps

theorem State.writeFields_keeps (s : State) (row : RegRow) (a v : Nat) (k0 : Keeps p₀ s) : Keeps p₀ (State.writeFields s row a v) := by
  unfold State.writeFields; try dsimp only
  repeat' first | with_reducible first | assumption | intro _ | split | apply Keeps.foldl | apply State.set_keeps

theorem State.keyWrite_keeps (s : State) (v : Nat) (k0 : Keeps p₀ s) : Keeps p₀ (State.keyWrite s v) := by
  unfold State.keyWrite; try dsimp only
  repeat' first | with_reducible first | assumption | apply Keeps.ite | apply State.set_keeps | apply State.mark_keeps

theorem State.discardWrites_keeps (s : State) (k0 : Keeps p₀ s) : Keeps p₀ (State.discardWrites s) := by
  unfold State.discardWrites; try dsimp only
  repeat' first | with_reducible first | assumption | apply State.setAll_keeps | simp only [Keeps.lit]

theorem State.lpCtrl_keeps (s : State) (v : Nat) (k0 : Keeps p₀ s) : Keeps p₀ (State.lpCtrl s v) := by
  unfold State.lpCtrl; try dsimp only
  repeat' first | with_reducible first | assumption | apply Keeps.ite | apply State.setAll_keeps | apply State.lpRequest_keeps | apply State.lpCancel_keeps

theorem State.rstCtrl_keeps (s : State) (v : Nat) (k0 : Keeps p₀ s) : Keeps p₀ (State.rstCtrl s v) := by
  unfold State.rstCtrl; try dsimp only
  repeat' first | with_reducible first | assumption | apply Keeps.ite | apply State.mark_keeps | apply State.warmBegin_keeps | apply State.softBegin_keeps

theorem State.rstDomain_keeps (s : State) (v : Nat) (k0 : Keeps p₀ s) : Keeps p₀ (State.rstDomain s v) := by
  unfold State.rstDomain; try dsimp only
  repeat' first | with_reducible first | assumption | apply Keeps.ite | apply State.set_keeps | apply State.domainRequest_keeps

theorem State.wipeCtrl_keeps (s : State) (v : Nat) (k0 : Keeps p₀ s) : Keeps p₀ (State.wipeCtrl s v) := by
  unfold State.wipeCtrl; try dsimp only
  repeat' first | with_reducible first | assumption | apply Keeps.ite | apply State.set_keeps | apply State.wipeRequest_keeps

theorem State.rasFence_keeps (s : State) (v : Nat) (k0 : Keeps p₀ s) : Keeps p₀ (State.rasFence s v) := by
  unfold State.rasFence; try dsimp only
  repeat' first | with_reducible first | assumption | apply Keeps.ite | apply State.setAll_keeps | apply State.fenceCommand_keeps

theorem State.cmCommand_keeps (s : State) (v : Nat) (k0 : Keeps p₀ s) : Keeps p₀ (State.cmCommand s v) := by
  unfold State.cmCommand; try dsimp only
  repeat' first | with_reducible first | assumption | apply Keeps.ite | apply State.cmStart_keeps | apply State.setAll_keeps

theorem State.seCommand_keeps (s : State) (n v : Nat) (k0 : Keeps p₀ s) : Keeps p₀ (State.seCommand s n v) := by
  unfold State.seCommand; try dsimp only
  repeat' first | with_reducible first | assumption | split | apply State.seArm_keeps | apply State.seAbort_keeps | apply State.seClearShadow_keeps

theorem State.pcCtrl_keeps (s : State) (v : Nat) (k0 : Keeps p₀ s) : Keeps p₀ (State.pcCtrl s v) := by
  unfold State.pcCtrl; try dsimp only
  repeat' first | with_reducible first | assumption | intro _ | apply Keeps.ite | apply Keeps.foldl | apply State.set_keeps | apply State.setAll_keeps

theorem State.freeOutcome_keeps (s : State) (k0 : Keeps p₀ s) : Keeps p₀ (State.freeOutcome s).2 := by
  unfold State.freeOutcome; try dsimp only
  repeat' first | with_reducible first | assumption | apply State.draw_keeps

theorem State.freeReadings_keeps (s : State) (k0 : Keeps p₀ s) : Keeps p₀ (State.freeReadings s).2 := by
  unfold State.freeReadings; try dsimp only
  repeat' first | with_reducible first | assumption | apply State.draw_keeps

theorem State.mbCommand_keeps (s : State) (cmd : Nat) (o : ReadOutcome) (flashOk : Bool) (k0 : Keeps p₀ s) : Keeps p₀ (State.mbCommand s cmd o flashOk) := by
  unfold State.mbCommand; try dsimp only
  repeat' first | with_reducible first | assumption | intro _ | split | apply State.mailbox_keeps | apply State.updateFirmware_keeps | apply State.activateFirmware_keeps | apply State.copyLog_keeps

theorem State.mbWrite_keeps (s : State) (v : Nat) (k0 : Keeps p₀ s) : Keeps p₀ (State.mbWrite s v) := by
  unfold State.mbWrite; try dsimp only
  repeat' first | with_reducible first | assumption | apply State.freeOutcome_keeps | apply State.draw_keeps | apply State.mbCommand_keeps

theorem State.ageCommand_keeps (s : State) (v : Nat) (readings : List (List Nat)) (k0 : Keeps p₀ s) : Keeps p₀ (State.ageCommand s v readings) := by
  unfold State.ageCommand; try dsimp only
  repeat' first | with_reducible first | assumption | apply Keeps.ite | apply State.measure_keeps

theorem State.clearDone_keeps (s : State) (row : RegRow) (v : Nat) (k0 : Keeps p₀ s) : Keeps p₀ (State.clearDone s row v) := by
  unfold State.clearDone; try dsimp only
  repeat' first | with_reducible exact id | with_reducible exact fun q => (length_zipMap _ _).trans q | with_reducible first | assumption | apply State.writeFields_keeps | apply Keeps.litAll

theorem State.writeLow_keeps (s : State) (row : RegRow) (m a v : Nat) (k0 : Keeps p₀ s) : Keeps p₀ (State.writeLow s row m a v) := by
  unfold State.writeLow; try dsimp only
  repeat' first | with_reducible first | assumption | apply Keeps.ite | apply State.keyWrite_keeps | apply State.discardWrites_keeps | apply State.claim_keeps | apply State.handover_keeps | apply State.heartbeat_keeps | apply State.clearDone_keeps | apply State.ldrCommand_keeps | apply State.dqTail_keeps | apply State.dqCommand_keeps | apply State.writeFields_keeps | simp only [Keeps.lit]

theorem State.writeMid_keeps (s : State) (row : RegRow) (a v : Nat) (k0 : Keeps p₀ s) : Keeps p₀ (State.writeMid s row a v) := by
  unfold State.writeMid; try dsimp only
  repeat' first | with_reducible first | assumption | apply Keeps.ite | split | apply State.opRequested_keeps | apply State.opOverridden_keeps | apply State.lpCtrl_keeps | apply State.set_keeps | apply State.rstCtrl_keeps | apply State.rstDomain_keeps | apply State.lcyRequest_keeps | apply State.wipeCtrl_keeps | apply State.rasFence_keeps | apply State.writeFields_keeps | apply State.freeReadings_keeps | apply State.ageCommand_keeps

theorem State.writeHigh_keeps (s : State) (row : RegRow) (a v : Nat) (k0 : Keeps p₀ s) : Keeps p₀ (State.writeHigh s row a v) := by
  unfold State.writeHigh; try dsimp only
  repeat' first | with_reducible first | assumption | apply Keeps.ite | split | apply State.seCommand_keeps | apply State.answerFault_keeps | apply State.hotPop_keeps | apply State.cmCommand_keeps | apply State.mbWrite_keeps | apply State.keyCommand_keeps | apply State.schedEnable_keeps | apply State.writeFields_keeps | apply State.portEnable_keeps | apply State.evtSend_keeps | apply State.pcCtrl_keeps

theorem State.writeReg_keeps (s : State) (row : RegRow) (m a v : Nat) (k0 : Keeps p₀ s) : Keeps p₀ (State.writeReg s row m a v) := by
  unfold State.writeReg; try dsimp only
  repeat' first | with_reducible first | assumption | apply Keeps.ite | apply State.writeLow_keeps | apply State.writeMid_keeps | apply State.writeFields_keeps | apply State.writeHigh_keeps

theorem State.bufferWrite_keeps (s : State) (a v : Nat) (k0 : Keeps p₀ s) : Keeps p₀ (State.bufferWrite s a v) := by
  unfold State.bufferWrite; try dsimp only
  repeat' first | with_reducible first | assumption | apply Keeps.ite | apply State.mark_keeps | apply State.beginHold_keeps | simp only [Keeps.lit]

theorem State.parityFault_keeps (s : State) (a : Nat) (buffer : Bool) (k0 : Keeps p₀ s) : Keeps p₀ (State.parityFault s a buffer) := by
  unfold State.parityFault; try dsimp only
  repeat' first | with_reducible first | assumption | split | apply State.setAll_keeps | apply State.capture_keeps

theorem State.pasidWrite_keeps (s : State) (row : RegRow) (a v : Nat) (k0 : Keeps p₀ s) : Keeps p₀ (State.pasidWrite s row a v) := by
  unfold State.pasidWrite; try dsimp only
  repeat' first | with_reducible exact id | with_reducible exact fun q => (List.length_map _).trans q | exact fun q => stores_map (by intro l; first | rfl | ((try dsimp only); split <;> rfl)) q | exact fun _ => rfl | with_reducible first | assumption | apply Keeps.ite | apply State.writeFields_keeps | apply Keeps.litAll

theorem State.applyOne_keeps (s : State) (w : WEntry) (k0 : Keeps p₀ s) : Keeps p₀ (State.applyOne s w) := by
  unfold State.applyOne; try dsimp only
  repeat' first | with_reducible first | assumption | apply Keeps.ite | split | apply State.mark_keeps | apply State.parityFault_keeps | apply State.writeFields_keeps | apply State.switchDomains_keeps | apply State.set_keeps | apply State.pasidWrite_keeps

theorem State.applyWrites_keeps (s : State) (k0 : Keeps p₀ s) : Keeps p₀ (State.applyWrites s) := by
  unfold State.applyWrites; try dsimp only
  repeat' first | with_reducible first | assumption | intro _ | apply Keeps.ite | apply Keeps.foldl | apply State.applyOne_keeps | apply State.setAll_keeps | apply State.mark_keeps | simp only [Keeps.lit]

theorem State.atEpoch_keeps (s : State) (k0 : Keeps p₀ s) : Keeps p₀ (State.atEpoch s) := by
  unfold State.atEpoch; try dsimp only
  repeat' first | with_reducible first | assumption | apply State.applyWrites_keeps | apply State.domainBegin_keeps | apply State.wipeBegin_keeps | apply State.returnBank_keeps | apply State.setAll_keeps

theorem State.napWrites_keeps (s : State) (k0 : Keeps p₀ s) : Keeps p₀ (State.napWrites s) := by
  unfold State.napWrites; try dsimp only
  repeat' first | with_reducible first | assumption | apply State.applyWrites_keeps | apply State.setAll_keeps

theorem State.engineEpoch_keeps (s : State) (k0 : Keeps p₀ s) : Keeps p₀ (State.engineEpoch s) := by
  unfold State.engineEpoch; try dsimp only
  repeat' first | with_reducible first | assumption | apply Keeps.ite | apply State.atEpoch_keeps | apply State.napWrites_keeps

theorem State.holdTimeout_keeps (s : State) (k0 : Keeps p₀ s) : Keeps p₀ (State.holdTimeout s) := by
  unfold State.holdTimeout; try dsimp only
  repeat' first | with_reducible first | assumption | apply Keeps.ite | apply State.setAll_keeps

theorem State.lpEntry_keeps (s : State) (k0 : Keeps p₀ s) : Keeps p₀ (State.lpEntry s) := by
  unfold State.lpEntry; try dsimp only
  repeat' first | with_reducible first | assumption | apply Keeps.ite | apply State.atEpoch_keeps | apply State.lpGo_keeps

theorem State.markHif_keeps (s : State) (f : RField) (k0 : Keeps p₀ s) : Keeps p₀ (State.markHif s f) := by
  unfold State.markHif; try dsimp only
  repeat' first | with_reducible first | assumption | apply Keeps.ite | apply State.mark_keeps

theorem State.portWrite_keeps (s : State) (a v : Nat) (act : RegRow → State → State) (kf_act : ∀ r s, Keeps p₀ s → Keeps p₀ (act r s)) (k0 : Keeps p₀ s) : Keeps p₀ (State.portWrite s a v act) := by
  unfold State.portWrite; try dsimp only
  repeat' first | with_reducible first | assumption | apply Keeps.ite | split | apply kf_act | apply State.bufferWrite_keeps | apply State.set_keeps | apply State.markHif_keeps

theorem State.hostWriteBy_keeps (s : State) (m addr size v : Nat) (act : RegRow → State → State) (kf_act : ∀ r s, Keeps p₀ s → Keeps p₀ (act r s)) (k0 : Keeps p₀ s) : Keeps p₀ (State.hostWriteBy s m addr size v act) := by
  unfold State.hostWriteBy; try dsimp only
  repeat' first | with_reducible first | assumption | apply Keeps.ite | apply State.markHif_keeps | apply State.deny_keeps | apply State.portWrite_keeps

theorem State.hostWrite_keeps (s : State) (m addr size v : Nat) (k0 : Keeps p₀ s) : Keeps p₀ (State.hostWrite s m addr size v) := by
  unfold State.hostWrite; try dsimp only
  repeat' first | with_reducible first | assumption | intro _ | apply State.hostWriteBy_keeps | apply State.writeReg_keeps

theorem State.parityScan_keeps (s : State) (addr : Nat) (buffer : Bool) (k0 : Keeps p₀ s) : Keeps p₀ (State.parityScan s addr buffer) := by
  unfold State.parityScan; try dsimp only
  repeat' first | with_reducible exact id | with_reducible exact fun q => (List.length_map _).trans q | exact fun q => stores_map (by intro l; first | rfl | ((try dsimp only); split <;> rfl)) q | exact fun _ => rfl | with_reducible first | assumption | apply Keeps.ite | split | apply State.resetRegs_keeps | apply State.opKick_keeps | apply State.lpCancel_keeps | apply State.set_keeps | apply State.portEnable_keeps | apply State.parityFault_keeps | simp only [Keeps.lit] | apply Keeps.litAll

theorem State.fp2_keeps (s : State) (g : Group) (w : Nat) (f : Nat → Nat → Nat) (kg_g : Canon p₀ → Group.Canon g) (k0 : Keeps p₀ s) : Keeps p₀ (State.fp2 s g w f) := by
  unfold State.fp2; try dsimp only
  repeat' first | with_reducible first | assumption | apply State.writesD_keeps

theorem State.halves_keeps (s : State) (g : Group) (w : Nat) (f : Nat → Nat → Nat → Nat) (kg_g : Canon p₀ → Group.Canon g) (k0 : Keeps p₀ s) : Keeps p₀ (State.halves s g w f) := by
  unfold State.halves; try dsimp only
  repeat' first | with_reducible first | assumption | apply State.writesD_keeps

theorem State.monFinal_keeps (s : State) (t : List Byte) (k0 : Keeps p₀ s) : Keeps p₀ (State.monFinal s t) := by
  unfold State.monFinal; try dsimp only
  repeat' first | with_reducible first | assumption | apply Keeps.ite | apply State.emit_keeps | simp only [Keeps.lit]

theorem State.monOk_keeps (s : State) (k0 : Keeps p₀ s) : Keeps p₀ (State.monOk s) := by
  unfold State.monOk; try dsimp only
  repeat' first | with_reducible first | assumption | apply State.monFinal_keeps

theorem State.monFail_keeps (s : State) (e : MonErr) (k0 : Keeps p₀ s) : Keeps p₀ (State.monFail s e) := by
  unfold State.monFail; try dsimp only
  repeat' first | with_reducible first | assumption | apply State.monFinal_keeps

theorem State.monItem_keeps (s : State) (key value : Nat) (k0 : Keeps p₀ s) : Keeps p₀ (State.monItem s key value) := by
  unfold State.monItem; try dsimp only
  repeat' first | with_reducible first | assumption | apply State.emit_keeps

theorem State.monRun_keeps (s : State) (k : MonKind) (rom owner inRange : Bool) (act : State → State) (kf_act : ∀ s, Keeps p₀ s → Keeps p₀ (act s)) (k0 : Keeps p₀ s) : Keeps p₀ (State.monRun s k rom owner inRange act) := by
  unfold State.monRun; try dsimp only
  repeat' first | with_reducible first | assumption | apply Keeps.ite | apply kf_act | apply State.monFail_keeps

theorem State.monWrite_keeps (s : State) (code a v : Nat) (k0 : Keeps p₀ s) : Keeps p₀ (State.monWrite s code a v) := by
  unfold State.monWrite; try dsimp only
  repeat' first | with_reducible first | assumption | apply State.note_keeps | apply State.hostWrite_keeps

theorem State.monPeekN_keeps (s : State) (a : Nat) (e0 : Nat) (k0 : Keeps p₀ s) : Keeps p₀ (State.monPeekN s a e0) := by
  induction e0 generalizing s a with
  | zero => unfold State.monPeekN; first | exact k0 | skip; try dsimp only; repeat' first | assumption
  | succ e0 ih =>
    unfold State.monPeekN; try dsimp only
    repeat' first | with_reducible first | assumption | apply State.readEffect_keeps | apply State.monItem_keeps | apply ih

theorem State.monPeek_keeps (s : State) (addr n : Nat) (k0 : Keeps p₀ s) : Keeps p₀ (State.monPeek s addr n) := by
  unfold State.monPeek; try dsimp only
  repeat' first | with_reducible first | assumption | intro _ | apply State.monRun_keeps | apply State.monPeekN_keeps | apply State.monOk_keeps

theorem State.monPoke_keeps (s : State) (addr v : Nat) (k0 : Keeps p₀ s) : Keeps p₀ (State.monPoke s addr v) := by
  unfold State.monPoke; try dsimp only
  repeat' first | with_reducible first | assumption | intro _ | apply State.monRun_keeps | apply State.monWrite_keeps | apply State.monOk_keeps

theorem State.monStat_keeps (s : State) (k0 : Keeps p₀ s) : Keeps p₀ (State.monStat s) := by
  unfold State.monStat; try dsimp only
  repeat' first | with_reducible first | assumption | intro _ | split | apply Keeps.foldl | apply State.monRun_keeps | apply State.monItem_keeps | apply State.monOk_keeps

theorem State.monLog_keeps (s : State) (n : Nat) (k0 : Keeps p₀ s) : Keeps p₀ (State.monLog s n) := by
  unfold State.monLog; try dsimp only
  repeat' first | with_reducible first | assumption | intro _ | apply Keeps.foldl | apply State.monRun_keeps | apply State.monItem_keeps | apply State.monOk_keeps

theorem State.monSens_keeps (s : State) (k0 : Keeps p₀ s) : Keeps p₀ (State.monSens s) := by
  unfold State.monSens; try dsimp only
  repeat' first | with_reducible first | assumption | intro _ | apply Keeps.foldl | apply State.monRun_keeps | apply State.monItem_keeps | apply State.monOk_keeps

theorem State.monFence_keeps (s : State) (op kind index : Nat) (k0 : Keeps p₀ s) : Keeps p₀ (State.monFence s op kind index) := by
  unfold State.monFence; try dsimp only
  repeat' first | with_reducible first | assumption | intro _ | apply State.monRun_keeps | apply State.hostWrite_keeps | apply State.monWrite_keeps | apply State.monItem_keeps | apply State.monOk_keeps

theorem State.monTrace_keeps (s : State) (on : Bool) (k0 : Keeps p₀ s) : Keeps p₀ (State.monTrace s on) := by
  unfold State.monTrace; try dsimp only
  repeat' first | with_reducible first | assumption | intro _ | apply State.monRun_keeps | apply State.monOk_keeps | simp only [Keeps.lit]

theorem State.monOwn_keeps (s : State) (k0 : Keeps p₀ s) : Keeps p₀ (State.monOwn s) := by
  unfold State.monOwn; try dsimp only
  repeat' first | with_reducible first | assumption | intro _ | apply State.monRun_keeps | apply State.monItem_keeps | apply State.monOk_keeps

theorem State.monOwnWrite_keeps (s : State) (owner : Bool) (a v : Nat) (k0 : Keeps p₀ s) : Keeps p₀ (State.monOwnWrite s owner a v) := by
  unfold State.monOwnWrite; try dsimp only
  repeat' first | with_reducible first | assumption | intro _ | apply State.monRun_keeps | apply State.monWrite_keeps | apply State.monOk_keeps

theorem State.monAuth_keeps (s : State) (k0 : Keeps p₀ s) : Keeps p₀ (State.monAuth s) := by
  unfold State.monAuth; try dsimp only
  repeat' first | with_reducible first | assumption | intro _ | apply State.monRun_keeps | apply State.draw_keeps | apply State.emit_keeps | apply State.monOk_keeps | simp only [Keeps.lit]

theorem State.monAuthSig_keeps (s : State) (sig : List Byte) (k0 : Keeps p₀ s) : Keeps p₀ (State.monAuthSig s sig) := by
  unfold State.monAuthSig; try dsimp only
  repeat' first | with_reducible first | assumption | intro _ | apply Keeps.ite | split | apply State.monFail_keeps | apply State.monRun_keeps | apply State.monOk_keeps | simp only [Keeps.lit]

theorem State.monLock_keeps (s : State) (k0 : Keeps p₀ s) : Keeps p₀ (State.monLock s) := by
  unfold State.monLock; try dsimp only
  repeat' first | with_reducible first | assumption | intro _ | apply State.monRun_keeps | apply State.monOk_keeps | simp only [Keeps.lit]

theorem State.monOp_keeps (s : State) (n : Nat) (k0 : Keeps p₀ s) : Keeps p₀ (State.monOp s n) := by
  unfold State.monOp; try dsimp only
  repeat' first | with_reducible first | assumption | intro _ | apply State.monRun_keeps | apply State.monWrite_keeps | apply State.monOk_keeps

theorem State.monHelp_keeps (s : State) (k0 : Keeps p₀ s) : Keeps p₀ (State.monHelp s) := by
  unfold State.monHelp; try dsimp only
  repeat' first | with_reducible first | assumption | intro _ | split | apply Keeps.foldl | apply State.monRun_keeps | apply State.monItem_keeps | apply State.monOk_keeps

theorem State.monLine_keeps (s : State) (text : List Byte) (lost : Bool) (k0 : Keeps p₀ s) : Keeps p₀ (State.monLine s text lost) := by
  unfold State.monLine; try dsimp only
  repeat' first | with_reducible first | assumption | apply Keeps.ite | split | apply State.monFail_keeps | simp only [Keeps.lit]

theorem State.receiveTyped_keeps (s : State) (p typ : Nat) (k : Packet) (take : State → State) (kf_take : ∀ s, Keeps p₀ s → Keeps p₀ (take s)) (k0 : Keeps p₀ s) : Keeps p₀ (State.receiveTyped s p typ k take) := by
  unfold State.receiveTyped; try dsimp only
  repeat' first | with_reducible first | assumption | apply Keeps.ite | apply State.receive_keeps

theorem State.unknownReceived_keeps (s : State) (p : Nat) (k : Packet) (k0 : Keeps p₀ s) : Keeps p₀ (State.unknownReceived s p k) := by
  unfold State.unknownReceived; try dsimp only
  repeat' first | with_reducible first | assumption | apply Keeps.ite | apply State.bump_keeps | apply State.rxDiscard_keeps | apply State.rxHead_keeps | apply State.modPlkPort_keeps | apply State.plkFree_keeps

theorem State.badPacket_keeps (s : State) (p : Nat) (k : Packet) (k0 : Keeps p₀ s) : Keeps p₀ (State.badPacket s p k) := by
  unfold State.badPacket; try dsimp only
  repeat' first | with_reducible first | assumption | intro _ | apply Keeps.ite | apply State.receive_keeps

theorem State.saveRegs_wf (s : State) (g : Group) (row n : Nat) (m : List Host.Cell) (h : Memory.wf m = true) :
    Memory.wf (s.saveRegs g row n m) = true := by
  unfold State.saveRegs
  have step : ∀ (l : List (Nat × Nat)) (m : List Host.Cell), Memory.wf m = true → Memory.wf (l.foldl (fun m e =>
      putBytes m (s.saveAddr g.lc (128 * (row + e.1 % 256)) + 4 * (e.1 / 256)) (leBytes 4 e.2)) m) = true := by
    intro l
    induction l with
    | nil => exact fun _ h => h
    | cons c r ih => exact fun m h => ih _ (putBytes_wf _ _ _ h)
  exact step _ _ h

theorem foldl_wf {α : Type} {f : List Host.Cell → α → List Host.Cell} (hf : ∀ m x, Memory.wf m = true → Memory.wf (f m x) = true)
    (l : List α) (m : List Host.Cell) (h : Memory.wf m = true) : Memory.wf (l.foldl f m) = true := by
  induction l generalizing m with
  | nil => exact h
  | cons x r ih => exact ih _ (hf m x h)

theorem State.saveCore_keeps (s : State) (lc : Nat) (gs : List (Group × Nat)) (k0 : Keeps p₀ s) : Keeps p₀ (State.saveCore s lc gs) := by
  unfold State.saveCore
  refine State.perf_keeps _ _ _ _ _ (Keeps.litAll k0 id (fun q => ?_) id id id id id id id id id id id id id id id id id id)
  exact foldl_wf (fun m x h => copyBytes_wf _ _ _ _ _ h) _ _ (foldl_wf (fun m x h => State.saveRegs_wf _ _ _ _ _ h) _ _ (swf_sclear _ _ _ q))

theorem Group.kept_canon {g : Group} (row : Nat) (h : g.Canon) : (g.kept row).Canon := by
  unfold Group.kept
  dsimp only
  split <;> exact ⟨rfl, h.2⟩

theorem Group.kept_id (g : Group) (row : Nat) : (g.kept row).id = g.id := by
  unfold Group.kept
  dsimp only
  split <;> rfl

theorem State.coreSaves_keeps (s : State) (lc : Fin 16) (k0 : Keeps p₀ s) : Keeps p₀ (State.coreSaves s lc) := by
  unfold State.coreSaves
  extract_lets gs s1 waits
  split
  · exact k0
  have k1 : Keeps p₀ s1 := State.saveCore_keeps _ _ _ k0
  refine Keeps.litGroups k1 (fun q => groups_map (fun g hg => ?_) q) (fun q => handles_map (fun g _ => ?_) q)
  · split
    · exact Group.kept_canon _ hg
    · exact hg
  · split
    · exact Group.kept_id _ _
    · rfl

theorem State.suspendAll_keeps (s : State) (tc : Nat) (e0 : List Ray) (k0 : Keeps p₀ s) : Keeps p₀ (State.suspendAll s tc e0).2 := by
  induction e0 generalizing s with
  | nil => exact k0
  | cons e0 r0 ih =>
    unfold State.suspendAll
    repeat' first | with_reducible first | assumption | extract_lets | split | apply ih | (refine State.spillFails_keeps (by assumption) ?_) | apply State.modRay_keeps | (refine Keeps.ofSnd (by assumption) ?_) | apply State.spcAccess_keeps

theorem State.preemptPoint_keeps (s : State) (u : EUnit) (k0 : Keeps p₀ s) : Keeps p₀ (State.preemptPoint s u) := by
  unfold State.preemptPoint
  split
  · exact k0
  extract_lets there low keep
  have kt : ∀ s, Keeps p₀ s → Keeps p₀ (there s) := fun s k => Keeps.lit.2 k
  clear_value there
  split
  · split
    · exact kt _ (State.coreSaves_keeps _ _ k0)
    · exact k0
  · extract_lets c
    split
    · exact k0
    · split <;> rename_i q
      · exact kt _ (Keeps.ofSnd q (State.suspendAll_keeps _ _ _ k0))
      · exact Keeps.ofSnd q (State.suspendAll_keeps _ _ _ k0)
  · exact kt _ (Keeps.litAll k0 id id id id id id id id id id id id id id id id id id (fun q => (length_modifyAt _ _ _).trans q) id)
  · exact kt _ k0

theorem State.loadRow_wf (s : State) (g : Group) (r : Nat) (regs : List (Nat × Nat)) (h : swf (fun _ => 0) regs = true) :
    swf (fun _ => 0) (s.loadRow g r regs) = true := by
  unfold State.loadRow
  have step : ∀ (l : List Nat) (m : List (Nat × Nat)), swf (fun _ => 0) m = true → swf (fun _ => 0) (l.foldl (fun m l =>
      sset (fun _ => 0) m (256 * l + r) (leAt s.sf (s.saveAddr g.lc (128 * (g.saveRow + r)) + 4 * l) 4)) m) = true := by
    intro l
    induction l with
    | nil => exact fun _ h => h
    | cons c r ih => exact fun m h => ih _ (swf_sset _ _ _ m h)
  exact step _ _ h

theorem State.restored_canon (s : State) {g : Group} (h : g.Canon) : (s.restored g).Canon := by
  refine ⟨?_, h.2⟩
  have step : ∀ (l : List Nat) (m : List (Nat × Nat)), swf (fun _ => 0) m = true →
      swf (fun _ => 0) (l.foldl (fun m r => s.loadRow g r m) m) = true := by
    intro l
    induction l with
    | nil => exact fun _ h => h
    | cons c r ih => exact fun m h => ih _ (State.loadRow_wf _ _ _ _ h)
  exact step _ _ rfl

theorem State.coreBack_keeps (s : State) (lc : Nat) (k0 : Keeps p₀ s) : Keeps p₀ (State.coreBack s lc) := by
  unfold State.coreBack
  extract_lets back bad
  split
  · exact k0
  extract_lets split store n s1
  have k1 : Keeps p₀ s1 := by
    refine State.perf_keeps _ _ _ _ _ (Keeps.litAll k0 id id id id (fun q => ?_) (fun q => groups_map (fun g hg => ?_) q)
      (fun q => handles_map (fun g _ => ?_) q) id id id id id (fun q => (length_modifyAt _ _ _).trans q) id id id id id id id)
    · exact stores_put (fun l hl => foldl_wf (fun m x h => copyBytes_wf _ _ _ _ _ h) _ _ rfl) q
    · split
      · exact State.restored_canon _ hg
      · exact hg
    · split <;> rfl
  refine Keeps.foldl k1 fun s x k => ?_
  split
  · rename_i q
    exact State.groupSettle_keeps _ _ _ (State.laneLost_keeps _ _ _ (Keeps.ofSnd q (State.readPoison_keeps _ _ _ k)))
  · rename_i q
    exact Keeps.ofSnd q (State.readPoison_keeps _ _ _ k)

theorem State.preemptBack_keeps (s : State) (u : EUnit) (k0 : Keeps p₀ s) : Keeps p₀ (State.preemptBack s u) := by
  unfold State.preemptBack; try dsimp only
  repeat' first | with_reducible first | assumption | apply Keeps.ite | split | apply State.coreBack_keeps | simp only [Keeps.lit]

theorem State.tick_keeps (s : State) (k0 : Keeps p₀ s) : Keeps p₀ (State.tick s) := by
  unfold State.tick; try dsimp only
  repeat' first | with_reducible first | assumption | apply State.tally2_keeps | simp only [Keeps.lit]

end Sys2Proof.Machine
end

