-- ==== Sys2Proof/Laws/State.lean ====
section
/-! SUPPORT. One lemma for each field under each update of the state, and what a register field reads after a write. -/

namespace Sys2Proof.Machine

/-! ### `State.set` -/

@[simp] theorem State.set_integ (s : State) (f : RField) (v : Nat) : (s.set f v).integ = s.integ := rfl
@[simp] theorem State.set_strap (s : State) (f : RField) (v : Nat) : (s.set f v).strap = s.strap := rfl
@[simp] theorem State.set_clkKhz (s : State) (f : RField) (v : Nat) : (s.set f v).clkKhz = s.clkKhz := rfl
@[simp] theorem State.set_ticks (s : State) (f : RField) (v : Nat) : (s.set f v).ticks = s.ticks := rfl
@[simp] theorem State.set_freeCtr (s : State) (f : RField) (v : Nat) : (s.set f v).freeCtr = s.freeCtr := rfl
@[simp] theorem State.set_macRem (s : State) (f : RField) (v : Nat) : (s.set f v).macRem = s.macRem := rfl
@[simp] theorem State.set_startup (s : State) (f : RField) (v : Nat) : (s.set f v).startup = s.startup := rfl
@[simp] theorem State.set_tagStart (s : State) (f : RField) (v : Nat) : (s.set f v).tagStart = s.tagStart := rfl
@[simp] theorem State.set_present (s : State) (f : RField) (v : Nat) : (s.set f v).present = s.present := rfl
@[simp] theorem State.set_therm (s : State) (f : RField) (v : Nat) : (s.set f v).therm = s.therm := rfl
@[simp] theorem State.set_wbuf (s : State) (f : RField) (v : Nat) : (s.set f v).wbuf = s.wbuf := rfl
@[simp] theorem State.set_svc (s : State) (f : RField) (v : Nat) : (s.set f v).svc = s.svc := rfl
@[simp] theorem State.set_vreq (s : State) (f : RField) (v : Nat) : (s.set f v).vreq = s.vreq := rfl
@[simp] theorem State.set_vwait (s : State) (f : RField) (v : Nat) : (s.set f v).vwait = s.vwait := rfl
@[simp] theorem State.set_opMove (s : State) (f : RField) (v : Nat) : (s.set f v).opMove = s.opMove := rfl
@[simp] theorem State.set_resetting (s : State) (f : RField) (v : Nat) : (s.set f v).resetting = s.resetting := rfl
@[simp] theorem State.set_domBusy (s : State) (f : RField) (v : Nat) : (s.set f v).domBusy = s.domBusy := rfl
@[simp] theorem State.set_wiping (s : State) (f : RField) (v : Nat) : (s.set f v).wiping = s.wiping := rfl
@[simp] theorem State.set_active (s : State) (f : RField) (v : Nat) : (s.set f v).active = s.active := rfl
@[simp] theorem State.set_staged (s : State) (f : RField) (v : Nat) : (s.set f v).staged = s.staged := rfl
@[simp] theorem State.set_firstImage (s : State) (f : RField) (v : Nat) : (s.set f v).firstImage = s.firstImage := rfl
@[simp] theorem State.set_loadAddr (s : State) (f : RField) (v : Nat) : (s.set f v).loadAddr = s.loadAddr := rfl
@[simp] theorem State.set_lpGoing (s : State) (f : RField) (v : Nat) : (s.set f v).lpGoing = s.lpGoing := rfl
@[simp] theorem State.set_hb (s : State) (f : RField) (v : Nat) : (s.set f v).hb = s.hb := rfl
@[simp] theorem State.set_claimOpen (s : State) (f : RField) (v : Nat) : (s.set f v).claimOpen = s.claimOpen := rfl
@[simp] theorem State.set_claims (s : State) (f : RField) (v : Nat) : (s.set f v).claims = s.claims := rfl
@[simp] theorem State.set_queues (s : State) (f : RField) (v : Nat) : (s.set f v).queues = s.queues := rfl
@[simp] theorem State.set_disps (s : State) (f : RField) (v : Nat) : (s.set f v).disps = s.disps := rfl
@[simp] theorem State.set_nextDisp (s : State) (f : RField) (v : Nat) : (s.set f v).nextDisp = s.nextDisp := rfl
@[simp] theorem State.set_schedWait (s : State) (f : RField) (v : Nat) : (s.set f v).schedWait = s.schedWait := rfl
@[simp] theorem State.set_schedK (s : State) (f : RField) (v : Nat) : (s.set f v).schedK = s.schedK := rfl
@[simp] theorem State.set_mem (s : State) (f : RField) (v : Nat) : (s.set f v).mem = s.mem := rfl
@[simp] theorem State.set_sf (s : State) (f : RField) (v : Nat) : (s.set f v).sf = s.sf := rfl
@[simp] theorem State.set_sfPoison (s : State) (f : RField) (v : Nat) : (s.set f v).sfPoison = s.sfPoison := rfl
@[simp] theorem State.set_rays (s : State) (f : RField) (v : Nat) : (s.set f v).rays = s.rays := rfl
@[simp] theorem State.set_nextRay (s : State) (f : RField) (v : Nat) : (s.set f v).nextRay = s.nextRay := rfl
@[simp] theorem State.set_tqs (s : State) (f : RField) (v : Nat) : (s.set f v).tqs = s.tqs := rfl
@[simp] theorem State.set_nextTq (s : State) (f : RField) (v : Nat) : (s.set f v).nextTq = s.nextTq := rfl
@[simp] theorem State.set_overflow (s : State) (f : RField) (v : Nat) : (s.set f v).overflow = s.overflow := rfl
@[simp] theorem State.set_batches (s : State) (f : RField) (v : Nat) : (s.set f v).batches = s.batches := rfl
@[simp] theorem State.set_tslots (s : State) (f : RField) (v : Nat) : (s.set f v).tslots = s.tslots := rfl
@[simp] theorem State.set_ts (s : State) (f : RField) (v : Nat) : (s.set f v).ts = s.ts := rfl
@[simp] theorem State.set_tsPoison (s : State) (f : RField) (v : Nat) : (s.set f v).tsPoison = s.tsPoison := rfl
@[simp] theorem State.set_useClock (s : State) (f : RField) (v : Nat) : (s.set f v).useClock = s.useClock := rfl
@[simp] theorem State.set_nbatches (s : State) (f : RField) (v : Nat) : (s.set f v).nbatches = s.nbatches := rfl
@[simp] theorem State.set_nextNb (s : State) (f : RField) (v : Nat) : (s.set f v).nextNb = s.nextNb := rfl
@[simp] theorem State.set_callouts (s : State) (f : RField) (v : Nat) : (s.set f v).callouts = s.callouts := rfl
@[simp] theorem State.set_gblocks (s : State) (f : RField) (v : Nat) : (s.set f v).gblocks = s.gblocks := rfl
@[simp] theorem State.set_nextGb (s : State) (f : RField) (v : Nat) : (s.set f v).nextGb = s.nextGb := rfl
@[simp] theorem State.set_hrBuf (s : State) (f : RField) (v : Nat) : (s.set f v).hrBuf = s.hrBuf := rfl
@[simp] theorem State.set_hold (s : State) (f : RField) (v : Nat) : (s.set f v).hold = s.hold := rfl
@[simp] theorem State.set_groups (s : State) (f : RField) (v : Nat) : (s.set f v).groups = s.groups := rfl
@[simp] theorem State.set_nextGroup (s : State) (f : RField) (v : Nat) : (s.set f v).nextGroup = s.nextGroup := rfl
@[simp] theorem State.set_lockClock (s : State) (f : RField) (v : Nat) : (s.set f v).lockClock = s.lockClock := rfl
@[simp] theorem State.set_lcs (s : State) (f : RField) (v : Nat) : (s.set f v).lcs = s.lcs := rfl
@[simp] theorem State.set_preempts (s : State) (f : RField) (v : Nat) : (s.set f v).preempts = s.preempts := rfl
@[simp] theorem State.set_fseqs (s : State) (f : RField) (v : Nat) : (s.set f v).fseqs = s.fseqs := rfl
@[simp] theorem State.set_fenceOrder (s : State) (f : RField) (v : Nat) : (s.set f v).fenceOrder = s.fenceOrder := rfl
@[simp] theorem State.set_ownFenced (s : State) (f : RField) (v : Nat) : (s.set f v).ownFenced = s.ownFenced := rfl
@[simp] theorem State.set_window (s : State) (f : RField) (v : Nat) : (s.set f v).window = s.window := rfl
@[simp] theorem State.set_ageing (s : State) (f : RField) (v : Nat) : (s.set f v).ageing = s.ageing := rfl
@[simp] theorem State.set_ses (s : State) (f : RField) (v : Nat) : (s.set f v).ses = s.ses := rfl
@[simp] theorem State.set_sitems (s : State) (f : RField) (v : Nat) : (s.set f v).sitems = s.sitems := rfl
@[simp] theorem State.set_ports (s : State) (f : RField) (v : Nat) : (s.set f v).ports = s.ports := rfl
@[simp] theorem State.set_tlbs (s : State) (f : RField) (v : Nat) : (s.set f v).tlbs = s.tlbs := rfl
@[simp] theorem State.set_xreqs (s : State) (f : RField) (v : Nat) : (s.set f v).xreqs = s.xreqs := rfl
@[simp] theorem State.set_xwait (s : State) (f : RField) (v : Nat) : (s.set f v).xwait = s.xwait := rfl
@[simp] theorem State.set_nextReq (s : State) (f : RField) (v : Nat) : (s.set f v).nextReq = s.nextReq := rfl
@[simp] theorem State.set_fwaits (s : State) (f : RField) (v : Nat) : (s.set f v).fwaits = s.fwaits := rfl
@[simp] theorem State.set_fltSeq (s : State) (f : RField) (v : Nat) : (s.set f v).fltSeq = s.fltSeq := rfl
@[simp] theorem State.set_invals (s : State) (f : RField) (v : Nat) : (s.set f v).invals = s.invals := rfl
@[simp] theorem State.set_hot (s : State) (f : RField) (v : Nat) : (s.set f v).hot = s.hot := rfl
@[simp] theorem State.set_hotFifo (s : State) (f : RField) (v : Nat) : (s.set f v).hotFifo = s.hotFifo := rfl
@[simp] theorem State.set_caches (s : State) (f : RField) (v : Nat) : (s.set f v).caches = s.caches := rfl
@[simp] theorem State.set_cmOp (s : State) (f : RField) (v : Nat) : (s.set f v).cmOp = s.cmOp := rfl
@[simp] theorem State.set_quads (s : State) (f : RField) (v : Nat) : (s.set f v).quads = s.quads := rfl
@[simp] theorem State.set_ws (s : State) (f : RField) (v : Nat) : (s.set f v).ws = s.ws := rfl
@[simp] theorem State.set_mbatches (s : State) (f : RField) (v : Nat) : (s.set f v).mbatches = s.mbatches := rfl
@[simp] theorem State.set_nextMb (s : State) (f : RField) (v : Nat) : (s.set f v).nextMb = s.nextMb := rfl
@[simp] theorem State.set_mgmt (s : State) (f : RField) (v : Nat) : (s.set f v).mgmt = s.mgmt := rfl
@[simp] theorem State.set_plk (s : State) (f : RField) (v : Nat) : (s.set f v).plk = s.plk := rfl
@[simp] theorem State.set_out (s : State) (f : RField) (v : Nat) : (s.set f v).out = s.out := rfl
@[simp] theorem State.set_pending (s : State) (f : RField) (v : Nat) : (s.set f v).pending = s.pending := rfl

/-! ### `State.resetRegs` -/

@[simp] theorem State.resetRegs_integ (s : State) (p : Nat → Bool) : (s.resetRegs p).integ = s.integ := rfl
@[simp] theorem State.resetRegs_startup (s : State) (p : Nat → Bool) : (s.resetRegs p).startup = s.startup := rfl
@[simp] theorem State.resetRegs_present (s : State) (p : Nat → Bool) : (s.resetRegs p).present = s.present := rfl
@[simp] theorem State.resetRegs_therm (s : State) (p : Nat → Bool) : (s.resetRegs p).therm = s.therm := rfl
@[simp] theorem State.resetRegs_wbuf (s : State) (p : Nat → Bool) : (s.resetRegs p).wbuf = s.wbuf := rfl
@[simp] theorem State.resetRegs_svc (s : State) (p : Nat → Bool) : (s.resetRegs p).svc = s.svc := rfl
@[simp] theorem State.resetRegs_active (s : State) (p : Nat → Bool) : (s.resetRegs p).active = s.active := rfl
@[simp] theorem State.resetRegs_staged (s : State) (p : Nat → Bool) : (s.resetRegs p).staged = s.staged := rfl
@[simp] theorem State.resetRegs_resetting (s : State) (p : Nat → Bool) : (s.resetRegs p).resetting = s.resetting := rfl
@[simp] theorem State.resetRegs_queues (s : State) (p : Nat → Bool) : (s.resetRegs p).queues = s.queues := rfl
@[simp] theorem State.resetRegs_disps (s : State) (p : Nat → Bool) : (s.resetRegs p).disps = s.disps := rfl
@[simp] theorem State.resetRegs_mem (s : State) (p : Nat → Bool) : (s.resetRegs p).mem = s.mem := rfl
@[simp] theorem State.resetRegs_sf (s : State) (p : Nat → Bool) : (s.resetRegs p).sf = s.sf := rfl
@[simp] theorem State.resetRegs_sfPoison (s : State) (p : Nat → Bool) : (s.resetRegs p).sfPoison = s.sfPoison := rfl
@[simp] theorem State.resetRegs_rays (s : State) (p : Nat → Bool) : (s.resetRegs p).rays = s.rays := rfl
@[simp] theorem State.resetRegs_tqs (s : State) (p : Nat → Bool) : (s.resetRegs p).tqs = s.tqs := rfl
@[simp] theorem State.resetRegs_groups (s : State) (p : Nat → Bool) : (s.resetRegs p).groups = s.groups := rfl
@[simp] theorem State.resetRegs_lcs (s : State) (p : Nat → Bool) : (s.resetRegs p).lcs = s.lcs := rfl
@[simp] theorem State.resetRegs_preempts (s : State) (p : Nat → Bool) : (s.resetRegs p).preempts = s.preempts := rfl
@[simp] theorem State.resetRegs_fseqs (s : State) (p : Nat → Bool) : (s.resetRegs p).fseqs = s.fseqs := rfl
@[simp] theorem State.resetRegs_fenceOrder (s : State) (p : Nat → Bool) : (s.resetRegs p).fenceOrder = s.fenceOrder := rfl
@[simp] theorem State.resetRegs_ownFenced (s : State) (p : Nat → Bool) : (s.resetRegs p).ownFenced = s.ownFenced := rfl
@[simp] theorem State.resetRegs_window (s : State) (p : Nat → Bool) : (s.resetRegs p).window = s.window := rfl
@[simp] theorem State.resetRegs_ses (s : State) (p : Nat → Bool) : (s.resetRegs p).ses = s.ses := rfl
@[simp] theorem State.resetRegs_ports (s : State) (p : Nat → Bool) : (s.resetRegs p).ports = s.ports := rfl
@[simp] theorem State.resetRegs_tlbs (s : State) (p : Nat → Bool) : (s.resetRegs p).tlbs = s.tlbs := rfl
@[simp] theorem State.resetRegs_fwaits (s : State) (p : Nat → Bool) : (s.resetRegs p).fwaits = s.fwaits := rfl
@[simp] theorem State.resetRegs_caches (s : State) (p : Nat → Bool) : (s.resetRegs p).caches = s.caches := rfl
@[simp] theorem State.resetRegs_quads (s : State) (p : Nat → Bool) : (s.resetRegs p).quads = s.quads := rfl
@[simp] theorem State.resetRegs_mbatches (s : State) (p : Nat → Bool) : (s.resetRegs p).mbatches = s.mbatches := rfl
@[simp] theorem State.resetRegs_mgmt (s : State) (p : Nat → Bool) : (s.resetRegs p).mgmt = s.mgmt := rfl
@[simp] theorem State.resetRegs_plk (s : State) (p : Nat → Bool) : (s.resetRegs p).plk = s.plk := rfl
@[simp] theorem State.resetRegs_out (s : State) (p : Nat → Bool) : (s.resetRegs p).out = s.out := rfl
@[simp] theorem State.resetRegs_pending (s : State) (p : Nat → Bool) : (s.resetRegs p).pending = s.pending := rfl

/-! ### `State.emit` -/

@[simp] theorem State.emit_integ (s : State) (o : Out) : (s.emit o).integ = s.integ := rfl
@[simp] theorem State.emit_startup (s : State) (o : Out) : (s.emit o).startup = s.startup := rfl
@[simp] theorem State.emit_present (s : State) (o : Out) : (s.emit o).present = s.present := rfl
@[simp] theorem State.emit_therm (s : State) (o : Out) : (s.emit o).therm = s.therm := rfl
@[simp] theorem State.emit_regs (s : State) (o : Out) : (s.emit o).regs = s.regs := rfl
@[simp] theorem State.emit_wbuf (s : State) (o : Out) : (s.emit o).wbuf = s.wbuf := rfl
@[simp] theorem State.emit_svc (s : State) (o : Out) : (s.emit o).svc = s.svc := rfl
@[simp] theorem State.emit_active (s : State) (o : Out) : (s.emit o).active = s.active := rfl
@[simp] theorem State.emit_staged (s : State) (o : Out) : (s.emit o).staged = s.staged := rfl
@[simp] theorem State.emit_resetting (s : State) (o : Out) : (s.emit o).resetting = s.resetting := rfl
@[simp] theorem State.emit_queues (s : State) (o : Out) : (s.emit o).queues = s.queues := rfl
@[simp] theorem State.emit_disps (s : State) (o : Out) : (s.emit o).disps = s.disps := rfl
@[simp] theorem State.emit_mem (s : State) (o : Out) : (s.emit o).mem = s.mem := rfl
@[simp] theorem State.emit_sf (s : State) (o : Out) : (s.emit o).sf = s.sf := rfl
@[simp] theorem State.emit_sfPoison (s : State) (o : Out) : (s.emit o).sfPoison = s.sfPoison := rfl
@[simp] theorem State.emit_rays (s : State) (o : Out) : (s.emit o).rays = s.rays := rfl
@[simp] theorem State.emit_tqs (s : State) (o : Out) : (s.emit o).tqs = s.tqs := rfl
@[simp] theorem State.emit_groups (s : State) (o : Out) : (s.emit o).groups = s.groups := rfl
@[simp] theorem State.emit_lcs (s : State) (o : Out) : (s.emit o).lcs = s.lcs := rfl
@[simp] theorem State.emit_preempts (s : State) (o : Out) : (s.emit o).preempts = s.preempts := rfl
@[simp] theorem State.emit_fseqs (s : State) (o : Out) : (s.emit o).fseqs = s.fseqs := rfl
@[simp] theorem State.emit_fenceOrder (s : State) (o : Out) : (s.emit o).fenceOrder = s.fenceOrder := rfl
@[simp] theorem State.emit_ownFenced (s : State) (o : Out) : (s.emit o).ownFenced = s.ownFenced := rfl
@[simp] theorem State.emit_window (s : State) (o : Out) : (s.emit o).window = s.window := rfl
@[simp] theorem State.emit_ses (s : State) (o : Out) : (s.emit o).ses = s.ses := rfl
@[simp] theorem State.emit_ports (s : State) (o : Out) : (s.emit o).ports = s.ports := rfl
@[simp] theorem State.emit_tlbs (s : State) (o : Out) : (s.emit o).tlbs = s.tlbs := rfl
@[simp] theorem State.emit_fwaits (s : State) (o : Out) : (s.emit o).fwaits = s.fwaits := rfl
@[simp] theorem State.emit_caches (s : State) (o : Out) : (s.emit o).caches = s.caches := rfl
@[simp] theorem State.emit_quads (s : State) (o : Out) : (s.emit o).quads = s.quads := rfl
@[simp] theorem State.emit_mbatches (s : State) (o : Out) : (s.emit o).mbatches = s.mbatches := rfl
@[simp] theorem State.emit_mgmt (s : State) (o : Out) : (s.emit o).mgmt = s.mgmt := rfl
@[simp] theorem State.emit_plk (s : State) (o : Out) : (s.emit o).plk = s.plk := rfl
@[simp] theorem State.emit_pending (s : State) (o : Out) : (s.emit o).pending = s.pending := rfl
@[simp] theorem State.emit_get (s : State) (o : Out) (r : RField) : (s.emit o).get r = s.get r := rfl

/-! ### `State.memStore` -/

@[simp] theorem State.memStore_integ (s : State) (a : Nat) (bs : List Byte) : (s.memStore a bs).integ = s.integ := rfl
@[simp] theorem State.memStore_startup (s : State) (a : Nat) (bs : List Byte) : (s.memStore a bs).startup = s.startup := rfl
@[simp] theorem State.memStore_present (s : State) (a : Nat) (bs : List Byte) : (s.memStore a bs).present = s.present := rfl
@[simp] theorem State.memStore_therm (s : State) (a : Nat) (bs : List Byte) : (s.memStore a bs).therm = s.therm := rfl
@[simp] theorem State.memStore_regs (s : State) (a : Nat) (bs : List Byte) : (s.memStore a bs).regs = s.regs := rfl
@[simp] theorem State.memStore_wbuf (s : State) (a : Nat) (bs : List Byte) : (s.memStore a bs).wbuf = s.wbuf := rfl
@[simp] theorem State.memStore_svc (s : State) (a : Nat) (bs : List Byte) : (s.memStore a bs).svc = s.svc := rfl
@[simp] theorem State.memStore_active (s : State) (a : Nat) (bs : List Byte) : (s.memStore a bs).active = s.active := rfl
@[simp] theorem State.memStore_staged (s : State) (a : Nat) (bs : List Byte) : (s.memStore a bs).staged = s.staged := rfl
@[simp] theorem State.memStore_resetting (s : State) (a : Nat) (bs : List Byte) : (s.memStore a bs).resetting = s.resetting := rfl
@[simp] theorem State.memStore_queues (s : State) (a : Nat) (bs : List Byte) : (s.memStore a bs).queues = s.queues := rfl
@[simp] theorem State.memStore_disps (s : State) (a : Nat) (bs : List Byte) : (s.memStore a bs).disps = s.disps := rfl
@[simp] theorem State.memStore_sf (s : State) (a : Nat) (bs : List Byte) : (s.memStore a bs).sf = s.sf := rfl
@[simp] theorem State.memStore_sfPoison (s : State) (a : Nat) (bs : List Byte) : (s.memStore a bs).sfPoison = s.sfPoison := rfl
@[simp] theorem State.memStore_rays (s : State) (a : Nat) (bs : List Byte) : (s.memStore a bs).rays = s.rays := rfl
@[simp] theorem State.memStore_tqs (s : State) (a : Nat) (bs : List Byte) : (s.memStore a bs).tqs = s.tqs := rfl
@[simp] theorem State.memStore_groups (s : State) (a : Nat) (bs : List Byte) : (s.memStore a bs).groups = s.groups := rfl
@[simp] theorem State.memStore_preempts (s : State) (a : Nat) (bs : List Byte) : (s.memStore a bs).preempts = s.preempts := rfl
@[simp] theorem State.memStore_fseqs (s : State) (a : Nat) (bs : List Byte) : (s.memStore a bs).fseqs = s.fseqs := rfl
@[simp] theorem State.memStore_fenceOrder (s : State) (a : Nat) (bs : List Byte) : (s.memStore a bs).fenceOrder = s.fenceOrder := rfl
@[simp] theorem State.memStore_ownFenced (s : State) (a : Nat) (bs : List Byte) : (s.memStore a bs).ownFenced = s.ownFenced := rfl
@[simp] theorem State.memStore_window (s : State) (a : Nat) (bs : List Byte) : (s.memStore a bs).window = s.window := rfl
@[simp] theorem State.memStore_ses (s : State) (a : Nat) (bs : List Byte) : (s.memStore a bs).ses = s.ses := rfl
@[simp] theorem State.memStore_ports (s : State) (a : Nat) (bs : List Byte) : (s.memStore a bs).ports = s.ports := rfl
@[simp] theorem State.memStore_tlbs (s : State) (a : Nat) (bs : List Byte) : (s.memStore a bs).tlbs = s.tlbs := rfl
@[simp] theorem State.memStore_fwaits (s : State) (a : Nat) (bs : List Byte) : (s.memStore a bs).fwaits = s.fwaits := rfl
@[simp] theorem State.memStore_caches (s : State) (a : Nat) (bs : List Byte) : (s.memStore a bs).caches = s.caches := rfl
@[simp] theorem State.memStore_quads (s : State) (a : Nat) (bs : List Byte) : (s.memStore a bs).quads = s.quads := rfl
@[simp] theorem State.memStore_mbatches (s : State) (a : Nat) (bs : List Byte) : (s.memStore a bs).mbatches = s.mbatches := rfl
@[simp] theorem State.memStore_mgmt (s : State) (a : Nat) (bs : List Byte) : (s.memStore a bs).mgmt = s.mgmt := rfl
@[simp] theorem State.memStore_plk (s : State) (a : Nat) (bs : List Byte) : (s.memStore a bs).plk = s.plk := rfl
@[simp] theorem State.memStore_pending (s : State) (a : Nat) (bs : List Byte) : (s.memStore a bs).pending = s.pending := rfl
@[simp] theorem State.memStore_get (s : State) (a : Nat) (bs : List Byte) (r : RField) : (s.memStore a bs).get r = s.get r := rfl
@[simp] theorem State.memStore_out (s : State) (a : Nat) (bs : List Byte) : (s.memStore a bs).out = s.out := rfl

/-! ### `State.memPut` -/

@[simp] theorem State.memPut_integ (s : State) (a : Nat) (bs : List Byte) : (s.memPut a bs).integ = s.integ := rfl
@[simp] theorem State.memPut_startup (s : State) (a : Nat) (bs : List Byte) : (s.memPut a bs).startup = s.startup := rfl
@[simp] theorem State.memPut_present (s : State) (a : Nat) (bs : List Byte) : (s.memPut a bs).present = s.present := rfl
@[simp] theorem State.memPut_therm (s : State) (a : Nat) (bs : List Byte) : (s.memPut a bs).therm = s.therm := rfl
@[simp] theorem State.memPut_regs (s : State) (a : Nat) (bs : List Byte) : (s.memPut a bs).regs = s.regs := rfl
@[simp] theorem State.memPut_wbuf (s : State) (a : Nat) (bs : List Byte) : (s.memPut a bs).wbuf = s.wbuf := rfl
@[simp] theorem State.memPut_svc (s : State) (a : Nat) (bs : List Byte) : (s.memPut a bs).svc = s.svc := rfl
@[simp] theorem State.memPut_active (s : State) (a : Nat) (bs : List Byte) : (s.memPut a bs).active = s.active := rfl
@[simp] theorem State.memPut_staged (s : State) (a : Nat) (bs : List Byte) : (s.memPut a bs).staged = s.staged := rfl
@[simp] theorem State.memPut_resetting (s : State) (a : Nat) (bs : List Byte) : (s.memPut a bs).resetting = s.resetting := rfl
@[simp] theorem State.memPut_queues (s : State) (a : Nat) (bs : List Byte) : (s.memPut a bs).queues = s.queues := rfl
@[simp] theorem State.memPut_disps (s : State) (a : Nat) (bs : List Byte) : (s.memPut a bs).disps = s.disps := rfl
@[simp] theorem State.memPut_sf (s : State) (a : Nat) (bs : List Byte) : (s.memPut a bs).sf = s.sf := rfl
@[simp] theorem State.memPut_sfPoison (s : State) (a : Nat) (bs : List Byte) : (s.memPut a bs).sfPoison = s.sfPoison := rfl
@[simp] theorem State.memPut_rays (s : State) (a : Nat) (bs : List Byte) : (s.memPut a bs).rays = s.rays := rfl
@[simp] theorem State.memPut_tqs (s : State) (a : Nat) (bs : List Byte) : (s.memPut a bs).tqs = s.tqs := rfl
@[simp] theorem State.memPut_groups (s : State) (a : Nat) (bs : List Byte) : (s.memPut a bs).groups = s.groups := rfl
@[simp] theorem State.memPut_preempts (s : State) (a : Nat) (bs : List Byte) : (s.memPut a bs).preempts = s.preempts := rfl
@[simp] theorem State.memPut_fseqs (s : State) (a : Nat) (bs : List Byte) : (s.memPut a bs).fseqs = s.fseqs := rfl
@[simp] theorem State.memPut_fenceOrder (s : State) (a : Nat) (bs : List Byte) : (s.memPut a bs).fenceOrder = s.fenceOrder := rfl
@[simp] theorem State.memPut_ownFenced (s : State) (a : Nat) (bs : List Byte) : (s.memPut a bs).ownFenced = s.ownFenced := rfl
@[simp] theorem State.memPut_window (s : State) (a : Nat) (bs : List Byte) : (s.memPut a bs).window = s.window := rfl
@[simp] theorem State.memPut_ses (s : State) (a : Nat) (bs : List Byte) : (s.memPut a bs).ses = s.ses := rfl
@[simp] theorem State.memPut_ports (s : State) (a : Nat) (bs : List Byte) : (s.memPut a bs).ports = s.ports := rfl
@[simp] theorem State.memPut_tlbs (s : State) (a : Nat) (bs : List Byte) : (s.memPut a bs).tlbs = s.tlbs := rfl
@[simp] theorem State.memPut_fwaits (s : State) (a : Nat) (bs : List Byte) : (s.memPut a bs).fwaits = s.fwaits := rfl
@[simp] theorem State.memPut_caches (s : State) (a : Nat) (bs : List Byte) : (s.memPut a bs).caches = s.caches := rfl
@[simp] theorem State.memPut_quads (s : State) (a : Nat) (bs : List Byte) : (s.memPut a bs).quads = s.quads := rfl
@[simp] theorem State.memPut_mbatches (s : State) (a : Nat) (bs : List Byte) : (s.memPut a bs).mbatches = s.mbatches := rfl
@[simp] theorem State.memPut_mgmt (s : State) (a : Nat) (bs : List Byte) : (s.memPut a bs).mgmt = s.mgmt := rfl
@[simp] theorem State.memPut_plk (s : State) (a : Nat) (bs : List Byte) : (s.memPut a bs).plk = s.plk := rfl
@[simp] theorem State.memPut_pending (s : State) (a : Nat) (bs : List Byte) : (s.memPut a bs).pending = s.pending := rfl
@[simp] theorem State.memPut_get (s : State) (a : Nat) (bs : List Byte) (r : RField) : (s.memPut a bs).get r = s.get r := rfl

/-! ### `State.sfStore` -/

@[simp] theorem State.sfStore_integ (s : State) (a : Nat) (bs : List Byte) : (s.sfStore a bs).integ = s.integ := rfl
@[simp] theorem State.sfStore_startup (s : State) (a : Nat) (bs : List Byte) : (s.sfStore a bs).startup = s.startup := rfl
@[simp] theorem State.sfStore_present (s : State) (a : Nat) (bs : List Byte) : (s.sfStore a bs).present = s.present := rfl
@[simp] theorem State.sfStore_therm (s : State) (a : Nat) (bs : List Byte) : (s.sfStore a bs).therm = s.therm := rfl
@[simp] theorem State.sfStore_regs (s : State) (a : Nat) (bs : List Byte) : (s.sfStore a bs).regs = s.regs := rfl
@[simp] theorem State.sfStore_wbuf (s : State) (a : Nat) (bs : List Byte) : (s.sfStore a bs).wbuf = s.wbuf := rfl
@[simp] theorem State.sfStore_svc (s : State) (a : Nat) (bs : List Byte) : (s.sfStore a bs).svc = s.svc := rfl
@[simp] theorem State.sfStore_active (s : State) (a : Nat) (bs : List Byte) : (s.sfStore a bs).active = s.active := rfl
@[simp] theorem State.sfStore_staged (s : State) (a : Nat) (bs : List Byte) : (s.sfStore a bs).staged = s.staged := rfl
@[simp] theorem State.sfStore_resetting (s : State) (a : Nat) (bs : List Byte) : (s.sfStore a bs).resetting = s.resetting := rfl
@[simp] theorem State.sfStore_queues (s : State) (a : Nat) (bs : List Byte) : (s.sfStore a bs).queues = s.queues := rfl
@[simp] theorem State.sfStore_disps (s : State) (a : Nat) (bs : List Byte) : (s.sfStore a bs).disps = s.disps := rfl
@[simp] theorem State.sfStore_mem (s : State) (a : Nat) (bs : List Byte) : (s.sfStore a bs).mem = s.mem := rfl
@[simp] theorem State.sfStore_rays (s : State) (a : Nat) (bs : List Byte) : (s.sfStore a bs).rays = s.rays := rfl
@[simp] theorem State.sfStore_tqs (s : State) (a : Nat) (bs : List Byte) : (s.sfStore a bs).tqs = s.tqs := rfl
@[simp] theorem State.sfStore_groups (s : State) (a : Nat) (bs : List Byte) : (s.sfStore a bs).groups = s.groups := rfl
@[simp] theorem State.sfStore_lcs (s : State) (a : Nat) (bs : List Byte) : (s.sfStore a bs).lcs = s.lcs := rfl
@[simp] theorem State.sfStore_preempts (s : State) (a : Nat) (bs : List Byte) : (s.sfStore a bs).preempts = s.preempts := rfl
@[simp] theorem State.sfStore_fseqs (s : State) (a : Nat) (bs : List Byte) : (s.sfStore a bs).fseqs = s.fseqs := rfl
@[simp] theorem State.sfStore_fenceOrder (s : State) (a : Nat) (bs : List Byte) : (s.sfStore a bs).fenceOrder = s.fenceOrder := rfl
@[simp] theorem State.sfStore_ownFenced (s : State) (a : Nat) (bs : List Byte) : (s.sfStore a bs).ownFenced = s.ownFenced := rfl
@[simp] theorem State.sfStore_window (s : State) (a : Nat) (bs : List Byte) : (s.sfStore a bs).window = s.window := rfl
@[simp] theorem State.sfStore_ses (s : State) (a : Nat) (bs : List Byte) : (s.sfStore a bs).ses = s.ses := rfl
@[simp] theorem State.sfStore_ports (s : State) (a : Nat) (bs : List Byte) : (s.sfStore a bs).ports = s.ports := rfl
@[simp] theorem State.sfStore_tlbs (s : State) (a : Nat) (bs : List Byte) : (s.sfStore a bs).tlbs = s.tlbs := rfl
@[simp] theorem State.sfStore_fwaits (s : State) (a : Nat) (bs : List Byte) : (s.sfStore a bs).fwaits = s.fwaits := rfl
@[simp] theorem State.sfStore_caches (s : State) (a : Nat) (bs : List Byte) : (s.sfStore a bs).caches = s.caches := rfl
@[simp] theorem State.sfStore_quads (s : State) (a : Nat) (bs : List Byte) : (s.sfStore a bs).quads = s.quads := rfl
@[simp] theorem State.sfStore_mbatches (s : State) (a : Nat) (bs : List Byte) : (s.sfStore a bs).mbatches = s.mbatches := rfl
@[simp] theorem State.sfStore_mgmt (s : State) (a : Nat) (bs : List Byte) : (s.sfStore a bs).mgmt = s.mgmt := rfl
@[simp] theorem State.sfStore_plk (s : State) (a : Nat) (bs : List Byte) : (s.sfStore a bs).plk = s.plk := rfl
@[simp] theorem State.sfStore_out (s : State) (a : Nat) (bs : List Byte) : (s.sfStore a bs).out = s.out := rfl
@[simp] theorem State.sfStore_pending (s : State) (a : Nat) (bs : List Byte) : (s.sfStore a bs).pending = s.pending := rfl
@[simp] theorem State.sfStore_get (s : State) (a : Nat) (bs : List Byte) (r : RField) : (s.sfStore a bs).get r = s.get r := rfl

/-! ### `State.modQueue` -/

@[simp] theorem State.modQueue_integ (s : State) (c : Nat) (f : QState → QState) : (s.modQueue c f).integ = s.integ := rfl
@[simp] theorem State.modQueue_startup (s : State) (c : Nat) (f : QState → QState) : (s.modQueue c f).startup = s.startup := rfl
@[simp] theorem State.modQueue_present (s : State) (c : Nat) (f : QState → QState) : (s.modQueue c f).present = s.present := rfl
@[simp] theorem State.modQueue_therm (s : State) (c : Nat) (f : QState → QState) : (s.modQueue c f).therm = s.therm := rfl
@[simp] theorem State.modQueue_regs (s : State) (c : Nat) (f : QState → QState) : (s.modQueue c f).regs = s.regs := rfl
@[simp] theorem State.modQueue_wbuf (s : State) (c : Nat) (f : QState → QState) : (s.modQueue c f).wbuf = s.wbuf := rfl
@[simp] theorem State.modQueue_svc (s : State) (c : Nat) (f : QState → QState) : (s.modQueue c f).svc = s.svc := rfl
@[simp] theorem State.modQueue_active (s : State) (c : Nat) (f : QState → QState) : (s.modQueue c f).active = s.active := rfl
@[simp] theorem State.modQueue_staged (s : State) (c : Nat) (f : QState → QState) : (s.modQueue c f).staged = s.staged := rfl
@[simp] theorem State.modQueue_resetting (s : State) (c : Nat) (f : QState → QState) : (s.modQueue c f).resetting = s.resetting := rfl
@[simp] theorem State.modQueue_disps (s : State) (c : Nat) (f : QState → QState) : (s.modQueue c f).disps = s.disps := rfl
@[simp] theorem State.modQueue_mem (s : State) (c : Nat) (f : QState → QState) : (s.modQueue c f).mem = s.mem := rfl
@[simp] theorem State.modQueue_sf (s : State) (c : Nat) (f : QState → QState) : (s.modQueue c f).sf = s.sf := rfl
@[simp] theorem State.modQueue_sfPoison (s : State) (c : Nat) (f : QState → QState) : (s.modQueue c f).sfPoison = s.sfPoison := rfl
@[simp] theorem State.modQueue_rays (s : State) (c : Nat) (f : QState → QState) : (s.modQueue c f).rays = s.rays := rfl
@[simp] theorem State.modQueue_tqs (s : State) (c : Nat) (f : QState → QState) : (s.modQueue c f).tqs = s.tqs := rfl
@[simp] theorem State.modQueue_groups (s : State) (c : Nat) (f : QState → QState) : (s.modQueue c f).groups = s.groups := rfl
@[simp] theorem State.modQueue_lcs (s : State) (c : Nat) (f : QState → QState) : (s.modQueue c f).lcs = s.lcs := rfl
@[simp] theorem State.modQueue_preempts (s : State) (c : Nat) (f : QState → QState) : (s.modQueue c f).preempts = s.preempts := rfl
@[simp] theorem State.modQueue_fseqs (s : State) (c : Nat) (f : QState → QState) : (s.modQueue c f).fseqs = s.fseqs := rfl
@[simp] theorem State.modQueue_fenceOrder (s : State) (c : Nat) (f : QState → QState) : (s.modQueue c f).fenceOrder = s.fenceOrder := rfl
@[simp] theorem State.modQueue_ownFenced (s : State) (c : Nat) (f : QState → QState) : (s.modQueue c f).ownFenced = s.ownFenced := rfl
@[simp] theorem State.modQueue_window (s : State) (c : Nat) (f : QState → QState) : (s.modQueue c f).window = s.window := rfl
@[simp] theorem State.modQueue_ses (s : State) (c : Nat) (f : QState → QState) : (s.modQueue c f).ses = s.ses := rfl
@[simp] theorem State.modQueue_ports (s : State) (c : Nat) (f : QState → QState) : (s.modQueue c f).ports = s.ports := rfl
@[simp] theorem State.modQueue_tlbs (s : State) (c : Nat) (f : QState → QState) : (s.modQueue c f).tlbs = s.tlbs := rfl
@[simp] theorem State.modQueue_fwaits (s : State) (c : Nat) (f : QState → QState) : (s.modQueue c f).fwaits = s.fwaits := rfl
@[simp] theorem State.modQueue_caches (s : State) (c : Nat) (f : QState → QState) : (s.modQueue c f).caches = s.caches := rfl
@[simp] theorem State.modQueue_quads (s : State) (c : Nat) (f : QState → QState) : (s.modQueue c f).quads = s.quads := rfl
@[simp] theorem State.modQueue_mbatches (s : State) (c : Nat) (f : QState → QState) : (s.modQueue c f).mbatches = s.mbatches := rfl
@[simp] theorem State.modQueue_mgmt (s : State) (c : Nat) (f : QState → QState) : (s.modQueue c f).mgmt = s.mgmt := rfl
@[simp] theorem State.modQueue_plk (s : State) (c : Nat) (f : QState → QState) : (s.modQueue c f).plk = s.plk := rfl
@[simp] theorem State.modQueue_out (s : State) (c : Nat) (f : QState → QState) : (s.modQueue c f).out = s.out := rfl
@[simp] theorem State.modQueue_pending (s : State) (c : Nat) (f : QState → QState) : (s.modQueue c f).pending = s.pending := rfl
@[simp] theorem State.modQueue_get (s : State) (c : Nat) (f : QState → QState) (r : RField) : (s.modQueue c f).get r = s.get r := rfl

/-! ### `State.modDisp` -/

@[simp] theorem State.modDisp_integ (s : State) (i : Nat) (f : Dispatch → Dispatch) : (s.modDisp i f).integ = s.integ := rfl
@[simp] theorem State.modDisp_startup (s : State) (i : Nat) (f : Dispatch → Dispatch) : (s.modDisp i f).startup = s.startup := rfl
@[simp] theorem State.modDisp_present (s : State) (i : Nat) (f : Dispatch → Dispatch) : (s.modDisp i f).present = s.present := rfl
@[simp] theorem State.modDisp_therm (s : State) (i : Nat) (f : Dispatch → Dispatch) : (s.modDisp i f).therm = s.therm := rfl
@[simp] theorem State.modDisp_regs (s : State) (i : Nat) (f : Dispatch → Dispatch) : (s.modDisp i f).regs = s.regs := rfl
@[simp] theorem State.modDisp_wbuf (s : State) (i : Nat) (f : Dispatch → Dispatch) : (s.modDisp i f).wbuf = s.wbuf := rfl
@[simp] theorem State.modDisp_svc (s : State) (i : Nat) (f : Dispatch → Dispatch) : (s.modDisp i f).svc = s.svc := rfl
@[simp] theorem State.modDisp_active (s : State) (i : Nat) (f : Dispatch → Dispatch) : (s.modDisp i f).active = s.active := rfl
@[simp] theorem State.modDisp_staged (s : State) (i : Nat) (f : Dispatch → Dispatch) : (s.modDisp i f).staged = s.staged := rfl
@[simp] theorem State.modDisp_resetting (s : State) (i : Nat) (f : Dispatch → Dispatch) : (s.modDisp i f).resetting = s.resetting := rfl
@[simp] theorem State.modDisp_queues (s : State) (i : Nat) (f : Dispatch → Dispatch) : (s.modDisp i f).queues = s.queues := rfl
@[simp] theorem State.modDisp_mem (s : State) (i : Nat) (f : Dispatch → Dispatch) : (s.modDisp i f).mem = s.mem := rfl
@[simp] theorem State.modDisp_sf (s : State) (i : Nat) (f : Dispatch → Dispatch) : (s.modDisp i f).sf = s.sf := rfl
@[simp] theorem State.modDisp_sfPoison (s : State) (i : Nat) (f : Dispatch → Dispatch) : (s.modDisp i f).sfPoison = s.sfPoison := rfl
@[simp] theorem State.modDisp_rays (s : State) (i : Nat) (f : Dispatch → Dispatch) : (s.modDisp i f).rays = s.rays := rfl
@[simp] theorem State.modDisp_tqs (s : State) (i : Nat) (f : Dispatch → Dispatch) : (s.modDisp i f).tqs = s.tqs := rfl
@[simp] theorem State.modDisp_groups (s : State) (i : Nat) (f : Dispatch → Dispatch) : (s.modDisp i f).groups = s.groups := rfl
@[simp] theorem State.modDisp_lcs (s : State) (i : Nat) (f : Dispatch → Dispatch) : (s.modDisp i f).lcs = s.lcs := rfl
@[simp] theorem State.modDisp_preempts (s : State) (i : Nat) (f : Dispatch → Dispatch) : (s.modDisp i f).preempts = s.preempts := rfl
@[simp] theorem State.modDisp_fseqs (s : State) (i : Nat) (f : Dispatch → Dispatch) : (s.modDisp i f).fseqs = s.fseqs := rfl
@[simp] theorem State.modDisp_fenceOrder (s : State) (i : Nat) (f : Dispatch → Dispatch) : (s.modDisp i f).fenceOrder = s.fenceOrder := rfl
@[simp] theorem State.modDisp_ownFenced (s : State) (i : Nat) (f : Dispatch → Dispatch) : (s.modDisp i f).ownFenced = s.ownFenced := rfl
@[simp] theorem State.modDisp_window (s : State) (i : Nat) (f : Dispatch → Dispatch) : (s.modDisp i f).window = s.window := rfl
@[simp] theorem State.modDisp_ses (s : State) (i : Nat) (f : Dispatch → Dispatch) : (s.modDisp i f).ses = s.ses := rfl
@[simp] theorem State.modDisp_ports (s : State) (i : Nat) (f : Dispatch → Dispatch) : (s.modDisp i f).ports = s.ports := rfl
@[simp] theorem State.modDisp_tlbs (s : State) (i : Nat) (f : Dispatch → Dispatch) : (s.modDisp i f).tlbs = s.tlbs := rfl
@[simp] theorem State.modDisp_fwaits (s : State) (i : Nat) (f : Dispatch → Dispatch) : (s.modDisp i f).fwaits = s.fwaits := rfl
@[simp] theorem State.modDisp_caches (s : State) (i : Nat) (f : Dispatch → Dispatch) : (s.modDisp i f).caches = s.caches := rfl
@[simp] theorem State.modDisp_quads (s : State) (i : Nat) (f : Dispatch → Dispatch) : (s.modDisp i f).quads = s.quads := rfl
@[simp] theorem State.modDisp_mbatches (s : State) (i : Nat) (f : Dispatch → Dispatch) : (s.modDisp i f).mbatches = s.mbatches := rfl
@[simp] theorem State.modDisp_mgmt (s : State) (i : Nat) (f : Dispatch → Dispatch) : (s.modDisp i f).mgmt = s.mgmt := rfl
@[simp] theorem State.modDisp_plk (s : State) (i : Nat) (f : Dispatch → Dispatch) : (s.modDisp i f).plk = s.plk := rfl
@[simp] theorem State.modDisp_out (s : State) (i : Nat) (f : Dispatch → Dispatch) : (s.modDisp i f).out = s.out := rfl
@[simp] theorem State.modDisp_pending (s : State) (i : Nat) (f : Dispatch → Dispatch) : (s.modDisp i f).pending = s.pending := rfl
@[simp] theorem State.modDisp_get (s : State) (i : Nat) (f : Dispatch → Dispatch) (r : RField) : (s.modDisp i f).get r = s.get r := rfl

/-! ### `State.modRay` -/

@[simp] theorem State.modRay_integ (s : State) (i : Nat) (f : Ray → Ray) : (s.modRay i f).integ = s.integ := rfl
@[simp] theorem State.modRay_startup (s : State) (i : Nat) (f : Ray → Ray) : (s.modRay i f).startup = s.startup := rfl
@[simp] theorem State.modRay_present (s : State) (i : Nat) (f : Ray → Ray) : (s.modRay i f).present = s.present := rfl
@[simp] theorem State.modRay_therm (s : State) (i : Nat) (f : Ray → Ray) : (s.modRay i f).therm = s.therm := rfl
@[simp] theorem State.modRay_regs (s : State) (i : Nat) (f : Ray → Ray) : (s.modRay i f).regs = s.regs := rfl
@[simp] theorem State.modRay_wbuf (s : State) (i : Nat) (f : Ray → Ray) : (s.modRay i f).wbuf = s.wbuf := rfl
@[simp] theorem State.modRay_svc (s : State) (i : Nat) (f : Ray → Ray) : (s.modRay i f).svc = s.svc := rfl
@[simp] theorem State.modRay_active (s : State) (i : Nat) (f : Ray → Ray) : (s.modRay i f).active = s.active := rfl
@[simp] theorem State.modRay_staged (s : State) (i : Nat) (f : Ray → Ray) : (s.modRay i f).staged = s.staged := rfl
@[simp] theorem State.modRay_resetting (s : State) (i : Nat) (f : Ray → Ray) : (s.modRay i f).resetting = s.resetting := rfl
@[simp] theorem State.modRay_queues (s : State) (i : Nat) (f : Ray → Ray) : (s.modRay i f).queues = s.queues := rfl
@[simp] theorem State.modRay_disps (s : State) (i : Nat) (f : Ray → Ray) : (s.modRay i f).disps = s.disps := rfl
@[simp] theorem State.modRay_mem (s : State) (i : Nat) (f : Ray → Ray) : (s.modRay i f).mem = s.mem := rfl
@[simp] theorem State.modRay_sf (s : State) (i : Nat) (f : Ray → Ray) : (s.modRay i f).sf = s.sf := rfl
@[simp] theorem State.modRay_sfPoison (s : State) (i : Nat) (f : Ray → Ray) : (s.modRay i f).sfPoison = s.sfPoison := rfl
@[simp] theorem State.modRay_tqs (s : State) (i : Nat) (f : Ray → Ray) : (s.modRay i f).tqs = s.tqs := rfl
@[simp] theorem State.modRay_groups (s : State) (i : Nat) (f : Ray → Ray) : (s.modRay i f).groups = s.groups := rfl
@[simp] theorem State.modRay_lcs (s : State) (i : Nat) (f : Ray → Ray) : (s.modRay i f).lcs = s.lcs := rfl
@[simp] theorem State.modRay_preempts (s : State) (i : Nat) (f : Ray → Ray) : (s.modRay i f).preempts = s.preempts := rfl
@[simp] theorem State.modRay_fseqs (s : State) (i : Nat) (f : Ray → Ray) : (s.modRay i f).fseqs = s.fseqs := rfl
@[simp] theorem State.modRay_fenceOrder (s : State) (i : Nat) (f : Ray → Ray) : (s.modRay i f).fenceOrder = s.fenceOrder := rfl
@[simp] theorem State.modRay_ownFenced (s : State) (i : Nat) (f : Ray → Ray) : (s.modRay i f).ownFenced = s.ownFenced := rfl
@[simp] theorem State.modRay_window (s : State) (i : Nat) (f : Ray → Ray) : (s.modRay i f).window = s.window := rfl
@[simp] theorem State.modRay_ses (s : State) (i : Nat) (f : Ray → Ray) : (s.modRay i f).ses = s.ses := rfl
@[simp] theorem State.modRay_ports (s : State) (i : Nat) (f : Ray → Ray) : (s.modRay i f).ports = s.ports := rfl
@[simp] theorem State.modRay_tlbs (s : State) (i : Nat) (f : Ray → Ray) : (s.modRay i f).tlbs = s.tlbs := rfl
@[simp] theorem State.modRay_fwaits (s : State) (i : Nat) (f : Ray → Ray) : (s.modRay i f).fwaits = s.fwaits := rfl
@[simp] theorem State.modRay_caches (s : State) (i : Nat) (f : Ray → Ray) : (s.modRay i f).caches = s.caches := rfl
@[simp] theorem State.modRay_quads (s : State) (i : Nat) (f : Ray → Ray) : (s.modRay i f).quads = s.quads := rfl
@[simp] theorem State.modRay_mbatches (s : State) (i : Nat) (f : Ray → Ray) : (s.modRay i f).mbatches = s.mbatches := rfl
@[simp] theorem State.modRay_mgmt (s : State) (i : Nat) (f : Ray → Ray) : (s.modRay i f).mgmt = s.mgmt := rfl
@[simp] theorem State.modRay_plk (s : State) (i : Nat) (f : Ray → Ray) : (s.modRay i f).plk = s.plk := rfl
@[simp] theorem State.modRay_out (s : State) (i : Nat) (f : Ray → Ray) : (s.modRay i f).out = s.out := rfl
@[simp] theorem State.modRay_pending (s : State) (i : Nat) (f : Ray → Ray) : (s.modRay i f).pending = s.pending := rfl
@[simp] theorem State.modRay_get (s : State) (i : Nat) (f : Ray → Ray) (r : RField) : (s.modRay i f).get r = s.get r := rfl

/-! ### `State.modGroup` -/

@[simp] theorem State.modGroup_integ (s : State) (i : Nat) (f : Group → Group) : (s.modGroup i f).integ = s.integ := rfl
@[simp] theorem State.modGroup_startup (s : State) (i : Nat) (f : Group → Group) : (s.modGroup i f).startup = s.startup := rfl
@[simp] theorem State.modGroup_present (s : State) (i : Nat) (f : Group → Group) : (s.modGroup i f).present = s.present := rfl
@[simp] theorem State.modGroup_therm (s : State) (i : Nat) (f : Group → Group) : (s.modGroup i f).therm = s.therm := rfl
@[simp] theorem State.modGroup_regs (s : State) (i : Nat) (f : Group → Group) : (s.modGroup i f).regs = s.regs := rfl
@[simp] theorem State.modGroup_wbuf (s : State) (i : Nat) (f : Group → Group) : (s.modGroup i f).wbuf = s.wbuf := rfl
@[simp] theorem State.modGroup_svc (s : State) (i : Nat) (f : Group → Group) : (s.modGroup i f).svc = s.svc := rfl
@[simp] theorem State.modGroup_active (s : State) (i : Nat) (f : Group → Group) : (s.modGroup i f).active = s.active := rfl
@[simp] theorem State.modGroup_staged (s : State) (i : Nat) (f : Group → Group) : (s.modGroup i f).staged = s.staged := rfl
@[simp] theorem State.modGroup_resetting (s : State) (i : Nat) (f : Group → Group) : (s.modGroup i f).resetting = s.resetting := rfl
@[simp] theorem State.modGroup_queues (s : State) (i : Nat) (f : Group → Group) : (s.modGroup i f).queues = s.queues := rfl
@[simp] theorem State.modGroup_disps (s : State) (i : Nat) (f : Group → Group) : (s.modGroup i f).disps = s.disps := rfl
@[simp] theorem State.modGroup_mem (s : State) (i : Nat) (f : Group → Group) : (s.modGroup i f).mem = s.mem := rfl
@[simp] theorem State.modGroup_sf (s : State) (i : Nat) (f : Group → Group) : (s.modGroup i f).sf = s.sf := rfl
@[simp] theorem State.modGroup_sfPoison (s : State) (i : Nat) (f : Group → Group) : (s.modGroup i f).sfPoison = s.sfPoison := rfl
@[simp] theorem State.modGroup_rays (s : State) (i : Nat) (f : Group → Group) : (s.modGroup i f).rays = s.rays := rfl
@[simp] theorem State.modGroup_tqs (s : State) (i : Nat) (f : Group → Group) : (s.modGroup i f).tqs = s.tqs := rfl
@[simp] theorem State.modGroup_lcs (s : State) (i : Nat) (f : Group → Group) : (s.modGroup i f).lcs = s.lcs := rfl
@[simp] theorem State.modGroup_preempts (s : State) (i : Nat) (f : Group → Group) : (s.modGroup i f).preempts = s.preempts := rfl
@[simp] theorem State.modGroup_fseqs (s : State) (i : Nat) (f : Group → Group) : (s.modGroup i f).fseqs = s.fseqs := rfl
@[simp] theorem State.modGroup_fenceOrder (s : State) (i : Nat) (f : Group → Group) : (s.modGroup i f).fenceOrder = s.fenceOrder := rfl
@[simp] theorem State.modGroup_ownFenced (s : State) (i : Nat) (f : Group → Group) : (s.modGroup i f).ownFenced = s.ownFenced := rfl
@[simp] theorem State.modGroup_window (s : State) (i : Nat) (f : Group → Group) : (s.modGroup i f).window = s.window := rfl
@[simp] theorem State.modGroup_ses (s : State) (i : Nat) (f : Group → Group) : (s.modGroup i f).ses = s.ses := rfl
@[simp] theorem State.modGroup_ports (s : State) (i : Nat) (f : Group → Group) : (s.modGroup i f).ports = s.ports := rfl
@[simp] theorem State.modGroup_tlbs (s : State) (i : Nat) (f : Group → Group) : (s.modGroup i f).tlbs = s.tlbs := rfl
@[simp] theorem State.modGroup_fwaits (s : State) (i : Nat) (f : Group → Group) : (s.modGroup i f).fwaits = s.fwaits := rfl
@[simp] theorem State.modGroup_caches (s : State) (i : Nat) (f : Group → Group) : (s.modGroup i f).caches = s.caches := rfl
@[simp] theorem State.modGroup_quads (s : State) (i : Nat) (f : Group → Group) : (s.modGroup i f).quads = s.quads := rfl
@[simp] theorem State.modGroup_mbatches (s : State) (i : Nat) (f : Group → Group) : (s.modGroup i f).mbatches = s.mbatches := rfl
@[simp] theorem State.modGroup_mgmt (s : State) (i : Nat) (f : Group → Group) : (s.modGroup i f).mgmt = s.mgmt := rfl
@[simp] theorem State.modGroup_plk (s : State) (i : Nat) (f : Group → Group) : (s.modGroup i f).plk = s.plk := rfl
@[simp] theorem State.modGroup_out (s : State) (i : Nat) (f : Group → Group) : (s.modGroup i f).out = s.out := rfl
@[simp] theorem State.modGroup_pending (s : State) (i : Nat) (f : Group → Group) : (s.modGroup i f).pending = s.pending := rfl
@[simp] theorem State.modGroup_get (s : State) (i : Nat) (f : Group → Group) (r : RField) : (s.modGroup i f).get r = s.get r := rfl

/-! ### Register fields -/

theorem RField.key_inj {f g : RField} (h : f.key = g.key) (hf : f.lo < 32) (hg : g.lo < 32) : f.addr = g.addr ∧ f.lo = g.lo := by
  unfold RField.key at h
  omega

/-- A field just written reads the value, cut to its width. -/
theorem State.get_set_same (s : State) (f : RField) (v : Nat) (h : swf regReset s.regs = true) : (s.set f v).get f = v % 2 ^ f.width := by
  unfold State.get State.set
  rw [sget_sset_same regReset f.key _ s.regs none h, Nat.mod_mod]

/-- A field at another key reads as before. -/
theorem State.get_set_other (s : State) (f g : RField) (v : Nat) (h : g.key ≠ f.key) : (s.set f v).get g = s.get g := by
  unfold State.get State.set
  rw [sget_sset_other regReset f.key g.key _ s.regs h]

/-- A write keeps the register fields in canonical form. -/
theorem State.set_regs_wf (s : State) (f : RField) (v : Nat) (h : swf regReset s.regs = true) : swf regReset (s.set f v).regs = true :=
  swf_sset _ _ _ _ h

/-- A register that is reset reads its reset values. -/
theorem State.get_resetRegs (s : State) (p : Nat → Bool) (f : RField) :
    (s.resetRegs p).get f = if p (f.key / 32) then regReset f.key % 2 ^ f.width else s.get f := by
  unfold State.get State.resetRegs
  dsimp only
  rw [sget_sclear]
  split <;> rfl

/-- A field's value is below 2 to its width. -/
theorem State.get_lt (s : State) (f : RField) : s.get f < 2 ^ f.width := Nat.mod_lt _ (Nat.two_pow_pos _)

/-- Setting fields in turn keeps every field at another key. -/
theorem State.get_setAll_other (s : State) (l : List (RField × Nat)) (g : RField) (h : ∀ e ∈ l, g.key ≠ e.1.key) :
    (s.setAll l).get g = s.get g := by
  induction l generalizing s with
  | nil => rfl
  | cons e r ih =>
    have := ih (s.set e.1 e.2) (fun x hx => h x (List.mem_cons_of_mem _ hx))
    exact this.trans (State.get_set_other s e.1 g e.2 (h e (List.mem_cons_self ..)))

/-- The plain form as `Canon`. -/
theorem State.canonical_iff (s : State) : s.canonical = true ↔ Canon s := by
  unfold State.canonical
  simp only [Bool.and_eq_true, beq_iff_eq, List.all_eq_true]
  constructor
  · intro h
    obtain ⟨⟨⟨⟨⟨⟨⟨⟨⟨⟨⟨⟨⟨⟨⟨⟨⟨⟨⟨⟨a, b⟩, c⟩, d⟩, e⟩, f⟩, g⟩, h⟩, i⟩, j⟩, k⟩, l⟩, m⟩, n⟩, o⟩, p⟩, q⟩, r⟩, t⟩, u⟩, v⟩ := h
    refine ⟨a, b, c, d, e, fun x hx => ?_, g, h, i, j, k, l, m, n, o, p, q, r, t, fun x hx => of_decide_eq_true (u x hx), of_decide_eq_true v⟩
    have := f x hx
    unfold Group.canonical at this
    simp only [Bool.and_eq_true, beq_iff_eq] at this
    exact ⟨this.1.1, this.1.2, this.2⟩
  · intro h
    refine ⟨⟨⟨⟨⟨⟨⟨⟨⟨⟨⟨⟨⟨⟨⟨⟨⟨⟨⟨⟨h.mem, h.sf⟩, h.ts⟩, h.regs⟩, h.stores⟩, fun x hx => ?_⟩, h.clkKhzLen⟩, h.vreqLen⟩, h.queuesLen⟩, h.schedKLen⟩,
      h.hrBufLen⟩, h.lcsLen⟩, h.ageingLen⟩, h.sesLen⟩, h.portsLen⟩, h.tlbsLen⟩, h.cachesLen⟩, h.quadsLen⟩, h.wsLen⟩, fun x hx => decide_eq_true (h.handles.1 x hx)⟩, decide_eq_true h.handles.2⟩
    have := h.groups x hx
    unfold Group.canonical
    simp only [Bool.and_eq_true, beq_iff_eq]
    exact ⟨⟨this.1, this.2.1⟩, this.2.2⟩

end Sys2Proof.Machine
end

