-- ==== Sys2Proof/WellFormed.lean ====
section
/-! DEFINITION. Which commands are well formed: the operands whose shape the manual fixes beyond what their types say. -/

namespace Sys2Proof

/-- A packet as it can arrive: 0 to 40 payload flits of 32 B, one count for each of the 8 receive pools (R711, R712, R719). -/
def Packet.wf (k : Packet) : Bool := decide (k.len.toNat ≤ 40) && k.payload.length == 32 * k.len.toNat && k.credits.length == 8

/-- Readings of the 14 domains that RAS_AGE_SEL names, each the first reading and one after each of at most 12 raises (R667, R671). -/
def readingsWf (l : List (List Nat)) : Bool := l.length == 14 && l.all (fun d => decide (d.length ≤ 13))

/-- Whether a command is well formed. -/
def Instr.wf : Instr → Bool
  | .regWrite _ _ size _ => size != 0
  | .bufferedWrite _ _ size _ => size != 0
  | .thermalLoopTick temps => temps.length == 24
  | .ageingInterval l => readingsWf l
  | .ageMeasure _ _ l => readingsWf l
  | .startupComplete _ age => age.length == 14
  | .monLine text _ => decide (text.length ≤ 256)
  | .monOwnAuthSig sig => sig.length == 64
  | .plkInit _ p => p.wf
  | .plkGoodbye _ p => p.wf
  | .plkKeepalive _ p => p.wf
  | .plkAck _ p => p.wf
  | .plkNak _ p => p.wf
  | .plkRay _ p => p.wf
  | .plkRayAck _ p => p.wf
  | .plkHit _ p => p.wf
  | .plkQuery _ p => p.wf
  | .plkQres _ p => p.wf
  | .plkUnreachable _ p => p.wf
  | .plkRread _ p _ => p.wf
  | .plkRdata _ p => p.wf
  | .plkMcReq _ p => p.wf
  | .plkMcTile _ p => p.wf
  | .plkMcNak _ p => p.wf
  | .plkEvent _ p => p.wf
  | .plkTelemReq _ p => p.wf
  | .plkTelem _ p => p.wf
  | .plkSubscribe _ p => p.wf
  | .plkNodeLost _ p => p.wf
  | .plkUnknownType _ p => p.wf
  | .plkCrcErr _ p => p.wf
  | _ => true

end Sys2Proof
end

