-- ==== Sys2Proof/Tests/Slice0.lean ====
section
/-! SUPPORT. Tests: terms that the well-formedness checks refuse, worked examples of the manual, and for every statement with hypotheses a
state and operands that meet them, clause by clause. -/

namespace Sys2Proof.Tests

set_option Elab.async false
set_option linter.unusedVariables false

open Sys2Proof.Machine Sys2Proof.Claims

/-- A closed fact that the kernel decides. -/
theorem ok {p : Prop} (h : p := by decide +kernel) : p := h

/-- A translation of the first 1 GiB to itself. -/
def firstPage : TlbEntry := { page := 0, size := 3, pa := 0, readOk := true, writeOk := true, blocked := false }

/-- The engine after start-up, every domain on and in service, with an owner, master 0, and every micro-TLB holding the first 1 GiB. -/
def base : State :=
  let s : State := { State.reset with startup := 0, present := true, tagStart := false, svc := 2 ^ 30 - 1, vreq := List.replicate 11 0,
                                       tlbs := List.replicate 64 [firstPage] }
  s.setAll [(F.cpPdState, 2 ^ 30 - 1), (F.ownStatusOwned, 1)]

/-- That engine with register fields set. -/
def withRegs (l : List (RField × Nat)) : State := base.setAll l

/-- A configured master other than the owner. -/
def other : Master := 1
theorem wit_OwnershipClaims :
    (∃ (s : State) (m : Master), Takes s m 0x1004 ∧ s.get F.ownStatusOwned = 0) ∧
    (∃ (s : State) (m : Master), Takes s m 0x1004 ∧ s.get F.ownStatusOwned = 1) ∧
    (∃ (s : State) (m id : Master), Takes s m 0x1004 ∧ id ≠ m) ∧
    (∃ (s : State) (m : Nat), s.canonical = true ∧ s.claimOpen = true ∧ s.get F.ownStatusOwned = 0 ∧ m < 4 ∧ s.claims.testBit m = true ∧
      (∀ i, i < m → s.claims.testBit i = false)) :=
  ⟨⟨withRegs [(F.ownStatusOwned, 0)], 1, ⟨⟨ok, ok, ok, ok, ok⟩, ok, ok, ok, ok⟩, ok⟩,
   ⟨base, 3, ⟨⟨ok, ok, ok, ok, ok⟩, ok, ok, ok, ok⟩, ok⟩,
   ⟨base, 0, 3, ⟨⟨ok, ok, ok, ok, ok⟩, ok, ok, ok, ok⟩, ok⟩,
   ⟨{ withRegs [(F.ownStatusOwned, 0)] with claimOpen := true, claims := 8 }, 3, ok, ok, ok, ok, ok, ok⟩⟩

theorem wit_OwnershipHandoverAndHeartbeat :
    (∃ (s : State) (m n : Master), Takes s m 0x1008 ∧ n ≠ m ∧ s.hasMaster n.val = true) ∧
    (∃ (s : State) (m n : Master), Takes s m 0x1008 ∧ (n = m ∨ s.hasMaster n.val = false)) ∧
    (∃ (s : State) (m : Master), Takes s m 0x1008) ∧
    (∃ (s : State) (m : Master) (v : Word), Takes s m 0x100C) ∧
    (∃ (s : State), s.canonical = true ∧ s.get F.ownStatusOwned = 1 ∧ s.get F.ownHbTimeout ≠ 0) :=
  ⟨⟨base, 0, 3, ⟨⟨ok, ok, ok, ok, ok⟩, ok, ok, ok, ok⟩, ok, ok⟩,
   ⟨base, 0, 0, ⟨⟨ok, ok, ok, ok, ok⟩, ok, ok, ok, ok⟩, ok⟩,
   ⟨base, 0, ⟨⟨ok, ok, ok, ok, ok⟩, ok, ok, ok, ok⟩⟩,
   ⟨base, 0, 0, ⟨⟨ok, ok, ok, ok, ok⟩, ok, ok, ok, ok⟩⟩,
   ⟨withRegs [(F.ownHbTimeout, 1)], ok, ok, ok⟩⟩

/-- The register of the map at an address, or its first one. -/
def row (a : Nat) : RegRow := ((regRowAt a).toList ++ regRows).headD ⟨0, 0, 0, 0, 0, false, []⟩

theorem wit_StepRunsFront : ∃ (s : State) (c : Instr) (rest : List Instr), s.pending = c :: rest :=
  ⟨{ base with pending := [.claimWindowEnd, .engineEpoch] }, .claimWindowEnd, [.engineEpoch], rfl⟩

theorem wit_StepKeepsCanonical : ∃ (s t : State), s.canonical = true ∧ step s = .next t :=
  ⟨{ base with pending := [.claimWindowEnd] }, _, ok, rfl⟩

theorem wit_EveryCommandCompletes :
    (∃ (c : Instr) (s : State), (¬Releases c)) ∧
    (∃ (s : State) (x : BitVec 12), s.integ.ok = true) ∧
    (∃ (s : State) (x : BitVec 12), s.integ.ok = false) :=
  ⟨⟨.engineEpoch, base, id⟩,
   ⟨base, 0, ok⟩,
   ⟨{ base with integ := { base.integ with memPorts := 0 } }, 0, ok⟩⟩

theorem wit_RegisterWriteResult : ∃ (s : State) (m : Master) (addr : BitVec 20) (v : Word) (row : RegRow), let a := addr.toNat / 4 * 4; Takes s m a ∧
  s.regAt a = some row ∧ actingAddr a = false :=
  ⟨base, 0, 0x1010, 5, row 0x1010, ⟨⟨ok, ok, ok, ok, ok⟩, ok, ok, ok, ok⟩, ok, ok⟩

theorem wit_RegisterWriteRefusals :
    (∃ (s : State) (m : Master) (addr : BitVec 20) (size : Fin 5) (v : Word), s.canonical = true ∧ s.hasMaster m.val = true ∧ s.startup = 0 ∧
      s.portServes 0x14 = true ∧ s.domOn 2 = true ∧ size.val < 4 ∧ s.mayWrite m.val (addr.toNat / 4 * 4) = true) ∧
    (∃ (s : State) (m : Master) (addr : BitVec 20) (size : Fin 5) (v : Word), s.canonical = true ∧ s.hasMaster m.val = true ∧ s.startup = 0 ∧
      s.portServes 0x14 = true ∧ s.domOn 2 = true ∧ size.val < 4 ∧ s.mayWrite m.val (addr.toNat / 4 * 4) = false) ∧
    (∃ (s : State) (m : Master) (addr : BitVec 20) (v : Word), s.canonical = true ∧ s.hasMaster m.val = true ∧ s.startup = 0 ∧
      s.mayWrite m.val (addr.toNat / 4 * 4) = false) ∧
    (∃ (s : State) (m : Master) (addr : BitVec 20) (v : Word), let a := addr.toNat / 4 * 4; Reaches s m a ∧ s.mayWrite m.val a = true ∧
      s.regOn a = true ∧ bufferedAt a = false ∧ guardedAt a = true ∧ s.get F.keyUnlocked = 0 ∧ s.portServes 0x14 = true ∧ s.domOn 2 = true) ∧
    (∃ (s : State) (m : Master) (addr : BitVec 20) (v : Word), let a := addr.toNat / 4 * 4; s.hasMaster m.val = true ∧ s.startup = 0 ∧
      s.mayWrite m.val a = true ∧ bufferedAt a = false ∧ (s.regAt a = none ∨ s.regOn a = false ∨ s.portServes a = false)) :=
  ⟨⟨base, 0, 0x1010, 3, 5, ok, ok, ok, ok, ok, ok, ok⟩,
   ⟨base, 3, 0x1010, 3, 5, ok, ok, ok, ok, ok, ok, ok⟩,
   ⟨base, 3, 0xFFFFC, 5, ok, ok, ok, ok⟩,
   ⟨base, 0, 0x8004, 5, ⟨ok, ok, ok, ok, ok⟩, ok, ok, ok, ok, ok, ok, ok⟩,
   ⟨base, 0, 0x0FFC, 5, ok, ok, ok, ok, .inl (ok)⟩⟩

theorem wit_WriteBufferResults :
    (∃ (s : State) (m : Master) (addr : BitVec 20) (v : Word), let a := addr.toNat / 4 * 4; Reaches s m a ∧ s.mayWrite m.val a = true ∧ bufferedAt a = true) ∧
    (∃ (s : State) (m : Master) (w : Word), Takes s m 0x18 ∧ s.get F.rstDomainGo = 0 ∧ s.get F.wipeStatusPending = 0) ∧
    (∃ (s : State), s.canonical = true ∧ s.get F.glbStatusHold = 1 ∧ s.get F.ldrActTimeout ≠ 0) ∧
    (∃ (s : State) (a v : Nat) (row : RegRow), s.canonical = true ∧ (s.epochNow = true ∨ (s.quiet = true ∧ s.resetting = none ∧
      s.get F.cpLpStatusState = 2)) ∧ s.wbuf = [{ addr := a, value := v, bad := false }] ∧ regRowAt a = some row ∧ row.buffered = true ∧
        a / 256 ∉ [0x20, 0x21, 0x22, 0x23] ∧ a ∉ [0x8010, 0x38004, 0x3C014, 0x3C018] ∧ (a < 0x3C040 ∨ 0x3C068 ≤ a) ∧ spcMasksOk s.spcMasks = true ∧
          s.get F.rstDomainGo = 0 ∧ s.get F.wipeStatusPending = 0 ∧ s.returning = none) :=
  ⟨⟨base, 0, 0x2008, 5, ⟨ok, ok, ok, ok, ok⟩, ok, ok⟩,
   ⟨base, 0, 0, ⟨⟨ok, ok, ok, ok, ok⟩, ok, ok, ok, ok⟩, ok, ok⟩,
   ⟨withRegs [(F.glbStatusHold, 1)], ok, ok, ok⟩,
   ⟨{ base with wbuf := [⟨0x10004, 3, false⟩] }, 0x10004, 3, row 0x10004, ok, ok, rfl, ok, ok, ok, ok, ok, ok, ok, ok, rfl⟩⟩

theorem wit_GuardCountersAndParity_a :
    (∃ (s : State) (m : Master) (v : Word), Takes s m 0x10 ∧ v = 0x5A17C0DE) ∧
    (∃ (s : State) (m : Master) (v : Word), Takes s m 0x10 ∧ v ≠ 0x5A17C0DE) ∧
    (∃ (s : State) (m : Master) (addr : BitVec 20) (row : RegRow), let a := addr.toNat / 4 * 4; Reaches s m a ∧ s.regOn a = true ∧
      s.regAt a = some row ∧ a ∉ [0x2024, 0x2124, 0x2224, 0x2324]) ∧
    (∃ (s : State) (m : Master) (w : Word), Takes s m 0x48000 ∧ w.getLsbD 30 = false) :=
  ⟨⟨base, 0, 0x5A17C0DE, ⟨⟨ok, ok, ok, ok, ok⟩, ok, ok, ok, ok⟩, rfl⟩,
   ⟨base, 0, 0, ⟨⟨ok, ok, ok, ok, ok⟩, ok, ok, ok, ok⟩, ok⟩,
   ⟨base, 3, 0x440FC, row 0x440FC, ⟨ok, ok, ok, ok, ok⟩, ok, ok, ok⟩,
   ⟨base, 0, 0, ⟨⟨ok, ok, ok, ok, ok⟩, ok, ok, ok, ok⟩, ok⟩⟩

theorem wit_GuardCountersAndParity_b :
    (∃ (s : State) (addr : BitVec 20) (row : RegRow), let a := addr.toNat / 4 * 4; s.canonical = true ∧ s.portServes a = true ∧ s.regOn a = true ∧
      s.regAt a = some row ∧ row.fields.any (fun f => f.acc == .rw || f.acc == .mw) = true ∧
        a ∉ [0x8000, 0x8004, 0x8020, 0x38004, 0x3C014, 0x3C018, 0x44000, 0x44008] ∧ pcCounter a = false ∧ s.get F.rasCfgParValid = 0) ∧
    (∃ (s : State) (addr : BitVec 20) (l r : List WEntry) (w : WEntry), s.wbuf = l ++ [w] ++ r ∧ w.addr = addr.toNat / 4 * 4 ∧ w.bad = false ∧
      (∀ x ∈ l, x.addr ≠ w.addr ∨ x.bad = true)) :=
  ⟨⟨base, 0x10004, row 0x10004, ok, ok, ok, ok, ok, ok, ok⟩,
   ⟨{ base with wbuf := [⟨0x10004, 3, true⟩, ⟨0x10004, 2, false⟩] }, 0x10006, [⟨0x10004, 3, true⟩], [], ⟨0x10004, 2, false⟩, rfl, ok, rfl, ok⟩⟩

/-- A stage of kind `k` that reads queue `input` and writes queue `out`. -/
def stageOf (k input out : Nat) : Stage :=
  { kind := k, input := input, out0 := out, out1 := 255, routeSel := 0, routeBit := 0, tgMask := 255, quadMask := 255, seMask := 65535, prog := 0,
    strmFirst := 0, strmCount := 1, model := 0, settings := 0 }

/-- A chain of the stages given, with `n` queues of 16 entries of 64 bytes. -/
def chainWith (l : List Stage) (n : Nat) : Chain :=
  { classMask := 15, trigger := 0, triggerArg := 0, ordered := false, fillAhead := false, mcastArrays := 0, allPeers := false, peers := [],
    paramSize := 0, stages := l, queues := (List.range n).map (fun i => { region := 0, entrySize := 1, offset := 1024 * i, capacity := 16 }) }

/-- A small image: the chain given, one program of 128 bytes at 0x8000, one queue region of 64 KiB and every unit open to every class. -/
def imageWith (c : Chain) : Image :=
  { id := 7, addr := 0x4000, len := 1024, chains := [c],
    progs := [{ codeAddr := 0x8000, codeLen := 128, regs := 128, split := 0, maxGroups := 8, entries := [0, 0, 0, 0, 0] }],
    part := { tgClass := List.replicate 8 15, quadClass := List.replicate 8 15,
              regions := [{ kind := 1, zero := true, start := 0, size := 1 }, { kind := 2, zero := false, start := 1, size := 1 }],
              ranges := [{ first := 0, count := 256, classMask := 15 }] },
    strmAddr := 0, strmCount := 1, wrefs := [{ layerCount := 1, tileCount := 1, layerTable := 0x9000 }], resis := [],
    travs := [{ maxDepth := 8, samples := 0, anyhit := 0xFFFF, isect := 0xFFFF, refine := 0xFFFF, arrayBatch := 0 }],
    qrys := [{ dims := 3, kMax := 8, output := 0, candMax := 8, scoreDim := 0 }], qos := List.replicate 4 { maxInflight := 4, coalesce := 1 },
    placeA := [], placeB := [], minPlk := 0 }

/-- An image with one STREAM stage. -/
def img : Image := imageWith (chainWith [stageOf 7 255 255] 0)

/-- A record of class `c` for chain 0 with 4 items. -/
def rcdOf (c : Nat) : DispRec :=
  { chain := 0, cls := c, irq := true, afterPrev := false, itemCount := 4, paramAddr := 0, doneAddr := 0x2000, failAddr := 0, failCap := 0, tag := 9,
    doneRing := 0 }

/-- A dispatch in running state, with number 0, the record given and `n` empty queues. -/
def dispOf (r : DispRec) (n : Nat) : Dispatch :=
  { id := 0, queue := r.cls, rcd := r, seq := 1, imageId := 7, phase := .running, fixedStatus := 0, param := List.replicate 64 0, asDesc := [],
    asFail := 0, ksAddr := none, ksDesc := none, ksFail := 0, done := 0, fail := 0, endedItems := [], failLast := none, failEntries := 0,
    failFull := false, preempted := false, recovery := false, triggered := false, stages := List.replicate 4 { taken := 0, runs := 0, finished := false },
    queues := List.replicate n { entries := [], appended := 0 }, intake := 0, deadTreelets := [], lost := none }

/-- An enabled queue of class `c` with the head record given. -/
def queueWith (h : Option DispRec) (f : List Firing) : QState := { QState.init with head := h, firings := f, enabled := true }

/-- The engine with the image active. -/
def work : State := { base with active := some img }

/-- The engine with the queue state given for every class. -/
def queued (q : QState) : State := { work with queues := List.replicate 4 q }

/-- A structure image with one GENERATE stage, as (offset, bytes, value): header, four section table entries, CHAIN, PROG, PART and QOS.  Its CRC
at 0xBC was worked out apart from the model. -/
def imageFields : List (Nat × Nat × Nat) := [
  (0x0, 4, 0x4953544B), (0x4, 2, 0x1), (0x8, 4, 0x340), (0xC, 2, 0x4), (0xE, 2, 0x1), (0x10, 8, 0x7), (0x18, 1, 0x1), (0xBC, 4, 0x25A2D580),
  (0x100, 2, 0x1), (0x104, 4, 0x180), (0x108, 4, 0x80), (0x10C, 4, 0x1), (0x120, 2, 0x2), (0x124, 4, 0x200), (0x128, 4, 0x80), (0x12C, 4,
  0x1), (0x140, 2, 0x3), (0x144, 4, 0x280), (0x148, 4, 0x80), (0x14C, 4, 0x1), (0x160, 2, 0x9), (0x164, 4, 0x300), (0x168, 4, 0x40), (0x16C,
  4, 0x4), (0x180, 1, 0x1), (0x182, 1, 0x2), (0x1C0, 1, 0x1), (0x1C1, 1, 0xFF), (0x1C2, 1, 0xFF), (0x1C3, 1, 0xFF), (0x1C6, 1, 0xFF), (0x1D0,
  2, 0xFFFF), (0x1D2, 2, 0xFFFF), (0x200, 4, 0x8), (0x204, 1, 0x10), (0x206, 1, 0x1), (0x207, 1, 0x1), (0x280, 2, 0x1), (0x282, 2, 0x1),
  (0x284, 8, 0x202020202020202), (0x2C0, 1, 0x1), (0x2C8, 4, 0x1), (0x2D2, 2, 0x100), (0x300, 1, 0x1), (0x302, 2, 0x1), (0x310, 1, 0x1),
  (0x312, 2, 0x1), (0x320, 1, 0x1), (0x322, 2, 0x1), (0x330, 1, 0x1), (0x332, 2, 0x1)]

/-- The engine with that image in memory at 0x4000, about to validate it. -/
def loading : State :=
  { withRegs [(F.ldrStateState, 1)] with mem := imageFields.foldl (fun m e => putBytes m (0x4000 + e.1) (leBytes e.2.1 e.2.2)) [], loadAddr := 0x4000 }

/-- Whether an outcome of validation is an image. -/
def isImage : Except (Nat × Nat) Image → Bool
  | .ok _ => true
  | .error _ => false

/-- A fold taken in two parts. -/
theorem foldl_cut {α β : Type} (f : α → β → α) (n : Nat) (i : α) (l : List β) : l.foldl f i = (l.drop n).foldl f ((l.take n).foldl f i) := by
  rw [← List.foldl_append, List.take_append_drop]

/-- The image of `loading` as the loader reads it. -/
def loadingSrc : ImgSrc := { mem := loading.mem, base := 0x4000 }

/-- A CRC-32 worked out over four parts of a list. -/
theorem crc_of_parts (l : List Byte) (n a b c d : Nat) (h1 : (l.take n).foldl (crcByteReflected 0xEDB88320) 0xFFFFFFFF = a)
    (h2 : ((l.drop n).take n).foldl (crcByteReflected 0xEDB88320) a = b)
    (h3 : (((l.drop n).drop n).take n).foldl (crcByteReflected 0xEDB88320) b = c)
    (h4 : (((l.drop n).drop n).drop n).foldl (crcByteReflected 0xEDB88320) c = d) : crc32 l = d ^^^ 0xFFFFFFFF := by
  unfold crc32
  rw [foldl_cut _ n, h1, foldl_cut _ n, h2, foldl_cut _ n, h3, h4]

/-- The CRC of R49 over that image. -/
theorem test_image_crc : crc32 (imgBytes loadingSrc true) = 0x25A2D580 :=
  crc_of_parts _ 208 0x97B705AD 0x2C0D381C 0xBB523BEA 0xDA5D2A7F (by decide +kernel) (by decide +kernel) (by decide +kernel) (by decide +kernel)

/-- An image that passes every step is valid. -/
theorem valid_of_steps (s : State) (g : ImgSrc) (hg : ({ mem := s.mem, base := g.base } : ImgSrc) = g) (h1 : step1 g = none) (h2 : step2 g = none)
    (h3 : step3 g s.mgmt.lifecycle s.mgmt.keys = none) (h4 : step4 g = none) (h5 : step5 g = none)
    (h6 : (let im := parseImage s g
      firstFail [step6 im.part im.chains, step7 im.part im.chains, step8 s im.part im.chains im.progs im.travs im.wrefs im.resis,
        step9 s (g.at 0x18 1) im.minPlk im.chains, step10 s im.chains]) = none) :
    isImage (s.validate g.base) = true := by
  dsimp only at h6
  unfold State.validate
  rw [hg]
  simp only [h1, h2, h3, h4, h5, h6]
  rfl

/-- The image is valid. -/
theorem loading_valid : isImage (loading.validate loadingSrc.base) = true := by
  have h1 : step1 loadingSrc = none := by decide +kernel
  have h2 : step2 loadingSrc = none := by simp only [step2, test_image_crc]; decide +kernel
  have h3 : step3 loadingSrc loading.mgmt.lifecycle loading.mgmt.keys = none := by decide +kernel
  have h4 : step4 loadingSrc = none := by decide +kernel
  have h5 : step5 loadingSrc = none := by decide +kernel
  exact valid_of_steps loading loadingSrc rfl h1 h2 h3 h4 h5 (by decide +kernel)

/-- An outcome that is no error is an image. -/
theorem ok_of_valid (e : Except (Nat × Nat) Image) (h : isImage e = true) : ∃ im, e = .ok im := by
  cases e with
  | ok im => exact ⟨im, rfl⟩
  | error _ => simp [isImage] at h

theorem wit_LoaderCommands_a :
    (∃ (s : State) (m : Master), Takes s m 0x4000 ∧ s.get F.ldrStateState = 0) ∧
    (∃ (s : State) (m : Master), Takes s m 0x4000 ∧ s.get F.ldrStateState = 1) ∧
    (∃ (s : State) (m : Master) (im : Image), Takes s m 0x4000 ∧ s.get F.ldrStateState ∈ [2, 3, 4] ∧ s.staged = some im) ∧
    (∃ (s : State) (im : Image), LoaderReads s ∧ s.reaches (.image (BitVec.ofNat 64 s.loadAddr)) s.loadAddr s.imageBytes false = true ∧
      s.validate s.loadAddr = .ok im) :=
  ⟨⟨base, 0, ⟨⟨ok, ok, ok, ok, ok⟩, ok, ok, ok, ok⟩, ok⟩,
   ⟨withRegs [(F.ldrStateState, 1)], 0, ⟨⟨ok, ok, ok, ok, ok⟩, ok, ok, ok, ok⟩, ok⟩,
   ⟨{ withRegs [(F.ldrStateState, 4)] with staged := some img }, 0, img, ⟨⟨ok, ok, ok, ok, ok⟩, ok, ok, ok, ok⟩, ok, rfl⟩,
   (ok_of_valid (loading.validate loadingSrc.base) loading_valid).elim fun im h => ⟨loading, im, ⟨ok, ok, ok⟩, ok, h⟩⟩

theorem wit_LoaderCommands_b :
    (∃ (s : State) (code detail : Nat), LoaderReads s ∧ s.reaches (.image (BitVec.ofNat 64 s.loadAddr)) s.loadAddr s.imageBytes false = true ∧
      s.validate s.loadAddr = .error (code, detail)) ∧
    (∃ (s : State) (a : DWord), LoaderReads s) ∧
    (∃ (s : State) (a : DWord), LoaderReads s) ∧
    (∃ (s : State) (m : Master), Takes s m 0x4000 ∧ s.get F.ldrStateState = 3) :=
  ⟨⟨withRegs [(F.ldrStateState, 1)], 4, 0, ⟨ok, ok, ok⟩, ok, rfl⟩,
   ⟨withRegs [(F.ldrStateState, 1)], 0x40, ok, ok, ok⟩,
   ⟨withRegs [(F.ldrStateState, 1)], 0x40, ok, ok, ok⟩,
   ⟨withRegs [(F.ldrStateState, 3)], 0, ⟨⟨ok, ok, ok, ok, ok⟩, ok, ok, ok, ok⟩, ok⟩⟩

theorem wit_LoaderCommands_c :
    (∃ (s : State) (m : Master), Takes s m 0x4000 ∧ s.get F.ldrStateState ≠ 3) ∧
    (∃ (s : State) (m : Master), Takes s m 0x4000 ∧ s.get F.ldrStateState ∈ [1, 2, 3]) ∧
    (∃ (s : State) (m : Master), Takes s m 0x4000 ∧ s.get F.ldrStateState ∈ [0, 4]) :=
  ⟨⟨withRegs [(F.ldrStateState, 4)], 0, ⟨⟨ok, ok, ok, ok, ok⟩, ok, ok, ok, ok⟩, ok⟩,
   ⟨withRegs [(F.ldrStateState, 3)], 0, ⟨⟨ok, ok, ok, ok, ok⟩, ok, ok, ok, ok⟩, ok⟩,
   ⟨withRegs [(F.ldrStateState, 4)], 0, ⟨⟨ok, ok, ok, ok, ok⟩, ok, ok, ok, ok⟩, ok⟩⟩

theorem wit_ImageActivation :
    (∃ (s : State) (im : Image), s.canonical = true ∧ s.get F.ldrStateState = 2 ∧ s.quiet = true ∧ s.staged = some im) ∧
    (∃ (s : State) (im : Image), s.canonical = true ∧ s.get F.ldrStateState = 4 ∧ s.staged = some im) ∧
    (∃ (s : State), s.canonical = true ∧ s.get F.ldrStateState = 2 ∧ s.get F.ldrActTimeout ≠ 0) :=
  ⟨⟨{ withRegs [(F.ldrStateState, 2)] with staged := some img }, img, ok, ok, ok, rfl⟩,
   ⟨{ withRegs [(F.ldrStateState, 4)] with staged := some img }, img, ok, ok, rfl⟩,
   ⟨withRegs [(F.ldrStateState, 2)], ok, ok, ok⟩⟩

theorem wit_QueueCommands_a :
    (∃ (s : State) (m : Master) (c : Cls) (v : Word), Takes s m (0x200C + 0x100 * c.val) ∧ pendingWith s c.val v ≤ places s c.val) ∧
    (∃ (s : State) (m : Master) (c : Cls) (v : Word), Takes s m (0x200C + 0x100 * c.val) ∧ places s c.val < pendingWith s c.val v) ∧
    (∃ (s : State) (m : Master) (c : Cls), Takes s m (0x2014 + 0x100 * c.val)) ∧
    (∃ (s : State) (m : Master) (c : Cls), Takes s m (0x2014 + 0x100 * c.val)) :=
  ⟨⟨withRegs [(F.dqHead 3, 65535)], 0, 3, 15, ⟨⟨ok, ok, ok, ok, ok⟩, ok, ok, ok, ok⟩, ok⟩,
   ⟨withRegs [(F.dqHead 3, 65535)], 0, 3, 16, ⟨⟨ok, ok, ok, ok, ok⟩, ok, ok, ok, ok⟩, ok⟩,
   ⟨base, 0, 0, ⟨⟨ok, ok, ok, ok, ok⟩, ok, ok, ok, ok⟩⟩,
   ⟨base, 0, 0, ⟨⟨ok, ok, ok, ok, ok⟩, ok, ok, ok, ok⟩⟩⟩

theorem wit_QueueCommands_b :
    (∃ (s : State) (m : Master) (c : Cls), Takes s m (0x2014 + 0x100 * c.val) ∧ s.get (F.dqTail c.val) ≠ s.get (F.dqHead c.val)) ∧
    (∃ (s : State) (m : Master) (c : Cls), Takes s m (0x2014 + 0x100 * c.val) ∧ s.get (F.dqTail c.val) = s.get (F.dqHead c.val)) :=
  ⟨⟨withRegs [(F.dqTail 0, 1)], 0, 0, ⟨⟨ok, ok, ok, ok, ok⟩, ok, ok, ok, ok⟩, ok⟩,
   ⟨base, 0, 0, ⟨⟨ok, ok, ok, ok, ok⟩, ok, ok, ok, ok⟩, ok⟩⟩

/-- The head of queue `c` is reached. -/
theorem head_reached {s : State} {c : Cls} (h : s.reaches (.record c) (headAddr s c.val) 64 false = true := by decide +kernel) : HeadReached s c := h

theorem wit_DispatchStart_a :
    (∃ (s : State) (c : Cls), HeadWanted s c ∧ HeadReached s c ∧ ((s.queue c.val).enabled = true ∨ (s.queue c.val).flushTo ≠ none)) ∧
    (∃ (s : State) (c : Cls) (r : ReadOutcome), HeadWanted s c ∧ r ≠ .ok ∧ (r = .unc → HeadReached s c)) ∧
    (∃ (s : State) (c : Cls) (r : DispRec) (im : Image) (ch : Chain), s.canonical = true ∧ (s.queue c.val).flushTo = none ∧
      (s.queue c.val).firings = [] ∧ (s.queue c.val).head = some r ∧ MayBegin s c.val r im ∧ r.cls = c.val ∧ im.chains[r.chain]? = some ch ∧
        ch.classMask.testBit c.val = true ∧ (ch.paramSize = 0 ∨ r.paramAddr % 64 = 0) ∧ r.doneAddr % 32 = 0 ∧ r.failAddr % 16 = 0 ∧ r.itemCount ≠ 0) ∧
    (∃ (s : State) (c : Cls) (f : Firing) (rest : List Firing) (im : Image) (ch : Chain), s.canonical = true ∧ c.val ≠ 0 ∧
      (s.queue c.val).flushTo = none ∧ (s.queue c.val).firings = f :: rest ∧ MayBegin s c.val f.rcd im ∧ f.rcd.cls = c.val ∧
        im.chains[f.rcd.chain]? = some ch ∧ ch.classMask.testBit c.val = true ∧ (ch.paramSize = 0 ∨ f.rcd.paramAddr % 64 = 0) ∧
          f.rcd.doneAddr % 32 = 0 ∧ f.rcd.failAddr % 16 = 0 ∧ f.rcd.itemCount ≠ 0) :=
  ⟨⟨{ withRegs [(F.dqTail 1, 1)] with queues := List.replicate 4 (queueWith none []) }, 1, ⟨ok, ok, ok, ok, ok⟩, head_reached, .inl (ok)⟩,
   ⟨{ withRegs [(F.dqTail 1, 1)] with queues := List.replicate 4 (queueWith none []) }, 1, .abort, ⟨ok, ok, ok, ok, ok⟩, ok, fun h => nomatch h⟩,
   ⟨queued (queueWith (some (rcdOf 1)) []), 1, rcdOf 1, img, chainWith [stageOf 7 255 255] 0, ok, ok, ok, rfl,
  ⟨rfl, ok, ⟨ok, ok, ok⟩, .inl (ok), fun _ => ok, ⟨_, rfl, ok⟩, ok, fun h => nomatch h⟩, rfl, rfl, ok, .inl rfl, ok, ok, ok⟩,
   ⟨queued (queueWith none [{ entry := 0, rcd := rcdOf 1, k := 0 }]), 1, { entry := 0, rcd := rcdOf 1, k := 0 }, [], img,
  chainWith [stageOf 7 255 255] 0, ok, ok, ok, rfl,
  ⟨rfl, ok, ⟨ok, ok, ok⟩, .inl (ok), fun _ => ok, ⟨_, rfl, ok⟩, ok, fun h => nomatch h⟩, rfl, rfl, ok, .inl rfl, ok, ok, ok⟩⟩

theorem wit_DispatchStart_b :
    (∃ (s : State) (c : Cls) (r : DispRec) (im : Image) (status : Nat), s.canonical = true ∧ (s.queue c.val).flushTo = none ∧
      (s.queue c.val).firings = [] ∧ (s.queue c.val).head = some r ∧ MayBegin s c.val r im ∧
        (if r.cls ≠ c.val then status = 0x04 else
          match im.chains[r.chain]? with | none => status = 0x03 | some ch => if ch.classMask.testBit c.val = false then status = 0x04 else
            status = 0x05 ∧ ((ch.paramSize ≠ 0 ∧ r.paramAddr % 64 ≠ 0) ∨ r.doneAddr % 32 ≠ 0 ∨ r.failAddr % 16 ≠ 0))) ∧
    (∃ (s : State) (c : Cls) (r : DispRec) (n : Nat), s.canonical = true ∧ Advances s ∧ (s.queue c.val).flushTo = some n ∧ (s.queue c.val).head = some r) ∧
    (∃ (s : State) (id : Nat) (d : Dispatch) (ch : Chain), s.disp id = some d ∧ d.phase = .paramWait ∧ s.chainOf d = some ch ∧
      (∀ w ∈ s.fwaits, w.acc ≠ .param id ∧ w.acc ≠ .asDesc id) ∧ s.reaches (.param id) d.rcd.paramAddr ch.paramSize false = true ∧
        (∀ a, s.descWanted d ch = some a → s.reaches (.asDesc id) a 64 false = true)) ∧
    (∃ (s : State) (id : Nat) (d : Dispatch) (ch : Chain) (r desc : ReadOutcome), s.disp id = some d ∧ d.phase = .paramWait ∧ s.canonical = true ∧
      s.chainOf d = some ch ∧ (∀ w ∈ s.fwaits, w.acc ≠ .param id ∧ w.acc ≠ .asDesc id) ∧ r ≠ .ok ∧
        (r = .unc → s.reaches (.param id) d.rcd.paramAddr ch.paramSize false = true)) :=
  ⟨⟨queued (queueWith (some { rcdOf 1 with chain := 1 }) []), 1, { rcdOf 1 with chain := 1 }, img, 3, ok, ok, ok, rfl,
  ⟨rfl, ok, ⟨ok, ok, ok⟩, .inl (ok), fun _ => ok, ⟨_, rfl, ok⟩, ok, fun h => nomatch h⟩, rfl⟩,
   ⟨queued { queueWith (some (rcdOf 1)) [] with flushTo := some 5 }, 1, rcdOf 1, 5, ok, ⟨ok, ok, ok⟩, rfl, rfl⟩,
   ⟨{ work with disps := [{ dispOf (rcdOf 1) 0 with phase := .paramWait }] }, 0, { dispOf (rcdOf 1) 0 with phase := .paramWait },
  chainWith [stageOf 7 255 255] 0, rfl, rfl, rfl, ok⟩,
   ⟨{ work with disps := [{ dispOf (rcdOf 1) 0 with phase := .paramWait }] }, 0, { dispOf (rcdOf 1) 0 with phase := .paramWait }, _,
  .unc, .ok, rfl, rfl, ok, rfl, ok, ok, fun _ => ok⟩⟩

theorem wit_CompletionRecords :
    (∃ (s : State) (c : Cls) (d : Dispatch) (l r : List Dispatch), s.canonical = true ∧ s.disps = l ++ [d] ++ r ∧ (∀ x ∈ l, x.queue ≠ c.val) ∧
      d.queue = c.val ∧ s.runs d = false) ∧
    (∃ (s : State) (m : Master) (c : Cls), let a := 0x2024 + 0x100 * c.val; Reaches s m a ∧ s.regOn a = true ∧ s.isOwner m.val = true ∧
      s.get (F.doneLostLoValid c.val) = 1 ∧ (s.queue c.val).lost = []) ∧
    (∃ (s : State) (m : Master) (c : Cls) (w : PWrite) (rest : List PWrite), let a := 0x2024 + 0x100 * c.val; Reaches s m a ∧ s.regOn a = true ∧
      s.isOwner m.val = true ∧ s.get (F.doneLostLoValid c.val) = 1 ∧ (s.queue c.val).lost = w :: rest) :=
  ⟨⟨{ work with disps := [{ dispOf (rcdOf 1) 0 with phase := .ended }] }, 1, { dispOf (rcdOf 1) 0 with phase := .ended }, [], [], ok, rfl, ok, rfl, rfl⟩,
   ⟨withRegs [(F.doneLostLoValid 3, 1)], 0, 3, ⟨ok, ok, ok, ok, ok⟩, ok, ok, ok, rfl⟩,
   ⟨{ withRegs [(F.doneLostLoValid 3, 1)] with queues := List.replicate 4 { QState.init with lost := [⟨0x2000, [], false, false⟩] } }, 0, 3,
  ⟨0x2000, [], false, false⟩, [], ⟨ok, ok, ok, ok, ok⟩, ok, ok, ok, rfl⟩⟩

theorem wit_StandingSchedules :
    (∃ (s : State) (n : Fin 16), s.canonical = true ∧ s.present = true) ∧
    (∃ (s : State) (n : Fin 16), s.present = false) ∧
    (∃ (s : State) (i : Fin 32) (k : Nat) (e : DispRec), s.canonical = true ∧ i.val ∈ s.schedWait ∧ (∀ w ∈ s.fwaits, w.acc ≠ .sched i) ∧
      s.reaches (.sched i) (s.get2 F.schedBaseLo F.schedBaseHi + 64 * i.val) 64 false = true ∧ s.schedK[i.val]? = some k ∧
        e = s.readRecord (s.get2 F.schedBaseLo F.schedBaseHi + 64 * i.val)) ∧
    (∃ (s : State) (i : Fin 32) (r : ReadOutcome), i.val ∈ s.schedWait ∧ (∀ w ∈ s.fwaits, w.acc ≠ .sched i) ∧ r ≠ .ok ∧
      (r = .unc → s.reaches (.sched i) (s.get2 F.schedBaseLo F.schedBaseHi + 64 * i.val) 64 false = true)) :=
  ⟨⟨work, 15, ok, ok⟩,
   ⟨{ work with present := false }, 15, ok⟩,
   ⟨{ work with schedWait := [31] }, 31, 0, _, ok, ok, ok, ok, rfl, rfl⟩,
   ⟨{ work with schedWait := [31] }, 31, .unc, ok, ok, ok⟩⟩

/-- A block of `n` bytes with the (offset, bytes, value) fields given and zeros elsewhere. -/
def block (n : Nat) (l : List (Nat × Nat × Nat)) : List Byte := bytesAt (l.foldl (fun m e => putBytes m e.1 (leBytes e.2.1 e.2.2)) []) 0 n

/-- A descriptor of one treelet, whose table stands at 0x10000, with ROOT in treelet 0 at offset 0 and the box from -1 to 1. -/
def structDesc : List Byte :=
  block 64 [(0, 2, 1), (4, 4, 1), (8, 8, 0x10000), (16, 4, 2 ^ 30), (20, 4, 3), (0x18, 4, 0xBF800000), (0x1C, 4, 0xBF800000), (0x20, 4, 0xBF800000),
    (0x24, 4, 0x3F800000), (0x28, 4, 0x3F800000), (0x2C, 4, 0x3F800000)]

/-- A ray from (0, 0, -2) along +z, with TMAX 100. -/
def rayBytes : List Byte := block 64 [(8, 4, 0xC0000000), (24, 4, 0x3F800000), (28, 4, 0x42C80000), (0x22, 1, 255), (0x24, 4, 77)]

/-- A queue entry at position 0. -/
def entry0 : QEntry := { pos := 0, slot := 0, item := 0, count := 1, flags := 0, ended := false, held := false, ray := 0, used := 0, src := 1 }

/-- The chain of a GENERATE stage and a TRAVERSE stage. -/
def travChain : Chain := chainWith [stageOf 1 255 0, stageOf 3 0 255] 1

/-- A running dispatch of that chain, whose first queue holds `l`. -/
def travDisp (l : List QEntry) : Dispatch :=
  { dispOf (rcdOf 1) 1 with param := block 64 [(0, 8, 0x3000), (8, 8, 0x40000), (16, 8, 0x50000), (24, 8, 0x60000)], asDesc := structDesc,
                            queues := [{ entries := l, appended := 1 }] }

/-- Whose treelet 0 has 1 KiB at 0x20000; a record of bytes `b` at the front of the queue. -/
def tracing (b : List Byte) (l : List QEntry) : State :=
  let s : State := { withRegs [(F.cmNcOn, 0), (F.cmSpcOn, 0)] with active := some (imageWith travChain) }
  let q := s.queueAddr { region := 0, entrySize := 1, offset := 0, capacity := 16 } 0
  { s with disps := [travDisp l],
           mem := putBytes [] 0x10000 (block 16 [(0, 8, 0x20000), (8, 2, 16), (12, 1, 1)]), sf := putBytes [] q b }

/-- A ray of that dispatch at its start, in pipeline 0 of cluster 0. -/
def aRay : Ray :=
  { id := 0, disp := 0, stage := 1, item := 0, query := false, cls := 1, rcd := rayBytes, intake := 0, key := 0, ticket := false, replayed := false,
    failed := false, loc := .ctx, tq := 0, pos := 0, tc := 0, pipe := 0, treelet := 0, started := false, stack := [], frames := [], best := none,
    bestT := 0x42C80000, leaf := none, call := none, neural := none, list := [], total := 0, guest := none, gen := 0, link := none, home := none, lines := 0,
    fin := [], nodes := 0,
    cont := { started := false, stack := [], frames := [], best := none, bestT := 0x42C80000, list := [], total := 0, lines := 0 } }

/-- The queue of treelet 0 with the entries of one segment in the state `st`. -/
def aQueue (n st : Nat) : TQueue :=
  { id := 0, desc := some 0, disp := 0, query := false, cls := 1, treelet := 0, appended := n, evicted := false,
    segs := [{ ord := 0, place := .field, raw := false, entries := (List.range n).map (fun i => { ray := i, st := st }) }] }

/-- Treelet 0 in a slot of the state given. -/
def aSlot (st : TSState) : TSlot :=
  { state := st, asAddr := 0x3000, gen := 3, treelet := 0, addr := 0x20000, bytes := 1024, lastUse := 0, se := 0, charged := 1, cls := 1 }

/-- The engine with two rays untaken in the queue of treelet 0, and the treelet slots given. -/
def sorting (l : List (Nat × TSlot)) : State :=
  { tracing [] [] with rays := [{ aRay with loc := .queued, key := 9 }, { aRay with id := 1, loc := .queued, key := 4 }], nextRay := 2,
                       tqs := [aQueue 2 0], nextTq := 1, tslots := l }

/-- The engine with `r` as its only ray, in a batch of the resident treelet 0 whose bytes are `b`. -/
def walking (r : Ray) (b : List Byte) : State :=
  { tracing [] [] with rays := [r], nextRay := 1, tqs := [aQueue 1 1], nextTq := 1, tslots := [(0, aSlot .resident)], ts := putBytes [] 0 b,
                       batches := [{ tc := 0, pipe := 0, tq := 0, slot := 0, rays := [0] }] }

/-- A stack entry of the type given with the entry distance given. -/
def entryOf (typ te : Nat) : SEntry := { exit := false, bad := 0, typ := typ, treelet := 0, offset := 0, count := 0, raw := true, te := te }

/-- A segment of 64 untaken rays. -/
def fullSeg (ord : Nat) (p : SegPlace) : Seg := { ord := ord, place := p, raw := false, entries := List.replicate 64 { ray := 0, st := 0 } }

/-- A queue of five segments, the third placed at `p`. -/
def longQueue (p : SegPlace) : TQueue :=
  { aQueue 0 0 with segs := [fullSeg 0 .field, fullSeg 1 .field, fullSeg 2 p, fullSeg 3 .field, fullSeg 4 .field], appended := 320 }

/-- With one dispatch none comes before it. -/
theorem only_disp {s : State} {d : Dispatch} {P : Dispatch → Prop} (h : s.disps = [d] := by rfl) : ∀ x ∈ s.disps, x.phase = .running →
    x.fixedStatus = 0 → (x.rcd.cls < d.rcd.cls ∨ (x.rcd.cls = d.rcd.cls ∧ x.id < d.id)) → P x := by
  intro x hx _ _ o
  rw [h, List.mem_singleton] at hx
  subst hx
  omega

theorem wit_RayIntakeResult :
    (∃ (s : State) (id k : Nat) (d : Dispatch) (c : Chain) (t0 : Stage) (j : Nat) (t : Stage) (e : QEntry) (b : List Byte),
      IntakeReady s id k d c t0 j t e b ∧ rayValid b = true ∧ descOk (leVal (d.param.take 8)) d.asDesc false = true ∧
        s.ttBad d.asDesc (refTreelet (leVal ((d.asDesc.drop 16).take 4))) = false ∧ d.deadTreelets = [] ∧ s.noCluster t = false ∧
          s.ttReach id d.asDesc (refTreelet (leVal ((d.asDesc.drop 16).take 4))) = true ∧
            ttRemote (s.ttEntry d.asDesc (refTreelet (leVal ((d.asDesc.drop 16).take 4)))) = false) ∧
    (∃ (s : State) (id k : Nat) (d : Dispatch) (c : Chain) (t0 : Stage) (j : Nat) (t : Stage) (e : QEntry) (b : List Byte),
      IntakeReady s id k d c t0 j t e b ∧ rayValid b = false ∧ e.ended = false) :=
  ⟨⟨tracing rayBytes [entry0], 0, 1, travDisp [entry0], travChain, stageOf 3 0 255, 1, stageOf 3 0 255, entry0, rayBytes,
  ⟨ok, ok, ok, ok, ok, ⟨ok, ok, ok⟩, ok, ok, ok, ⟨ok, ok⟩, ok, ok, ok, ok, only_disp⟩, ok, ok, ok, ok, ok, ok, ok⟩,
   ⟨tracing (block 64 []) [entry0], 0, 1, travDisp [entry0], travChain, stageOf 3 0 255, 1, stageOf 3 0 255, entry0, block 64 [],
  ⟨ok, ok, ok, ok, ok, ⟨ok, ok, ok⟩, ok, ok, ok, ⟨ok, ok⟩, ok, ok, ok, ok, only_disp⟩, ok, ok⟩⟩

theorem wit_BatchPickResult : ∃ (s : State) (tc : Fin 32) (p : Fin 4) (q : TQueue) (slot : Nat), s.canonical = true ∧
  (∀ b ∈ s.batches, b.tc = tc.val → b.pipe = p.val → s.preempted (tcUnit tc.val) = true ∧
    ∀ x, s.tqs.find? (fun y => y.id == b.tq) = some x → x.cls ≠ 0) ∧ Offered s tc.val q ∧ (∀ x, Offered s tc.val x → x ≠ q → tqBetter q x = true) ∧
      s.slotFor q .resident = some slot :=
  ⟨sorting [(255, aSlot .resident)], 0, 0, aQueue 2 0, 255, ok, ok, ⟨ok, ok, ok, ok, ok⟩, fun x h n => absurd (List.mem_singleton.1 h.1) n, ok⟩

theorem wit_TreeletFetchResults :
    (∃ (s : State) (q : TQueue) (slot : Nat) (e : Fin 16), let ds := (s.descFor q.disp q.query).2; s.canonical = true ∧ s.domLive 5 = true ∧
      s.fetches < 2 * ((List.range 32).filter (fun tc => s.inService (tcUnit tc))).length ∧ WantsFetch s q ∧
        (∀ x, WantsFetch s x → x ≠ q → tqBetter q x = true) ∧ s.fetchSlot q.cls = some slot ∧ s.serviceSe = some e ∧ s.seOutstanding e < 6 ∧
          (∀ c, s.runWants e = some c → q.cls ≤ c) ∧ s.ttReach q.disp ds q.treelet = true ∧ s.ttBad ds q.treelet = false ∧ (∀ a, s.windowOf a = none)) ∧
    (∃ (s : State) (slot : Fin 256) (x : TSlot), s.canonical = true ∧
      s.tslots.find? (fun e => e.1 == slot.val && e.2.state == .fetching) = some (slot.val, x) ∧ (∀ w ∈ s.fwaits, w.acc ≠ .treelet slot) ∧
        (∀ r ∈ s.plk.rreads, r.acc ≠ .treelet slot) ∧ (∀ l ∈ linesOf x.addr x.bytes, s.windowOf (64 * l) = none) ∧ x.bytes ≤ 65536 ∧ x.se < 16) ∧
    (∃ (s : State) (slot : Fin 256) (x : TSlot), s.canonical = true ∧
      s.tslots.find? (fun e => e.1 == slot.val && e.2.state == .fetching) = some (slot.val, x) ∧ (∀ w ∈ s.fwaits, w.acc ≠ .treelet slot) ∧
        (∀ r ∈ s.plk.rreads, r.acc ≠ .treelet slot)) :=
  ⟨⟨sorting [], aQueue 2 0, 0, 0, ok, ok, ok, ⟨ok, ok, ok, ⟨0, ok, ok, ok⟩, ok, ok, ok⟩, fun x h n => absurd (List.mem_singleton.1 h.1) n, ok, ok, ok,
  fun _ h => (nomatch (h : none = some _)), ok, ok, fun _ => rfl⟩,
   ⟨sorting [(255, aSlot .fetching)], 255, aSlot .fetching, ok, ok, ok, ok, ok, ok, ok⟩,
   ⟨sorting [(255, aSlot .fetching)], 255, aSlot .fetching, ok, ok, ok, ok⟩⟩

theorem wit_SegmentSpillAndRefill :
    (∃ (s : State) (q : TQueue) (g : Seg) (desc : Nat), s.canonical = true ∧ s.get F.srtSpillCfgEn = 1 ∧ s.segFree < s.get F.srtSpillCfgSpillLow ∧
      s.domLive 5 = true ∧ CanSpill s q ∧ (∀ x, CanSpill s x → x ≠ q → victimBefore q x = true) ∧ q.victim = some g ∧ q.desc = some desc ∧ s.overflow = []) ∧
    (∃ (s : State) (i : Nat) (q : TQueue) (g : Seg), s.canonical = true ∧ s.tqs.find? (fun t => t.desc == some i) = some q ∧ q.refill = some g ∧
      (∀ w ∈ s.fwaits, w.acc ≠ .segment i g.ord) ∧ 0 < s.segFree ∧ s.reaches (.segment i g.ord) (spillPlace s i g.ord) (if g.raw then 4096 else
        2048) false = true) :=
  ⟨⟨{ withRegs [(F.srtSpillCfgEn, 1), (F.srtSpillCfgSpillLow, 255)] with active := some (imageWith travChain), tqs := [longQueue .field] },
  longQueue .field, fullSeg 3 .field, 0, ok, ok, ok, ok, ⟨ok, ok, ok, ok⟩, fun x h n => absurd (List.mem_singleton.1 h.1) n, ok, ok, ok⟩,
   ⟨{ sorting [] with tqs := [longQueue .spilled] }, 0, longQueue .spilled, fullSeg 2 .spilled, ok, ok, ok, ok, ok, ok⟩⟩

/-- A node whose child 0 is a triangle leaf at offset 4 and child 1 the node at offset 6, both with the box from 0 to 2. -/
def nodeBytes : List Byte :=
  block 128 [(12, 4, 0x7F7F7F), (0x28, 8, 0x0101010101010101), (0x30, 8, 0x0101010101010101), (0x38, 8, 0x0101010101010101),
    (0x40, 8, 2 ^ 62 + 2 ^ 31 * 4), (0x48, 8, 2 ^ 61 + 2 ^ 31 * 6)]

/-- Its two entries, for a ray that meets their boxes at t = 2. -/
def nodeEntries : List SEntry :=
  [{ entryOf 2 0x40000000 with offset := 4, raw := false }, { entryOf 1 0x40000000 with offset := 6, raw := false }]

/-- A raw block of one triangle, (-1, -1, 0), (1, -1, 0), (0, 1, 0), with the OPAQUE bits given. -/
def triBytes (op : Nat) : List Byte :=
  block 256 [(0x0F, 1, 1), (0x10, 1, 1), (0x11, 1, 3), (0x12, 2, op), (0x14, 4, 7), (0x18, 3, 5), (0x20, 4, 64 + 8192), (0x50, 4, 0xBF800000),
    (0x54, 4, 0xBF800000), (0x5C, 4, 0x3F800000), (0x60, 4, 0xBF800000), (0x6C, 4, 0x3F800000)]

/-- The candidate that the ray meets on it, at t = 2. -/
def triHit : Hit := { t := 0x40000000, u := 0x3E800000, v := 0x3F000000, prim := 7, geom := 5, kind := 2, inst := 0xFFFFFF }

/-- The leaf of that block. -/
def triLeaf (op : Nat) : Leaf := { entry := entryOf 2 0, blk := 0, idx := 0, bytes := triBytes op, seq := 0 }

/-- A ray with flags `fl` and best parameter `t` at that leaf, with an entry left on its stack. -/
def testing (fl t op : Nat) : Ray :=
  { aRay with rcd := block 64 [(8, 4, 0xC0000000), (24, 4, 0x3F800000), (28, 4, 0x42C80000), (0x20, 2, fl), (0x22, 1, 255)], started := true,
              stack := [entryOf 1 0], bestT := t, leaf := some (triLeaf op) }

/-- That engine with an ANYHIT program named. -/
def withAnyhit (s : State) : State :=
  { s with active := some { imageWith travChain with
    travs := [{ maxDepth := 8, samples := 0, anyhit := 0, isect := 0xFFFF, refine := 0xFFFF, arrayBatch := 0 }] } }

/-- A callout of the kind and reply given. -/
def aCall (k : Nat) (reply : Option (Nat × Nat × Nat × Nat)) : Callout :=
  { kind := k, cand := triHit, user := 0, tLo := 0, tHi := 0, gLo := 0, gHi := 0, lc := none, reply := reply, fault := false }

/-- A ray that waits for the reply to a callout of kind `k`. -/
def waiting (k code : Nat) : Ray :=
  { aRay with started := true, stack := [entryOf 1 0], loc := .callout, call := some (aCall k (some (code, 0x40000000, 0, 0))) }

/-- An open or closed batch of samples. -/
def aBatch (closed : Bool) (lc : Nat) (l : List NSample) : NBatch :=
  { id := 3, tg := 0, weights := 0x70000, disp := 0, closed := closed, quad := none, lc := lc, samples := l }

/-- The sampling of a neural leaf at one place. -/
def aNeural : Neural :=
  { desc := 0, n := 1, t0 := 0, t1 := 0x3F800000, h := 0x3F800000, refining := false, lo := 0, hi := 0, gHi := 0, steps := 0, left := 1 }

/-- A ray that waits for it. -/
def sampling : Ray :=
  { aRay with started := true, stack := [entryOf 1 0], loc := .neural, neural := some aNeural, leaf := some { triLeaf 0 with entry := entryOf 4 0 } }

/-- A hit record of key `k`. -/
def hitOf (k : Nat) : HitRec := { bytes := block 32 [], key := k, cls := 1, ordered := false }

/-- A record in a return buffer. -/
def slotHit : HitSlot := { hit := hitOf 0, disp := 0, item := 0, ended := false }

/-- The chain of a GENERATE and a RETURN stage. -/
def retChain : Chain := chainWith [stageOf 1 255 0, stageOf 8 0 255] 1

/-- The same with a TRAVERSE stage between them and ORDERED_RETURN. -/
def ordChain : Chain := { chainWith [stageOf 1 255 0, stageOf 3 0 1, stageOf 8 1 255] 2 with ordered := true }

/-- A dispatch of one of them with the entry at the front of its last queue. -/
def retDisp (n : Nat) : Dispatch :=
  { dispOf (rcdOf 1) n with queues := List.replicate n { entries := [entry0], appended := 1 } }

/-- The engine with that dispatch and the return buffers given. -/
def returning (c : Chain) (n : Nat) (b : List (List HitSlot)) : State :=
  { base with active := some (imageWith c), disps := [retDisp n], hrBuf := b }

/-- A held record of intake position 5 and key 7. -/
def held5 : HoldRec :=
  { disp := 0, item := 0, ray := 0, ended := false, intake := some 5, replayed := false, queue := 1, pos := 0, hit := hitOf 7 }

/-- The engine with that record in its order hold. -/
def holding : State := { returning ordChain 2 (List.replicate 4 []) with hold := [held5] }

/-- The engine at a walk whose stage names ISECT program 0. -/
def withIsect (s : State) : State :=
  { s with active := some { imageWith travChain with
    travs := [{ maxDepth := 8, samples := 0, anyhit := 0xFFFF, isect := 0, refine := 0xFFFF, arrayBatch := 0 }] } }

/-- The ray under way with the entry `e` alone on its stack. -/
def popping (e : SEntry) : Ray := { aRay with started := true, stack := [e] }

/-- The ray in a procedural leaf. -/
def inLeaf : Ray := { aRay with started := true, leaf := some { triLeaf 0 with entry := entryOf 3 0 } }

/-- The ray with TMAX at one half, short of the box of its structure. -/
def shortRay : Ray :=
  { aRay with rcd := block 64 [(8, 4, 0xC0000000), (24, 4, 0x3F800000), (28, 4, 0x3F000000), (0x22, 1, 255)], bestT := 0x3F000000 }

/-- A ray whose callout's program ended in a fault of the cause given. -/
def callFault (cause : Nat) : Ray := { waiting 1 0 with call := some { aCall 1 (some (cause, 0, 0, 0)) with fault := true } }

theorem wit_NodeStepResults_a :
    (∃ (s : State) (tc : Fin 32) (p : Fin 4) (r : Ray) (te tx : Nat), Steps s tc p r ∧ r.started = false ∧ r.stack = [] ∧
      boxTest r.world r.tmin r.tmax (worldBox (s.descOf r).2).1 (worldBox (s.descOf r).2).2 = some (te, tx)) ∧
    (∃ (s : State) (tc : Fin 32) (p : Fin 4) (r : Ray) (d : Dispatch), Steps s tc p r ∧ r.started = false ∧ r.stack = [] ∧ r.leaf = none ∧
      boxTest r.world r.tmin r.tmax (worldBox (s.descOf r).2).1 (worldBox (s.descOf r).2).2 = none ∧ LastOut s r d ∧ FinalStage s r) ∧
    (∃ (s : State) (tc : Fin 32) (p : Fin 4) (r : Ray) (e x : SEntry) (rest : List SEntry), Steps s tc p r ∧ r.started = true ∧ r.leaf = none ∧
      r.stack = e :: x :: rest ∧ e.exit = true ∧ LinesAtHand s r tc.val (rest.length + 1) p) ∧
    (∃ (s : State) (tc : Fin 32) (p : Fin 4) (r : Ray) (e x : SEntry) (rest : List SEntry), Steps s tc p r ∧ r.started = true ∧ r.leaf = none ∧
      r.stack = e :: x :: rest ∧ e.exit = false ∧ ltF fp32 r.bestT e.te = true ∧ LinesAtHand s r tc.val (rest.length + 1) p) :=
  ⟨⟨walking aRay [], 0, 0, aRay, 0x3F800000, 0x40400000, ⟨ok, ok, ok, ok, ⟨ok, ok⟩, ok⟩, ok, ok, ok⟩,
   ⟨walking shortRay [], 0, 0, shortRay, travDisp [], ⟨ok, ok, ok, ok, ⟨ok, ok⟩, ok⟩, ok, ok, ok, ok, ⟨⟨ok, ok⟩, ok, ⟨ok, ok⟩⟩, ⟨stageOf 3 0 255, ok, ok, ok⟩⟩,
   ⟨walking { aRay with started := true, stack := [{ entryOf 0 0 with exit := true }, entryOf 1 0] } [], 0, 0,
  { aRay with started := true, stack := [{ entryOf 0 0 with exit := true }, entryOf 1 0] }, { entryOf 0 0 with exit := true }, entryOf 1 0, [],
  ⟨ok, ok, ok, ok, ⟨ok, ok⟩, ok⟩, ok, ok, ok, ok, (by unfold LinesAtHand; decide +kernel)⟩,
   ⟨walking { aRay with started := true, stack := [entryOf 1 0x42C80001, entryOf 1 0] } [], 0, 0,
  { aRay with started := true, stack := [entryOf 1 0x42C80001, entryOf 1 0] }, entryOf 1 0x42C80001, entryOf 1 0, [], ⟨ok, ok, ok, ok, ⟨ok, ok⟩, ok⟩,
    ok, ok, ok, ok, ok, (by unfold LinesAtHand; decide +kernel)⟩⟩

theorem wit_NodeStepResults_b :
    (∃ (s : State) (tc : Fin 32) (p : Fin 4) (r : Ray) (d : Dispatch) (e : SEntry), Steps s tc p r ∧ r.started = true ∧ r.leaf = none ∧
      r.stack = [e] ∧ (e.exit = true ∨ ltF fp32 r.bestT e.te = true) ∧ LastOut s r d ∧ FinalStage s r) ∧
    (∃ (r : Ray), r.best = none) ∧
    (∃ (s : State) (tc : Fin 32) (p : Fin 4) (r : Ray) (e : SEntry) (rest l : List SEntry) (b recs : List Byte), let slot := (s.slotOf r).1;
      let size := (s.slotOf r).2; let got := (s.resume r tc.val).2.ncRead tc.val p.val slot (e.offset * 64) 128; let ls := maskLines r b size;
        Pops s tc p r e rest ∧ e.typ = 1 ∧ e.offset % 2 = 0 ∧ e.offset * 64 + 128 ≤ size ∧ s.tsBad tc.val slot (e.offset * 64) 128 = false ∧
          got.1 = some b ∧ (∀ o ∈ nodeMasks r b size, s.tsBad tc.val slot (o * 64) 64 = false) ∧ (got.2.ncGather tc.val 4 slot ls).1 = some recs ∧
            nodeChildren r b (maskIn ls recs) = .ok l ∧ l ++ rest ≠ [] ∧ l.length + rest.length ≤ 136 ∧ LinesAtHand s r tc.val (l.length + rest.length) p) ∧
    (∃ (r : Ray) (b : List Byte) (mask : Nat → Nat) (l : List SEntry), nodeChildren r b mask = .ok l) :=
  ⟨⟨walking (popping (entryOf 1 0x42C80001)) [], 0, 0, popping (entryOf 1 0x42C80001), travDisp [], entryOf 1 0x42C80001,
  ⟨ok, ok, ok, ok, ⟨ok, ok⟩, ok⟩, ok, ok, ok, .inr (ok), ⟨⟨ok, ok⟩, ok, ⟨ok, ok⟩⟩, ⟨stageOf 3 0 255, ok, ok, ok⟩⟩,
   ⟨aRay, ok⟩,
   ⟨walking (popping (entryOf 1 0)) nodeBytes, 0, 0, popping (entryOf 1 0), entryOf 1 0, [], nodeEntries, nodeBytes, [], ⟨⟨ok, ok, ok, ok, ⟨ok, ok⟩,
     ok⟩, ⟨ok, ok⟩, ok, ⟨ok, ok, ok, ok⟩⟩, ok, ok, ok, ok, ok, ok, ok,
  rfl, ok, ok, (by unfold LinesAtHand; decide +kernel)⟩,
   ⟨popping (entryOf 1 0), nodeBytes, fun _ => 255, nodeEntries, rfl⟩⟩

theorem wit_NodeStepResults_c :
    (∃ (s : State) (tc : Fin 32) (p : Fin 4) (r : Ray) (e : SEntry) (rest : List SEntry) (g : Stage) (b : List Byte), let slot := (s.slotOf r).1;
      let ref := leVal ((b.drop 0x30).take 4); Pops s tc p r e rest ∧ e.typ = 5 ∧ s.rayStage r = some g ∧
        r.frames.length - 1 < (s.travOf g).maxDepth ∧ e.offset * 64 + 64 ≤ (s.slotOf r).2 ∧ s.tsBad tc.val slot (e.offset * 64) 64 = false ∧
          ((s.resume r tc.val).2.ncRead tc.val 4 slot (e.offset * 64) 64).1 = some b ∧ leVal ((b.drop 0x38).take 1) % 4 ≠ 3 ∧
            refTreelet ref < descCount (s.descOf r).2 ∧ rest.length + 2 ≤ 136 ∧ LinesAtHand s r tc.val (rest.length + 2) p) ∧
    (∃ (s : State) (tc : Fin 32) (p : Fin 4) (r : Ray) (e : SEntry) (rest : List SEntry), Pops s tc p r e rest ∧ e.typ = 2 ∧
      LinesAtHand s r tc.val rest.length p) ∧
    (∃ (s : State) (tc : Fin 32) (p : Fin 4) (r : Ray) (e : SEntry) (rest : List SEntry) (g : Stage), Pops s tc p r e rest ∧ e.typ = 3 ∧
      s.rayStage r = some g ∧ (s.travOf g).isect ≠ 0xFFFF ∧ LinesAtHand s r tc.val rest.length p) ∧
    (∃ (s : State) (tc : Fin 32) (p : Fin 4) (r : Ray) (l : Leaf) (b : List Byte), let slot := (s.slotOf r).1;
      let off := l.entry.offset * 64 + 32 * l.blk; Steps s tc p r ∧ r.started = true ∧ r.leaf = some l ∧ l.entry.typ = 3 ∧
        off + 32 ≤ (s.slotOf r).2 ∧ s.tsBad tc.val slot off 32 = false ∧ ((s.resume r tc.val).2.ncRead tc.val 4 slot off 32).1 = some b ∧
          (let op := ownOpacity r ((leVal ((b.drop 3).take 1)).testBit 0); ((op = true → r.flags.testBit 5 = false) ∧
            (op = false → r.flags.testBit 6 = false)))) :=
  ⟨⟨walking (popping (entryOf 5 0)) [], 0, 0, popping (entryOf 5 0), entryOf 5 0, [], stageOf 3 0 255, List.replicate 64 0, ⟨⟨ok, ok, ok, ok, ⟨ok,
    ok⟩, ok⟩, ⟨ok, ok⟩, ok, ⟨ok, ok, ok, ok⟩⟩, ok, ok, ok, ok, ok, ok, ok,
  ok, ok, (by unfold LinesAtHand; decide +kernel)⟩,
   ⟨walking (popping (entryOf 2 0x42C80000)) [], 0, 0, popping (entryOf 2 0x42C80000), entryOf 2 0x42C80000, [], ⟨⟨ok, ok, ok, ok, ⟨ok, ok⟩, ok⟩,
     ⟨ok, ok⟩, ok, ⟨ok, ok, ok, ok⟩⟩, ok, (by unfold LinesAtHand; decide +kernel)⟩,
   ⟨withIsect (walking (popping (entryOf 3 0)) []), 0, 0, popping (entryOf 3 0), entryOf 3 0, [], stageOf 3 0 255, ⟨⟨ok, ok, ok, ok, ⟨ok, ok⟩, ok⟩,
     ⟨ok, ok⟩, ok, ⟨ok, ok, ok, ok⟩⟩, ok, ok, ok, (by unfold LinesAtHand; decide +kernel)⟩,
   ⟨withIsect (walking inLeaf []), 0, 0, inLeaf, { triLeaf 0 with entry := entryOf 3 0 }, List.replicate 32 0, ⟨ok, ok, ok, ok, ⟨ok, ok⟩, ok⟩, ok,
     ok, ok, ok, ok, ok, ok⟩⟩

theorem wit_NodeStepResults_d : ∃ (s : State) (tc : Fin 32) (p : Fin 4) (r : Ray) (d : Dispatch) (e : SEntry) (rest : List SEntry), Steps s tc p r ∧
  r.started = true ∧ r.leaf = none ∧ r.stack = e :: rest ∧ e.exit = false ∧ e.bad ≠ 0 ∧ ltF fp32 r.bestT e.te = false ∧ LastOut s r d :=
  ⟨walking (popping { entryOf 1 0 with bad := 3 }) [], 0, 0, popping { entryOf 1 0 with bad := 3 }, travDisp [], { entryOf 1 0 with bad := 3 }, [],
  ⟨ok, ok, ok, ok, ⟨ok, ok⟩, ok⟩, ok, ok, ok, ok, ok, ok, ⟨⟨ok, ok⟩, ok, ⟨ok, ok⟩⟩⟩

theorem wit_HitSelection : ∃ (tmin tmax best : Nat) (held : Option Hit) (h : Hit), h.geom < 2 ^ 24 ∧ h.prim < 2 ^ 32 ∧ h.kind < 256 ∧
  (∀ b, held = some b → b.geom < 2 ^ 24 ∧ b.prim < 2 ^ 32 ∧ b.kind < 256) :=
  ⟨0, 0x42C80000, 0x40000000, some triHit, triHit, ok, ok, ok, ok⟩

theorem wit_TriangleTestResult :
    (∃ (s : State) (tc : Fin 32) (r : Ray) (l : Leaf) (b : List Byte) (next : Option Leaf), Tests s tc r l b next ∧ (next ≠ none ∨ r.stack ≠ []) ∧
      (candOf r l b = none ∨ ∃ h, candOf r l b = some h ∧ hitBetter r.tmin r.tmax r.bestT r.best h = false)) ∧
    (∃ (s : State) (tc : Fin 32) (r : Ray) (l : Leaf) (b : List Byte) (next : Option Leaf) (h : Hit), Tests s tc r l b next ∧
      (next ≠ none ∨ r.stack ≠ []) ∧ r.flags.testBit 0 = false ∧ candOf r l b = some h ∧ hitBetter r.tmin r.tmax r.bestT r.best h = true ∧
        (triOpaque r l b = true ∨ NoAnyhit s r)) ∧
    (∃ (s : State) (tc : Fin 32) (r : Ray) (l : Leaf) (b : List Byte) (next : Option Leaf) (h : Hit) (d : Dispatch), Tests s tc r l b next ∧
      r.flags.testBit 0 = true ∧ candOf r l b = some h ∧ hitBetter r.tmin r.tmax r.bestT r.best h = true ∧ (triOpaque r l b = true ∨ NoAnyhit s r) ∧
        r.neural = none ∧ s.spillPoison tc.val (s.stackAccess r r.stack.length 0) = none ∧
          (s.spcAccess tc.val r.pipe (s.stackAccess r r.stack.length 0)).1 = true ∧ LastOut s r d ∧ FinalStage s r) ∧
    (∃ (s : State) (tc : Fin 32) (r : Ray) (l : Leaf) (b : List Byte) (next : Option Leaf) (h : Hit), Tests s tc r l b next ∧
      triOpaque r l b = false ∧ (∃ g, s.rayStage r = some g ∧ (s.travOf g).anyhit ≠ 0xFFFF) ∧ candOf r l b = some h ∧
        hitBetter r.tmin r.tmax r.bestT r.best h = true) :=
  ⟨⟨walking (testing 0 0x3F800000 1) [], 0, testing 0 0x3F800000 1, triLeaf 1, triBytes 1, none,
  ⟨ok, ok, ⟨ok, ok⟩, ⟨ok, ok, ok, ok⟩, .inl (ok), ⟨ok, ok, ok, ok, ok⟩, ok, ok⟩, .inr (ok), .inr ⟨triHit, ok, ok⟩⟩,
   ⟨walking (testing 0 0x40000001 1) [], 0, testing 0 0x40000001 1, triLeaf 1, triBytes 1, none, triHit,
  ⟨ok, ok, ⟨ok, ok⟩, ⟨ok, ok, ok, ok⟩, .inl (ok), ⟨ok, ok, ok, ok, ok⟩, ok, ok⟩, .inr (ok), ok, ok, ok, .inl (ok)⟩,
   ⟨walking (testing 1 0x40000001 1) [], 0, testing 1 0x40000001 1, triLeaf 1, triBytes 1, none, triHit, travDisp [],
  ⟨ok, ok, ⟨ok, ok⟩, ⟨ok, ok, ok, ok⟩, .inl (ok), ⟨ok, ok, ok, ok, ok⟩, ok, ok⟩, ok, ok, ok, .inl (ok), ok, ok, ok, ⟨⟨ok, ok⟩, ok, ⟨ok, ok⟩⟩,
    ⟨stageOf 3 0 255, ok, ok, ok⟩⟩,
   ⟨withAnyhit (walking (testing 0 0x40000001 0) []), 0, testing 0 0x40000001 0, triLeaf 0, triBytes 0, none, triHit,
  ⟨ok, ok, ⟨ok, ok⟩, ⟨ok, ok, ok, ok⟩, .inl (ok), ⟨ok, ok, ok, ok, ok⟩, ok, ok⟩, ok, ⟨stageOf 3 0 255, ok, ok⟩, ok, ok⟩⟩

theorem wit_CalloutResults_a :
    (∃ (s : State) (tc : Fin 32) (r : Ray) (c : Callout) (g : Stage) (lc : Nat), Posts s tc r c g lc) ∧
    (∃ (s : State) (tc : Fin 32) (r : Ray) (c : Callout) (t u v : Nat), Replied s tc r c 0 t u v false ∧
      (c.kind = 1 ∨ [t, u, v].any (isNan fp32) = false) ∧ (r.stack ≠ [] ∨ r.leaf ≠ none)) ∧
    (∃ (s : State) (tc : Fin 32) (r : Ray) (c : Callout) (t u v : Nat), Replied s tc r c 1 t u v false ∧ c.kind = 1 ∧ r.flags.testBit 0 = false ∧
      (r.stack ≠ [] ∨ r.leaf ≠ none)) ∧
    (∃ (s : State) (tc : Fin 32) (r : Ray) (c : Callout) (t u v : Nat), Replied s tc r c 1 t u v false ∧ c.kind ≠ 1 ∧
      [t, u, v].any (isNan fp32) = false ∧ r.flags.testBit 0 = false ∧ (r.stack ≠ [] ∨ r.leaf ≠ none)) :=
  ⟨⟨walking { aRay with started := true, call := some (aCall 1 none) } [], 0, { aRay with started := true, call := some (aCall 1 none) }, aCall 1 none,
  stageOf 3 0 255, 0, ⟨ok, ok, ⟨ok, ok⟩, ⟨ok, ok⟩, .inr ⟨ok, ok, ok, ok⟩, ok, ⟨ok, ok, ok⟩,
  fun o h n _ => .inr ⟨by have h' : o / 2 = 0 := h; omega, rfl⟩⟩⟩,
   ⟨walking (waiting 1 0) [], 0, waiting 1 0, aCall 1 (some (0, 0x40000000, 0, 0)), 0x40000000, 0, 0,
  ⟨ok, ok, ⟨ok, ok, ok, ok⟩, ⟨ok, ok, ok, ok⟩⟩, .inl (ok), .inl (ok)⟩,
   ⟨walking (waiting 1 1) [], 0, waiting 1 1, aCall 1 (some (1, 0x40000000, 0, 0)), 0x40000000, 0, 0,
  ⟨ok, ok, ⟨ok, ok, ok, ok⟩, ⟨ok, ok, ok, ok⟩⟩, ok, ok, .inl (ok)⟩,
   ⟨walking (waiting 2 1) [], 0, waiting 2 1, aCall 2 (some (1, 0x40000000, 0, 0)), 0x40000000, 0, 0,
  ⟨ok, ok, ⟨ok, ok, ok, ok⟩, ⟨ok, ok, ok, ok⟩⟩, ok, ok, ok, .inl (ok)⟩⟩

theorem wit_CalloutResults_b :
    (∃ (s : State) (tc : Fin 32) (r : Ray) (c : Callout) (d : Dispatch) (t u v : Nat), Replied s tc r c 2 t u v false ∧ c.kind = 1 ∧ LastOut s r d ∧
      FinalStage s r) ∧
    (∃ (s : State) (tc : Fin 32) (r : Ray) (c : Callout) (d : Dispatch) (code t u v : Nat), Replied s tc r c code t u v false ∧
      (3 ≤ code ∨ (c.kind ≠ 1 ∧ [t, u, v].any (isNan fp32) = true)) ∧ LastOut s r d) ∧
    (∃ (s : State) (tc : Fin 32) (r : Ray) (c : Callout) (d : Dispatch) (code t u v : Nat), Replied s tc r c code t u v true ∧ LastOut s r d) :=
  ⟨⟨walking (waiting 1 2) [], 0, waiting 1 2, aCall 1 (some (2, 0x40000000, 0, 0)), travDisp [], 0x40000000, 0, 0,
  ⟨ok, ok, ⟨ok, ok, ok, ok⟩, ⟨ok, ok, ok, ok⟩⟩, ok, ⟨⟨ok, ok⟩, ok, ⟨ok, ok⟩⟩, ⟨stageOf 3 0 255, ok, ok, ok⟩⟩,
   ⟨walking (waiting 1 3) [], 0, waiting 1 3, aCall 1 (some (3, 0x40000000, 0, 0)), travDisp [], 3, 0x40000000, 0, 0,
  ⟨ok, ok, ⟨ok, ok, ok, ok⟩, ⟨ok, ok, ok, ok⟩⟩, .inl (ok), ⟨⟨ok, ok⟩, ok, ⟨ok, ok⟩⟩⟩,
   ⟨walking (callFault 0x41) [], 0, callFault 0x41, { aCall 1 (some (0x41, 0, 0, 0)) with fault := true }, travDisp [], 0x41, 0, 0, 0, ⟨ok, ok, ⟨ok,
     ok, ok, ok⟩, ⟨ok, ok, ok, ok⟩⟩,
  ⟨⟨ok, ok⟩, ok, ⟨ok, ok⟩⟩⟩⟩

/-- A descriptor of a neural height field in the unit cube, with one layer of one output. -/
def neuralBytes : List Byte :=
  block 64 [(2, 1, 1), (3, 1, 1), (4, 1, 1), (0x10, 8, 0x70000), (0x24, 4, 0x3F800000), (0x28, 4, 0x3F800000), (0x2C, 4, 0x3F800000)]

/-- A ray that comes down from z = 2 and has two samples in it, from z = 1 to z = -1. -/
def falling : Ray :=
  { sampling with rcd := block 64 [(8, 4, 0x40000000), (24, 4, 0xBF800000), (28, 4, 0x42C80000), (0x22, 1, 255)],
                  neural := some { aNeural with n := 2, t0 := 0x3F800000, t1 := 0x40400000, left := 2 },
                  leaf := some { triLeaf 0 with entry := entryOf 4 0, bytes := neuralBytes } }

/-- The engine with that ray, whose stage names REFINE program 0, and its two samples in a closed batch. -/
def fallingIn : State :=
  { walking falling [] with
    active := some { imageWith travChain with
      travs := [{ maxDepth := 8, samples := 0, anyhit := 0xFFFF, isect := 0xFFFF, refine := 0, arrayBatch := 0 }] },
    nbatches := [aBatch true 0 [⟨0, 0⟩, ⟨0, 1⟩]] }

/-- The engine with the ray `r` and one of its samples in a closed batch. -/
def sampled (r : Ray) : State := { walking r [] with nbatches := [aBatch true 0 [⟨0, 0⟩]] }

/-- The weights of a batch are reached. -/
theorem weights_reached {s : State} {tg : Fin 8} {b : NBatch} {l : Leaf}
    (h : s.reaches (.neural tg b.id) b.weights (weightBytes l.bytes) false = true := by decide +kernel) : WeightsReached s tg b l := h

/-- The ray that waits for two samples. -/
def waitsTwo : Ray := { sampling with neural := some { aNeural with n := 2, left := 2 } }

/-- The leaf of those rays. -/
def neuralLeaf : Leaf := { triLeaf 0 with entry := entryOf 4 0 }

theorem wit_NeuralBatchResults :
    (∃ (s : State) (tg : Fin 8) (b : NBatch), s.nbatches.find? (fun x => x.id == b.id && x.tg == tg.val && !x.closed) = some b) ∧
    (∃ (s : State) (tg : Fin 8) (b : NBatch) (r : Ray) (n : Neural) (l : Leaf), Evaluates s tg b r n l ∧ WeightsReached s tg b l ∧ b.samples.length < n.left) ∧
    (∃ (s : State) (tg : Fin 8) (b : NBatch) (r : Ray) (n : Neural) (l : Leaf), Evaluates s tg b r n l ∧ WeightsReached s tg b l ∧
      n.left ≤ b.samples.length ∧ n.refining = false ∧ r.stack ≠ [] ∧ bracketOf (fieldValues s r n l) = none) ∧
    (∃ (s : State) (tg : Fin 8) (b : NBatch) (r : Ray) (n : Neural) (l : Leaf) (g : Stage) (lo hi gl gh : Nat), Evaluates s tg b r n l ∧
      WeightsReached s tg b l ∧ n.left ≤ b.samples.length ∧ n.refining = false ∧ bracketOf (fieldValues s r n l) = some (lo, hi, gl, gh) ∧
        s.rayStage r = some g ∧ (s.travOf g).refine ≠ 0xFFFF) ∧
    (∃ (s : State) (tg : Fin 8) (b : NBatch) (r : Ray) (n : Neural) (l : Leaf) (d : Dispatch) (o : ReadOutcome), Evaluates s tg b r n l ∧ o ≠ .ok ∧
      (o = .unc → WeightsReached s tg b l) ∧ r.query = false ∧ LastOut s r d) :=
  ⟨⟨{ base with nbatches := [aBatch false 99 []] }, 0, aBatch false 99 [], ok⟩,
   ⟨sampled waitsTwo, 0, aBatch true 0 [⟨0, 0⟩], waitsTwo, { aNeural with n := 2, left := 2 }, neuralLeaf, ⟨ok, ok, ⟨ok, ok⟩, ⟨ok, ok, ok, ok⟩,
     .inr (ok), ok, ok⟩, weights_reached, ok⟩,
   ⟨sampled sampling, 0, aBatch true 0 [⟨0, 0⟩], sampling, aNeural, neuralLeaf, ⟨ok, ok, ⟨ok, ok⟩, ⟨ok, ok, ok, ok⟩, .inr (ok), ok, ok⟩,
     weights_reached, ok, ok, ok, rfl⟩,
   ⟨fallingIn, 0, aBatch true 0 [⟨0, 0⟩, ⟨0, 1⟩], falling, { aNeural with n := 2, t0 := 0x3F800000, t1 := 0x40400000, left := 2 },
  { neuralLeaf with bytes := neuralBytes }, stageOf 3 0 255, 0x3F800000, 0x40400000, 0x3F800000, 0xC0400000, ⟨ok, ok, ⟨ok, ok⟩, ⟨ok, ok, ok, ok⟩,
    .inr (ok), ok, ok⟩, weights_reached, ok, ok, ok, ok, ok⟩,
   ⟨sampled sampling, 0, aBatch true 0 [⟨0, 0⟩], sampling, aNeural, neuralLeaf, travDisp [], .abort, ⟨ok, ok, ⟨ok, ok⟩, ⟨ok, ok, ok, ok⟩, .inr (ok),
     ok, ok⟩, ok, fun h => (nomatch h), ok, ⟨⟨ok, ok⟩, ok, ⟨ok, ok⟩⟩⟩⟩

/-- The engine with a record to return whose Shared Field line is poisoned. -/
def lostRecord : State := { returning ordChain 2 (List.replicate 4 []) with sfPoison := [16, 1024] }

theorem wit_HitReleaseResult :
    (∃ (s : State) (id k : Nat) (d : Dispatch) (c : Chain) (g : Stage) (e : QEntry) (ch : Nat), Returning s id k d c g e ∧ (¬Ordered c g.input) ∧
      RecordSound s d g.input e ∧ Freest s ch) ∧
    (∃ (s : State) (id k : Nat) (d : Dispatch) (c : Chain) (g : Stage) (e : QEntry), Returning s id k d c g e ∧ (¬Ordered c g.input) ∧
      (∀ ch, ch < 4 → 128 ≤ (s.hrBuffer ch).length)) ∧
    (∃ (s : State) (id k : Nat) (d : Dispatch) (c : Chain) (g : Stage) (e : QEntry), Returning s id k d c g e ∧ Ordered c g.input ∧ RecordSound s d g.input e) ∧
    (∃ (s : State) (id k : Nat) (d : Dispatch) (c : Chain) (g : Stage) (e : QEntry), Returning s id k d c g e ∧ e.ended = false ∧
      (Ordered c g.input ∨ ∃ ch, Freest s ch) ∧ (¬RecordSound s d g.input e)) :=
  ⟨⟨returning retChain 1 (List.replicate 4 []), 0, 1, retDisp 1, retChain, stageOf 8 0 255, entry0, 0, ⟨ok, ok, ok, ⟨ok, ok⟩, ok, ok, only_disp⟩,
    fun h => absurd h.1 (ok),
  fun _ _ => List.not_mem_nil, ⟨ok, ok, ok⟩⟩,
   ⟨returning retChain 1 (List.replicate 4 (List.replicate 128 slotHit)), 0, 1, retDisp 1, retChain, stageOf 8 0 255, entry0,
  ⟨ok, ok, ok, ⟨ok, ok⟩, ok, ok, only_disp⟩, fun h => absurd h.1 (ok), ok⟩,
   ⟨returning ordChain 2 (List.replicate 4 []), 0, 2, retDisp 2, ordChain, stageOf 8 1 255, entry0,
  ⟨ok, ok, ok, ⟨ok, ok⟩, ok, ok, only_disp⟩, ⟨ok, ok, ok⟩, fun _ _ => List.not_mem_nil⟩,
   ⟨lostRecord, 0, 2, retDisp 2, ordChain, stageOf 8 1 255, entry0, ⟨ok, ok, ok, ⟨ok, ok⟩, ok, ok, only_disp⟩, ok, .inl ⟨ok, ok, ok⟩,
     fun h => absurd h (by unfold RecordSound; decide +kernel)⟩⟩

theorem wit_OrderHoldResult :
    (∃ (s : State) (id n : Nat) (ch : Fin 4) (h : HoldRec), s.canonical = true ∧ (s.disp id).isSome = true ∧ s.inService .hrp = true ∧
      (s.hrBuffer ch.val).length < 128 ∧ h ∈ s.hold ∧ h.disp = id ∧ h.hit.key % 4 = ch.val ∧ MayLeave s h ∧ h.intake = some n ∧
        (∀ x ∈ s.hold, x.disp = id → x.hit.key % 4 = ch.val → MayLeave s x → x ≠ h → ∃ m, x.intake = some m ∧ n < m)) ∧
    (∃ (s t : State) (id : Nat) (ch : Fin 4), exec (.orderHoldRelease id ch) s = .next t ∧ (∀ h ∈ s.hold, h ∉ t.hold)) :=
  ⟨⟨holding, 0, 5, 3, held5, ok, ok, ok, ok, ok, ok, ok, fun _ _ => .inr fun _ h => absurd h List.not_mem_nil, ok,
  fun x h _ _ _ n => absurd (List.mem_singleton.1 h) n⟩,
   ⟨holding, _, 0, 3, rfl, ok⟩⟩

theorem wit_HitTransferAndCredits :
    (∃ (s : State) (ch : Fin 4) (x : HitSlot) (rest : List HitSlot), s.canonical = true ∧ s.hrBuffer ch.val = x :: rest ∧ s.inService .hrp = true ∧
      s.get (hrCredit ch.val) ≠ 0) ∧
    (∃ (s : State) (ch : Fin 4), s.get (hrCredit ch.val) = 0) ∧
    (∃ (s : State) (ch : Fin 4), s.canonical = true) :=
  ⟨⟨{ withRegs [(hrCredit 3, 1)] with hrBuf := List.replicate 4 [slotHit] }, 3, slotHit, [], ok, ok, ok, ok⟩,
   ⟨base, 3, ok⟩,
   ⟨base, 3, ok⟩⟩

/-- The chain of a GENERATE, a QUERY and a MATMUL stage over queues of tiles. -/
def qryChain : Chain :=
  { chainWith [stageOf 1 255 0, stageOf 4 0 1, stageOf 5 1 255] 2 with
    queues := (List.range 2).map (fun i => { region := 0, entrySize := 3, offset := 65536 * i, capacity := 1 }) }

/-- The chain of a GENERATE stage and a QUERY stage with no output queue. -/
def lastChain : Chain := chainWith [stageOf 1 255 0, stageOf 4 0 255] 1

/-- A dispatch of it with a key-set descriptor of 16 keys at 0x3000, or none yet. -/
def qryDisp (n : Nat) (desc : Option (List Byte)) (l : List QEntry) : Dispatch :=
  { dispOf (rcdOf 1) n with param := block 64 [(0, 8, 0x3000), (8, 8, 0x40000), (16, 8, 0x50000), (24, 8, 0x60000)], ksAddr := some 0x3000,
                            ksDesc := desc, queues := List.replicate n { entries := l, appended := l.length } }

/-- Its descriptor of 16 keys. -/
def keyDesc : List Byte := block 64 [(0, 2, 2), (2, 1, 3), (4, 4, 1), (24, 4, 16), (28, 2, 256)]

/-- A BALL query of NEAREST 4 about the origin with radius 2. -/
def aQuery : Ray :=
  { aRay with query := true, rcd := block 64 [(0, 1, 3), (1, 1, 1), (3, 1, 4), (4, 4, 99), (0x30, 4, 0x40800000)], started := true }

/-- The engine with that query. -/
def querying (q : Ray) (b : List Byte) : State :=
  { walking q b with active := some (imageWith lastChain), disps := [qryDisp 1 (some keyDesc) []] }

/-- A key node whose child 0 is a key block at offset 4 with the box from 0 to 2. -/
def keyNode : List Byte := block 256 [(0x10, 4, 0x7F7F7F), (0x60, 8, 1), (0x68, 8, 1), (0x70, 8, 1), (0xA0, 8, 2 ^ 62 + 2 ^ 31 * 4)]

/-- Its entry. -/
def keyEntries : List SEntry := [{ entryOf 2 0 with offset := 4, raw := false }]

/-- A key block of one key, of index 15, at the origin. -/
def keyBlock : List Byte := block 256 [(0, 1, 1), (0x10, 4, 15)]

/-- The leaf of a key block. -/
def keyLeaf : Leaf := { entry := entryOf 2 0, blk := 0, idx := 0, bytes := [], seq := 0 }

/-- An ended query of a gather block with one candidate. -/
def gathered : GQuery :=
  { ray := 0, item := 0, qid := 99, qvec := 0x80000, k := 4, status := 0, kind := 0, index := 0, total := 1, truncated := false, cands := [15], cause := 0,
    list := [] }

/-- A gather block of that query. -/
def gblock (closed : Bool) : GBlock :=
  { id := 6, disp := 0, stage := 1, full := closed, closed := closed, queries := [gathered], scored := false, done := 0, lost := [],
    quad := if closed then some 0 else none }

/-- The engine with that block, open or closed, and the entry of its tile. -/
def gathering (closed : Bool) (l : List QEntry) : State :=
  let im : Image := { imageWith qryChain with qrys := [{ dims := 3, kMax := 8, output := 1, candMax := 8, scoreDim := 128 }] }
  { base with active := some im, disps := [qryDisp 2 (some keyDesc) l], gblocks := [gblock closed] }

/-- The entry of that block's tile. -/
def tileEntry : QEntry := { entry0 with flags := 6 }

theorem wit_QueryStepResults :
    (∃ (s : State) (tc : Fin 32) (p : Fin 4) (r : Ray) (g : Stage) (e : SEntry) (rest l : List SEntry) (b : List Byte), let slot := (s.slotOf r).1;
      let size := (s.slotOf r).2; QSteps s tc p r g ∧ r.started = true ∧ r.leaf = none ∧ r.stack = e :: rest ∧
        (r.ball = true → ltF fp32 (r.bound (keeps s g r)) e.te = false) ∧ e.bad = 0 ∧ e.treelet = r.treelet ∧ e.typ ≠ 2 ∧ e.offset % 4 = 0 ∧
          e.offset * 64 + 256 ≤ size ∧ s.tsBad tc.val slot (e.offset * 64) 256 = false ∧
            ((s.resume r tc.val).2.ncRead tc.val p.val slot (e.offset * 64) 256).1 = some b ∧
              keyChildren { r with stack := rest } b (r.bound (keeps s g r)) = .ok l ∧ l ++ rest ≠ [] ∧ l.length + rest.length ≤ 136 ∧
                QLinesAtHand s r { r with stack := l ++ rest } tc.val p) ∧
    (∃ (s : State) (tc : Fin 32) (p : Fin 4) (r q : Ray) (g : Stage) (l : Leaf) (b : List Byte), let slot := (s.slotOf r).1;
      let size := (s.slotOf r).2; let off := l.entry.offset * 64 + 256 * l.blk; QSteps s tc p r g ∧ r.started = true ∧ r.leaf = some l ∧
        off + 256 ≤ size ∧ s.tsBad tc.val slot off 256 = false ∧ ((s.resume r tc.val).2.ncRead tc.val 4 slot off 256).1 = some b ∧ 1 ≤ recByte b 0 ∧
          recByte b 0 ≤ 12 ∧ keyTests r (keeps s g r) (leVal (((s.descOf r).2.drop 24).take 4)) b 0 (recByte b 0) = some q ∧
            (l.blk < l.entry.count ∨ r.stack ≠ []) ∧ QLinesAtHand s r { q with leaf := if l.blk < l.entry.count then some { l with blk :=
              l.blk + 1 } else none } tc.val p) ∧
    (∃ (s : State) (tc : Fin 32) (p : Fin 4) (r : Ray) (g : Stage) (d : Dispatch) (l : Leaf) (b : List Byte), let (slot, size) := s.slotOf r;
      let off := l.entry.offset * 64 + 256 * l.blk; QSteps s tc p r g ∧ r.started = true ∧ r.leaf = some l ∧ off + 256 ≤ size ∧
        s.tsBad tc.val slot off 256 = false ∧ ((s.resume r tc.val).2.ncRead tc.val 4 slot off 256).1 = some b ∧
          (recByte b 0 = 0 ∨ 12 < recByte b 0) ∧ LastOut s r d ∧ (s.qryOf g).output ≠ 1) ∧
    (∃ (s : State) (tc : Fin 32) (p : Fin 4) (r : Ray) (g : Stage) (d : Dispatch), QSteps s tc p r g ∧ r.started = true ∧ r.leaf = none ∧
      r.stack = [] ∧ LastOut s r d ∧ FinalStage s r ∧ (s.qryOf g).output ≠ 1 ∧ r.list.length < 64) ∧
    (∃ (near : Bool) (n : Nat) (e : Nat × Nat) (l : List (Nat × Nat)), (∀ x ∈ e :: l, isNan fp32 x.2 = false) ∧
      l.Pairwise (fun x y => listBefore near y x = false)) :=
  ⟨⟨querying { aQuery with stack := [entryOf 1 0] } keyNode, 0, 0, { aQuery with stack := [entryOf 1 0] }, stageOf 4 0 255, entryOf 1 0, [], keyEntries,
  keyNode, ⟨ok, ok, ok, ok, ok, ok⟩, ok, ok, ok, ok, ok, ok, ok, ok, ok, ok, ok, rfl, ok, ok, (by unfold QLinesAtHand; decide +kernel)⟩,
   ⟨querying { aQuery with leaf := some keyLeaf, stack := [entryOf 1 0] } keyBlock, 0, 0, { aQuery with leaf := some keyLeaf, stack := [entryOf 1 0] },
  { aQuery with leaf := some keyLeaf, stack := [entryOf 1 0], list := [(15, 0)], total := 1 }, stageOf 4 0 255, keyLeaf, keyBlock,
  ⟨ok, ok, ok, ok, ok, ok⟩, ok, ok, ok, ok, ok, ok, ok, ok, .inr (ok), (by unfold QLinesAtHand; decide +kernel)⟩,
   ⟨querying { aQuery with leaf := some keyLeaf } (block 256 [(0, 1, 13)]), 0, 0, { aQuery with leaf := some keyLeaf }, stageOf 4 0 255,
  qryDisp 1 (some keyDesc) [], keyLeaf, block 256 [(0, 1, 13)], ⟨ok, ok, ok, ok, ok, ok⟩, ok, ok, ok, ok, ok, .inr (ok), ⟨⟨ok, ok⟩, ok, ⟨ok, ok⟩⟩, ok⟩,
   ⟨querying { aQuery with list := [(15, 0)], total := 1 } [], 0, 0, { aQuery with list := [(15, 0)], total := 1 }, stageOf 4 0 255,
  qryDisp 1 (some keyDesc) [], ⟨ok, ok, ok, ok, ok, ok⟩, ok, ok, ok, ⟨⟨ok, ok⟩, ok, ⟨ok, ok⟩⟩, ⟨stageOf 4 0 255, ok, ok, ok⟩, ok, ok⟩,
   ⟨true, 4, (3, 0x40000000), [(1, 0), (9, 0x40000000)], ok, ok⟩⟩

theorem wit_QueryBlocks :
    (∃ (s : State) (id a : Nat) (d : Dispatch), s.disp id = some d ∧ d.ksAddr = some a ∧ d.ksDesc = none ∧ d.ksFail = 0 ∧
      (∀ w ∈ s.fwaits, w.acc ≠ .keyset id) ∧ s.reaches (.keyset id) a 64 false = true) ∧
    (∃ (s : State) (id a : Nat) (d : Dispatch) (o : ReadOutcome), s.disp id = some d ∧ d.ksAddr = some a ∧ d.ksDesc = none ∧ d.ksFail = 0 ∧
      (∀ w ∈ s.fwaits, w.acc ≠ .keyset id) ∧ o ≠ .ok ∧ (o = .unc → s.reaches (.keyset id) a 64 false = true)) ∧
    (∃ (s : State) (id : Nat) (b : GBlock) (d : Dispatch) (g : Stage) (r : QueueRec), OpenBlock s id b d g r ∧ (d.hq g.out0).entries.length < r.capacity) ∧
    (∃ (s : State) (id : Nat) (b : GBlock) (d : Dispatch) (g : Stage) (r : QueueRec), OpenBlock s id b d g r ∧ r.capacity ≤ (d.hq g.out0).entries.length) ∧
    (∃ (s : State) (id k : Nat) (d : Dispatch) (b : GBlock) (src g : Stage) (c : Chain) (e : QEntry) (quad : Fin 8) (l : List GQuery) (q : GQuery),
      Scores s id k d b src g c e quad l q) :=
  ⟨⟨{ base with disps := [qryDisp 1 none []] }, 0, 0x3000, qryDisp 1 none [], ok, ok, ok, ok, ok, ok⟩,
   ⟨{ base with disps := [qryDisp 1 none []] }, 0, 0x3000, qryDisp 1 none [], .abort, ok, ok, ok, ok, ok, ok, fun h => (nomatch h)⟩,
   ⟨gathering false [], 0, gblock false, qryDisp 2 (some keyDesc) [], stageOf 4 0 1, { region := 0, entrySize := 3, offset := 65536, capacity := 1 },
  ⟨ok, ok, ok, ok, ok, ⟨ok, ok, ok, ok⟩⟩, ok⟩,
   ⟨gathering false [entry0], 0, gblock false, qryDisp 2 (some keyDesc) [entry0], stageOf 4 0 1,
  { region := 0, entrySize := 3, offset := 65536, capacity := 1 }, ⟨ok, ok, ok, ok, ok, ⟨ok, ok, ok, ok⟩⟩, ok⟩,
   ⟨gathering true [tileEntry], 0, 2, qryDisp 2 (some keyDesc) [tileEntry], gblock true, stageOf 4 0 1, stageOf 5 1 255, qryChain, tileEntry, 0, [],
  gathered, ⟨ok, ok, ok, ok, ok, ok, ⟨ok, ok⟩, ok, ⟨ok, ok, ok⟩, ⟨ok, ok⟩, ok, ⟨ok, ok⟩, ⟨ok, ok, ok⟩, ok, ⟨ok, ok, ok, ok⟩, ok⟩⟩⟩

/-- The image of a GENERATE and a MATMUL stage over a queue of tiles, with a model of two layers at 0x9000 and an activation region. -/
def mxChain : Chain :=
  { chainWith [stageOf 1 255 0, stageOf 5 0 255] 1 with queues := [{ region := 0, entrySize := 3, offset := 0, capacity := 1 }] }

/-- Its image. -/
def mxImage : Image :=
  let im := imageWith mxChain
  { im with wrefs := [{ layerCount := 2, tileCount := 2, layerTable := 0x9000 }],
            part := { im.part with regions := im.part.regions ++ [{ kind := 4, zero := false, start := 2, size := 1 }] } }

/-- The layer table: format 1, two layers of INT8 with K = N = 256, one tile each. -/
def mxMem : List Host.Cell :=
  let layer := fun (t : Nat) => block 64 [(0, 4, 256), (4, 2, 256), (6, 2, 1), (16, 4, t), (20, 4, 1), (32, 8, 0x9800)]
  putBytes [] 0x9000 (block 64 [(0, 2, 1), (2, 2, 2), (4, 2, 1), (6, 1, 2), (12, 4, 1024)] ++ layer 0xC0 ++ layer 0xD0 ++
    block 32 [(0, 8, 0x20000), (16, 8, 0x30000)])

/-- A dispatch of it with one tile of one vector. -/
def mxDisp (l : List QEntry) : Dispatch := { dispOf (rcdOf 1) 1 with queues := [{ entries := l, appended := 1 }] }

/-- The engine with that dispatch. -/
def mx : State :=
  let s : State := { base with active := some mxImage, disps := [mxDisp [entry0]], mem := mxMem }
  { s with sf := putBytes [] (s.entryAddr (mxDisp [entry0]) 0 0) (block 64 [(4, 2, 1), (8, 4, 256), (0x0C, 4, 256)]) }

/-- A batch of one vector in array 0 that runs layer `l`, with what has been added for it and the outputs given. -/
def aMat (layer : Nat) (slices : List (Nat × Nat)) (outs : List (Nat × List (List Nat))) : MBatch :=
  { id := 0, disp := 0, stage := 1, arr := 0, model := 0, area := 0, layer := layer, input := none, vecs := [{ item := 0, dead := false, bytes := [] }],
    acc := [], slices := slices, outs := outs, emitted := none }

/-- The engine that runs it, with its first quadrant as given. -/
def running (b : MBatch) (q : Quad) : State := { mx with mbatches := [b], nextMb := 1, quads := q :: mx.quads.drop 1 }

/-- A loaded half. -/
def aHalf : HalfW := { query := false, next := none, batch := 0, layer := 0, kslice := 0, nblk := 1, data := [], attr := [] }

/-- Layer 0 as the model reads it. -/
def layer0 : Layer := readLayer mxMem 0x9000 0

/-- Layer 1 as the model reads it. -/
def layer1 : Layer := readLayer mxMem 0x9000 1

/-- The batch at its start, with one quadrant tile of N-block 0 in the active half. -/
def startOf : State := running (aMat 0 [] []) { half0 := some { aHalf with nblk := 0 }, half1 := none, applied := false }

/-- Weight tile 0 of layer 0 as a streaming tile that has arrived. -/
def aStile : STile := { slot := 0, disp := 0, model := 0, layer := 0, tile := 0, cls := 1, arrived := true, attr := [] }

/-- The place of layer 0 in a half. -/
def aPlace : PlacedLayer := { model := 0, layer := 0, place := 0, tiles := 1 }

/-- The engine with layer 0 resident, or streamed in. -/
def resident : State := { startOf with active := some { mxImage with placeA := [aPlace] }, ws := [{ WStore.init with arrived := [0] }, WStore.init] }
def streamed : State := { startOf with ws := [{ WStore.init with tiles := [aStile] }, WStore.init] }

/-- An idle half that is empty holds no tile. -/
theorem no_half {P : HalfW → Prop} : ∀ w, (none : Option HalfW) = some w → P w := nofun

/-- An option that is not empty holds a value. -/
theorem some_of {α : Type} (o : Option α) (h : o.isSome = true) : ∃ a, o = some a := Option.isSome_iff_exists.1 h

/-- Layer 0 keeps every row, so that it has no masks. -/
theorem dense_ok (a : List Byte) : masksOk layer0 .c8 a = true := by
  unfold masksOk
  rw [show layer0.sparse = false from by decide +kernel]
  rfl

theorem wit_MatrixArrayResults_a :
    (∃ (s : State) (id k : Nat) (arr : Fin 2) (d : Dispatch) (c : Chain) (g : Stage) (im : Image) (e : QEntry) (vb stride : Nat),
      TileFits s id k arr.val d c g im e vb stride) ∧
    (∃ (s : State) (arr : Fin 2) (q : Fin 4) (kslice nblk : Nat) (b : MBatch) (l : Layer) (c : MxClass) (p : PlacedLayer) (data attr : List Byte),
      LoadsNext s arr q b l c kslice nblk ∧ s.placedLayer arr.val b.model b.layer = some p ∧
        s.residentData arr.val p l c kslice nblk = some (data, attr) ∧ masksOk l c attr = true) ∧
    (∃ (s : State) (arr : Fin 2) (q : Fin 4) (kslice nblk : Nat) (b : MBatch) (l : Layer) (c : MxClass) (y : STile) (data attr : List Byte),
      let i := (tileOf l c kslice nblk).1; let u := (tileOf l c kslice nblk).2; let n := attrBlock c l.wFmt l.sparse / 4;
        LoadsNext s arr q b l c kslice nblk ∧ s.placedLayer arr.val b.model b.layer = none ∧ arrivedTile s arr b i = some y ∧
          data = bytesAt ((s.ws[arr.val]?).getD WStore.init).bytes ((252 + y.slot) * 65536 + u * quadBytes c) (quadBytes c) ∧
            attr = (y.attr.drop (u * n)).take n ∧ masksOk l c attr = true) ∧
    (∃ (s : State) (arr : Fin 2) (q : Fin 4) (kslice nblk : Nat) (b : MBatch) (l : Layer) (c : MxClass) (data attr : List Byte),
      let i := (tileOf l c kslice nblk).1; let u := (tileOf l c kslice nblk).2; let n := attrBlock c l.wFmt l.sparse;
        LoadsNext s arr q b l c kslice nblk ∧ FetchesTile s arr b l c i ∧
          data = bytesAt s.mem ((s.tileHome b l i).1 + u * quadBytes c) (quadBytes c) ∧
            attr = ((bytesAt s.mem (s.tileHome b l i).2 n).drop (u * (n / 4))).take (n / 4) ∧ masksOk l c attr = true) :=
  ⟨⟨mx, 0, 1, 0, mxDisp [entry0], mxChain, stageOf 5 0 255, mxImage, entry0, 1, 256,
  ⟨ok, ⟨ok, ok, ok⟩, ok, ⟨ok, ok⟩, ⟨ok, _, rfl, ok⟩, ⟨ok, ok, ok, ok⟩, ⟨ok, ok⟩, ⟨ok, ok, ok, ok, ok, ok⟩, ok, ⟨ok, ok⟩, only_disp, ok, ok, ⟨ok, ok,
    ok, ok, ok, ok, ok, ok⟩⟩⟩,
   (some_of (resident.residentData 0 aPlace layer0 .c8 0 1) (ok)).elim fun x h =>
  ⟨resident, 0, 0, 0, 1, aMat 0 [] [], layer0, .c8, aPlace, x.1, x.2, ⟨⟨ok, ok, ok, ok, ok⟩, ⟨ok, ok⟩, ⟨ok, ok⟩, ok, .inr ⟨_, rfl, ok⟩, no_half, ok,
    ⟨ok, ok⟩⟩, ok, h, dense_ok _⟩,
   ⟨streamed, 0, 0, 0, 1, aMat 0 [] [], layer0, .c8, aStile, _, _, ⟨⟨ok, ok, ok, ok, ok⟩, ⟨ok, ok⟩, ⟨ok, ok⟩, ok, .inr ⟨_, rfl, ok⟩, no_half, ok,
     ⟨ok, ok⟩⟩, ok, ok, rfl, rfl, ok⟩,
   ⟨startOf, 0, 0, 0, 1, aMat 0 [] [], layer0, .c8, _, _, ⟨⟨ok, ok, ok, ok, ok⟩, ⟨ok, ok⟩, ⟨ok, ok⟩, ok, .inr ⟨_, rfl, ok⟩, no_half, ok, ⟨ok, ok⟩⟩,
     ⟨ok, ok, ⟨_, rfl, ok⟩, ok, ok, ok, ok⟩, rfl, rfl, ok⟩⟩

theorem wit_MatrixArrayResults_b :
    (∃ (s : State) (arr : Fin 2) (q : Fin 4) (kslice nblk : Nat) (b : MBatch) (l : Layer) (c : MxClass), let i := (tileOf l c kslice nblk).1;
      LoadsNext s arr q b l c kslice nblk ∧ s.placedLayer arr.val b.model b.layer = none ∧ arrivedTile s arr b i = none ∧
        (∃ d, s.disp b.disp = some d ∧ d.deadTreelets = [])) ∧
    (∃ (s : State) (arr : Fin 2) (q : Fin 4) (b : MBatch) (w : HalfW), let x := s.quad arr.val q.val; let act := s.activeHalf arr.val q.val;
      s.canonical = true ∧ s.batchOn arr.val q.val = some b ∧ x.half (!act) = some w ∧ w.query = false ∧ w.next = none ∧ w.batch = b.id ∧
        (∀ v, x.half act = some v → v.batch = b.id → v.next = none → s.halfNeeded v = false)) ∧
    (∃ (s : State) (arr : Fin 2) (q : Fin 4) (first count : Nat) (b : MBatch) (l : Layer) (c : MxClass) (w : HalfW),
      let run := b.live.filter (fun v => first ≤ v && v < first + count); WorksFor s arr q b l c ∧
        (s.quad arr.val q.val).half (s.activeHalf arr.val q.val) = some w ∧ w.query = false ∧ w.next = none ∧ w.batch = b.id ∧ w.layer = b.layer ∧
          (b.input = none ∨ s.sfPoison = []) ∧ count ≤ (match c with | .c16 => 1024 | _ => 2048) ∧ run ≠ [] ∧
            (∀ v ∈ run, b.added w.nblk v = w.kslice) ∧ b.vecs.length ≤ 2048 ∧ swf (fun _ => 0) b.acc = true ∧ swf (fun _ => 0) b.slices = true) ∧
    (∃ (s : State) (arr : Fin 2) (nblk : Nat) (b : MBatch) (l : Layer) (d : Dispatch) (g : Stage), BlockReady s arr nblk b l d g ∧
      (∃ k, k < l.liveBlocks ∧ k ≠ nblk ∧ ∀ x ∈ b.outs, x.1 ≠ k)) :=
  ⟨⟨startOf, 0, 0, 0, 1, aMat 0 [] [], layer0, .c8, ⟨⟨ok, ok, ok, ok, ok⟩, ⟨ok, ok⟩, ⟨ok, ok⟩, ok, .inr ⟨_, rfl, ok⟩, no_half, ok, ⟨ok, ok⟩⟩, ok, ok,
    ⟨_, rfl, ok⟩⟩,
   ⟨running (aMat 0 [] []) { half0 := none, half1 := some aHalf, applied := true }, 0, 0, aMat 0 [] [], aHalf, ok, ok, ok, ok, ok, ok, no_half⟩,
   ⟨running (aMat 0 [] []) { half0 := some aHalf, half1 := none, applied := false }, 0, 0, 0, 2048, aMat 0 [] [], layer0, .c8, aHalf,
  ⟨ok, ok, ok, ok, ok⟩, ok, ok, ok, ok, ok, .inl (ok), ok, ok, ok, ok, ok, ok⟩,
   ⟨running (aMat 0 [(2048, 2)] []) Quad.init, 0, 1, aMat 0 [(2048, 2)] [], layer0, mxDisp [entry0], stageOf 5 0 255, ⟨ok, ⟨ok, ok, ok⟩, ok, ⟨ok, ok,
     ok⟩, ⟨ok, ok, ok⟩, ok, ⟨3, ok, ok⟩, ⟨ok, ok⟩, ⟨ok, ok⟩⟩, ⟨0, ok, ok, ok⟩⟩⟩

theorem wit_MatrixArrayResults_c :
    (∃ (s : State) (arr : Fin 2) (nblk : Nat) (b : MBatch) (l : Layer) (d : Dispatch) (g : Stage), BlockReady s arr nblk b l d g ∧
      (∀ k, k < l.liveBlocks → k ≠ nblk → ∃ x ∈ b.outs, x.1 = k) ∧ b.layer + 1 < s.batchLayers b ∧ (∀ r ∈ s.rays, r.loc ≠ .ended) ∧
        (∀ x ∈ s.gblocks, x.closed = true)) ∧
    (∃ (s : State) (arr : Fin 2) (nblk : Nat) (b : MBatch) (l : Layer) (d : Dispatch) (g : Stage), BlockReady s arr nblk b l d g ∧
      (∀ k, k < l.liveBlocks → k ≠ nblk → ∃ x ∈ b.outs, x.1 = k) ∧ s.batchLayers b ≤ b.layer + 1 ∧ g.out0 = 255) :=
  ⟨⟨running (aMat 0 [(2048, 2)] [(0, [])]) Quad.init, 0, 1, aMat 0 [(2048, 2)] [(0, [])], layer0, mxDisp [entry0], stageOf 5 0 255,
  ⟨ok, ⟨ok, ok, ok⟩, ok, ⟨ok, ok, ok⟩, ⟨ok, ok, ok⟩, ok, ⟨3, ok, ok⟩, ⟨ok, ok⟩, ⟨ok, ok⟩⟩, ok, ok, ok, ok⟩,
   ⟨running (aMat 1 [(2048, 2)] [(0, [])]) Quad.init, 0, 1, aMat 1 [(2048, 2)] [(0, [])], layer1, mxDisp [entry0], stageOf 5 0 255,
  ⟨ok, ⟨ok, ok, ok⟩, ok, ⟨ok, ok, ok⟩, ⟨ok, ok, ok⟩, ok, ⟨3, ok, ok⟩, ⟨ok, ok⟩, ⟨ok, ok⟩⟩, ok, ok, ok⟩⟩

/-- A stream descriptor of `n` elements of 64 bytes from memory at 0x20000 to the Shared Field. -/
def streamDesc (mode n : Nat) : List Byte :=
  block 64 [(0, 8, if mode = 0 then 0x20000 else 0), (8, 8, 0x20000), (16, 4, if mode = 0 then 64 else 0), (32, 4, 64), (48, 2, n - 1), (58, 1, 4), (59, 1, 6),
    (60, 1, mode), (62, 1, 16)]

/-- A run of it that the owner has armed. -/
def aRun (mode n : Nat) : Run := armedRun 1 (streamDesc mode n)

/-- A claim of that descriptor. -/
def aClaim : SSlot := .pending 1 1 0x7000 (streamDesc 0 1)

/-- The engine with the slots of stream engine 0. -/
def streaming (a b : SSlot) : State :=
  { work with mem := putBytes [] 0x7000 (streamDesc 0 1), ses := { StreamEng.init with active := a, shadow := b } :: List.replicate 15 StreamEng.init,
              active := some { img with strmAddr := 0x7000, part := mxImage.part }, disps := [dispOf (rcdOf 1) 0],
              tlbs := [firstPage, { page := 0x20, size := 0, pa := 0x99, readOk := true, writeOk := true, blocked := false }] :: work.tlbs.drop 1 }

/-- Stream engines with no run wait. -/
theorem others_idle (s : State) (h : ∀ i, i < 16 → i ≠ 0 → s.activeRun i = none) : OthersWait s 0 :=
  fun i a b r hr => by rw [h i a b] at hr; cases hr

/-- A read under way. -/
def aRead : Xfer := { first := 0, count := 1, phase := .reading }

/-- ARM on an engine out of service, with the active slot free, with the shadow slot free, and with none free. -/
theorem wit_ArmingResults_slots :
    (∃ s : State, s.inService (.se 15) = false) ∧
    (∃ s : State, s.inService (.se 0) = true ∧ (s.se 0).active = .free ∧ isClaim (s.se 0).shadow = false) ∧
    (∃ s : State, s.inService (.se 0) = true ∧ (s.se 0).active ≠ .free ∧ (s.se 0).shadow = .free) ∧
    ∃ s : State, s.inService (.se 0) = true ∧ ((s.se 0).active ≠ .free ∨ isClaim (s.se 0).shadow = true) ∧ (s.se 0).shadow ≠ .free :=
  ⟨⟨base.setFenced (.se 15) true, ok⟩, ⟨base, ok, ok, ok⟩, ⟨streaming (.run (aRun 0 1)) .free, ok, ok, ok⟩,
    ⟨streaming (.run (aRun 0 1)) aClaim, ok, .inl (ok), ok⟩⟩

theorem wit_ArmingResults_a :
    (∃ (s : State) (m : Master) (se : Fin 16) (v : Word), s.canonical = true ∧ Takes s m (0x3000C + 0x400 * se.val)) ∧
    (∃ (s : State) (m : Master) (se : Fin 16) (v : Word) (r : Run), Takes s m (0x3000C + 0x400 * se.val) ∧ s.activeRun se.val = some r ∧ Reading r ∧
      r.endWith = none ∧ OthersWait s se.val) ∧
    (∃ (s : State) (m : Master) (se : Fin 16) (v : Word), Takes s m (0x3000C + 0x400 * se.val) ∧
      (isClaim (s.se se.val).shadow = true ∨ ∃ r, (s.se se.val).shadow = .run r ∧ r.owner = .armed)) ∧
    (∃ (s : State) (se : Fin 16) (k c a : Nat) (b : List Byte), s.canonical = true ∧ (s.se se.val).active = .pending k c a b ∧
      (∀ w ∈ s.fwaits, w.acc ≠ .armDesc se) ∧ s.reaches (.armDesc se) a 64 false = true ∧ OthersWait s se.val ∧ (SDesc.ofBytes b).valid false = true) :=
  ⟨⟨base, 0, 15, 0x20, ok, ⟨⟨ok, ok, ok, ok, ok⟩, ok, ok, ok, ok⟩⟩,
   ⟨streaming (.run { aRun 0 1 with xfers := [aRead] }) .free, 0, 0, 0, { aRun 0 1 with xfers := [aRead] }, ⟨⟨ok, ok, ok, ok, ok⟩, ok, ok, ok, ok⟩,
     ok, ⟨ok, aRead, [], ok, ok⟩, ok, others_idle _ (ok)⟩,
   ⟨streaming (.run (aRun 0 1)) aClaim, 0, 0, 0, ⟨⟨ok, ok, ok, ok, ok⟩, ok, ok, ok, ok⟩, .inl (ok)⟩,
   ⟨streaming aClaim .free, 0, 1, 1, 0x7000, streamDesc 0 1, ok, ok, ok, ok, others_idle _ (ok), ok⟩⟩

theorem wit_ArmingResults_b :
    (∃ (s : State) (se : Fin 16) (k c a : Nat) (b : List Byte) (r : Run), s.canonical = true ∧ (s.se se.val).active = .run r ∧
      (s.se se.val).shadow = .pending k c a b ∧ (∀ w ∈ s.fwaits, w.acc ≠ .armDesc se) ∧ s.reaches (.armDesc se) a 64 false = true ∧
        (SDesc.ofBytes b).valid false = true) ∧
    (∃ (s : State) (se : Fin 16) (k c a : Nat) (b : List Byte) (o : ReadOutcome), s.canonical = true ∧ (s.se se.val).active = .pending k c a b ∧
      (∀ w ∈ s.fwaits, w.acc ≠ .armDesc se) ∧ (o = .abort ∨ s.reaches (.armDesc se) a 64 false = true) ∧ o ≠ .unc ∧
        (o = .ok → (SDesc.ofBytes b).valid false = false)) :=
  ⟨⟨streaming (.run (aRun 0 1)) aClaim, 0, 1, 1, 0x7000, streamDesc 0 1, aRun 0 1, ok, ok, ok, ok, ok, ok⟩,
   ⟨streaming (.pending 1 1 0x7000 []) .free, 0, 1, 1, 0x7000, [], .ok, ok, ok, ok, .inr (ok), ok, fun _ => ok⟩⟩

theorem wit_StreamRunResults :
    (∃ (s : State) (id k : Nat) (d : Dispatch) (c : Chain) (g : Stage) (i : Nat) (ds : SDesc) (e : Fin 16), RunFits s id k d c g i e ∧
      let sb := sideBase ds.src ds.srcBind d 0x18; let db := sideBase ds.dst ds.dstBind d 0x20; TemplateFits s g ds ∧ TemplateReached s id k g ∧
        ds.aligned sb = true ∧ ds.aligned db = true ∧ OthersWait s e.val) ∧
    (∃ (s : State) (id k : Nat) (d : Dispatch) (c : Chain) (g : Stage) (i : Nat) (e : Fin 16) (o : ReadOutcome), RunFits s id k d c g i e ∧ o ≠ .ok ∧
      (o = .unc → TemplateReached s id k g ∧ s.active.isSome = true) ∧ OthersWait s e.val) ∧
    (∃ (s : State) (e : Fin 16) (r : Run) (last : Nat), s.canonical = true ∧ s.activeRun e.val = some r ∧ s.inService (.se e) = true ∧
      s.inSeq (.se e) = false ∧ r.owner = .armed ∧ r.endWith = none ∧ (∀ w ∈ s.fwaits, w.acc ≠ .run e) ∧ s.seOutstanding e.val < 6 ∧
        r.desc.mode = 0 ∧ r.desc.srcSpace = 0 ∧ (∀ x ∈ r.xfers, x.phase = .reading) ∧ r.next < last ∧ r.limit ≤ r.desc.total ∧
          (s.gatherElems e.val r (min r.limit (s.byteLimit r / r.desc.size)) (8192 / r.desc.size) r.next [] []).1 = last ∧
            (∀ i, r.next ≤ i → i < last → ∀ a ∈ sectorsOf (r.srcAt i).toNat r.desc.size, s.windowOf a = none ∧
              (s.portOf (s.physical e.val a)).isSome = true) ∧ OthersWait s e.val) ∧
    (∃ (s : State) (e : Fin 16) (r : Run), s.canonical = true ∧ s.activeRun e.val = some r ∧ r.owner = .armed ∧ r.desc.mode = 0 ∧
      r.desc.srcSpace = 0 ∧ r.desc.dstSpace = 1 ∧ r.endWith = none ∧ r.delivered + 1 = r.desc.total ∧ r.limit = r.desc.total ∧
        r.xfers = [{ first := r.delivered, count := 1, phase := .reading }] ∧ OthersWait s e.val ∧ (s.se e.val).shadow = .free ∧
          (∀ a ∈ sectorsOf (r.srcAt r.delivered).toNat r.desc.size, a ∉ r.bad ∧ s.windowOf a = none) ∧
            s.openSector e false (sectorsOf (r.srcAt r.delivered).toNat r.desc.size) = false) ∧
    (∃ (s : State) (e : Fin 16) (r : Run) (h : Nat), s.activeRun e.val = some r ∧ r.desc.mode = 2 ∧ r.ring = some (h, h) ∧ r.endWith = none) :=
  ⟨⟨streaming .free .free, 0, 0, dispOf (rcdOf 1) 0, chainWith [stageOf 7 255 255] 0, stageOf 7 255 255, 0, SDesc.ofBytes (streamDesc 0 1), 0,
  ⟨ok, ⟨ok, ok, ok⟩, ok, ⟨ok, ok, ok, ok, ok⟩, ok, ⟨ok, ok, ok⟩, only_disp, ⟨ok, ok⟩⟩, ⟨⟨_, rfl, ok⟩, ⟨ok, ok, ok⟩⟩,
    by intro im h; cases h; decide +kernel, ok, ok, others_idle _ (ok)⟩,
   ⟨streaming .free .free, 0, 0, dispOf (rcdOf 1) 0, chainWith [stageOf 7 255 255] 0, stageOf 7 255 255, 0, 0, .abort, ⟨ok, ⟨ok, ok, ok⟩, ok, ⟨ok,
     ok, ok, ok, ok⟩, ok, ⟨ok, ok, ok⟩, only_disp, ⟨ok, ok⟩⟩, ok,
  fun h => (nomatch h), others_idle _ (ok)⟩,
   ⟨streaming (.run (aRun 0 1)) .free, 0, aRun 0 1, 1, ok, ok, ok, ok, ok, ok, ok, ok, ok, ok, ok, ok, ok, ok,
  (fun i _ h => by obtain rfl : i = 0 := (show i = 0 by have h' : i < 1 := h; omega); decide +kernel), others_idle _ (ok)⟩,
   ⟨streaming (.run { aRun 0 1 with xfers := [aRead] }) .free, 0, { aRun 0 1 with xfers := [aRead] }, ok, ok, ok, ok, ok, ok, ok, ok, ok, ok,
  others_idle _ (ok), ok, ok, ok⟩,
   ⟨streaming (.run { aRun 2 1 with ring := some (7, 7) }) .free, 0, { aRun 2 1 with ring := some (7, 7) }, 7, ok, ok, ok, ok⟩⟩

/-- A read of stream engine 0 that waits at a port with its page translated. -/
def aReq : MemReq :=
  { seq := 0, addr := 0x20000, pa := 0x20000, ready := true, write := false, prefetch := false, remote := false, req := 0, stale := [], acc := .run 0 }

/-- The engine with memory port 15 as given. -/
def porting (m : MemPort) : State := { base with ports := base.ports.take 15 ++ [m] }

/-- A port with `n` tags in use. -/
def tagged (n : Nat) : MemPort := { queue := [aReq], tags := (List.range n).map (fun i => (i, aReq)), discard := [] }

/-- A translation request of the node cache of cluster 0 for page 0x40020. -/
def aXreq (retried : Bool) (since : List Inval) : XReq :=
  { id := 0, req := 16, page := 0x40020, write := false, accs := [(.neural 0 3, false)], retried := retried, since := since }

/-- The engine with that request. -/
def asking (x : XReq) : State := { base with xreqs := [x] }

/-- An answer with fault code `f`. -/
def answer (f : Fin 16) : XlatResp := { pa := 0x99, size := 0, readOk := true, writeOk := false, fault := f }

/-- An invalidation of everything. -/
def invAll : Inval := { kind := .all, addr := 0, sizeLog2 := 12, pasid := 0, pasidV := false, id := 5 }

/-- The wait of a claim's descriptor read on fault record 15. -/
def armWait : FWait := { slot := some 15, acc := .armDesc 0, req := 0, page := 0x40007, pasid := 0, reason := 1, write := false, cls := 1 }

/-- The engine with that record open. -/
def pageFault : State :=
  { withRegs [(F.fltInfoOpen 15, 1), (F.xlatTimeout, 1)] with
    fwaits := [armWait], ses := { StreamEng.init with active := aClaim } :: List.replicate 15 StreamEng.init }

/-- A completion record that has gone to a port, and its write there. -/
def aWrite : PWrite := { addr := 0x2000, bytes := List.replicate 32 0, entry := false, irq := true }
def doneReq : MemReq := { aReq with addr := 0x2000, pa := 0x2000, write := true, req := 63, acc := .completion 1 }

/-- The port with that write outstanding. -/
def donePort : MemPort := { queue := [], tags := [(0, doneReq)], discard := [] }

/-- The engine with it. -/
def completing : State := { porting donePort with queues := base.queues.set 1 { QState.init with sent := [aWrite] } }

/-- An answer to a request that no invalidation has met is not stale. -/
theorem fresh_answer {x : XReq} {r : XlatResp} (h : x.since = [] := by rfl) : ¬staleAnswer x r := by
  intro ⟨v, hv, _⟩
  rw [h] at hv
  exact absurd hv List.not_mem_nil

/-- The translation port with 64 requests of other units, and with four of the node cache of cluster 0. -/
def fullPort : State := { base with xreqs := (List.range 64).map (fun i => { aXreq false [] with id := i, req := 20 + i / 4, page := i }) }
def fourMisses : State := { base with xreqs := (List.range 4).map (fun i => { aXreq false [] with id := i, page := 0x40030 + i }) }

/-- The read of an armed descriptor is neither of a run nor of a completion record. -/
theorem arm_only {e : Fin 16} : (∀ x, Access.armDesc e ≠ .run x) ∧ ∀ c, Access.armDesc e ≠ .completion c ∧ Access.armDesc e ≠ .failList c :=
  ⟨nofun, fun _ => ⟨nofun, nofun⟩⟩

/-- A cluster with a fill of each cache under way, and an entry in its eviction buffer. -/
def filling : State :=
  { base with caches := { base.cachesOf 0 with ncMiss := [(4, 9)], spcMiss := [(4, 9)], evict := [(9, true, List.replicate 128 1)] } :: base.caches.drop 1 }

/-- A CM_CMD write with no operation running, and with one. -/
theorem wit_CmWrites :
    (∃ (s : State) (m : Master) (w : Word), Takes s m 0x3C000 ∧ s.cmOp = none ∧ (cmWanted s ((w &&& 0x33FF).toNat + 1024 * 3)).badArg = false) ∧
    ∃ (s : State) (m : Master) (o : CmOp), Takes s m 0x3C000 ∧ s.cmOp = some o :=
  ⟨⟨base, 0, 0x200, ⟨⟨ok, ok, ok, ok, ok⟩, ok, ok, ok, ok⟩, ok, ok⟩, ⟨{ base with cmOp := some (cmWanted base 0x601) }, 0, cmWanted base 0x601, ⟨⟨ok,
    ok, ok, ok, ok⟩, ok, ok, ok, ok⟩, ok⟩⟩

theorem wit_MemoryPortResults_a :
    (∃ (s : State) (mp : Fin 16) (pos : Fin 8) (m : MemPort) (l r : List MemReq) (q : MemReq), IssuesNext s mp pos m l r q ∧
      m.tags.length < s.tagLimit ∧ m.tags.length + m.discard.length < 2048) ∧
    (∃ (s : State) (mp : Fin 16) (pos : Fin 8) (m : MemPort) (l r : List MemReq) (q : MemReq), IssuesNext s mp pos m l r q ∧ s.tagLimit ≤ m.tags.length) ∧
    (∃ (s : State) (mp : Fin 16) (tag : Fin 2048) (m : MemPort) (q : MemReq), s.canonical = true ∧ s.integrated (.mp mp) = true ∧
      s.ports[mp.val]? = some m ∧ tag.val ∉ m.discard ∧ m.tags.find? (fun x => x.1 == tag.val) = some (tag.val, q) ∧ (∀ c, q.acc ≠ .completion c ∧
        q.acc ≠ .failList c)) ∧
    (∃ (s : State) (mp : Fin 16) (tag : Fin 2048) (m : MemPort) (q : MemReq) (c : Fin 4) (w : PWrite), s.canonical = true ∧
      s.integrated (.mp mp) = true ∧ s.ports[mp.val]? = some m ∧ tag.val ∉ m.discard ∧ m.tags.find? (fun x => x.1 == tag.val) = some (tag.val, q) ∧
        (q.acc = .completion c ∨ q.acc = .failList c) ∧ (s.queue c.val).sent = [w] ∧ (s.queue c.val).writes = []) :=
  ⟨⟨porting (tagged 2047), 15, 0, tagged 2047, [], [], aReq, ⟨ok, ⟨ok, ok⟩, ⟨ok, ok, ok⟩, ⟨ok, ok, ok⟩, ok, .inr (ok)⟩, ok, ok⟩,
   ⟨porting (tagged 2048), 15, 0, tagged 2048, [], [], aReq, ⟨ok, ⟨ok, ok⟩, ⟨ok, ok, ok⟩, ⟨ok, ok, ok⟩, ok, .inr (ok)⟩, ok⟩,
   ⟨porting (tagged 2), 15, 1, tagged 2, aReq, ok, ok, ok, ok, ok, fun _ => ⟨nofun, nofun⟩⟩,
   ⟨completing, 15, 0, donePort, doneReq, 1, aWrite, ok, ok, ok, ok, ok, .inl (ok), ok, ok⟩⟩

theorem wit_MemoryPortResults_b :
    (∃ (s : State) (mp : Fin 16) (tag : Fin 2048) (status : Fin 4) (m : MemPort), s.canonical = true ∧ s.integrated (.mp mp) = true ∧
      s.ports[mp.val]? = some m ∧ tag.val ∈ m.discard) ∧
    (∃ (s : State) (mp : Fin 16) (tag : Fin 2048) (status : Fin 4) (m : MemPort), s.canonical = true ∧ s.integrated (.mp mp) = true ∧
      s.ports[mp.val]? = some m ∧ tag.val ∉ m.discard ∧ (∀ x ∈ m.tags, x.1 ≠ tag.val)) ∧
    (∃ (s : State) (mp : Fin 16) (tag : Fin 2048) (m : MemPort), s.canonical = true ∧ s.ports[mp.val]? = some m ∧ (∃ x ∈ m.tags, x.1 = tag.val) ∧
      s.fenced (.mp mp) = false ∧ s.inSeq (.mp mp) = false ∧ s.isLast (.mp mp) = false) :=
  ⟨⟨porting { tagged 0 with discard := [2047] }, 15, 2047, 0, { tagged 0 with discard := [2047] }, ok, ok, ok, ok⟩,
   ⟨porting (tagged 0), 15, 2047, 3, tagged 0, ok, ok, ok, ok, ok⟩,
   ⟨porting (tagged 1), 15, 0, tagged 1, ok, ok, ok, ok, ok, ok⟩⟩

theorem wit_TranslationResults_a :
    (∃ (s : State) (req : Fin 64) (page : BitVec 52) (write : Bool) (acc : Access), Misses s req.val page.toNat write acc ∧
      MayMiss s req.val page.toNat ∧ s.xreqs.length < 64 ∧ s.xwait = []) ∧
    (∃ (s : State) (req : Fin 64) (page : BitVec 52) (write : Bool) (acc : Access), Misses s req.val page.toNat write acc ∧
      MayMiss s req.val page.toNat ∧ 64 ≤ s.xreqs.length) ∧
    (∃ (s : State) (req : Fin 64) (page : BitVec 52) (write : Bool) (acc : Access), (∀ x ∈ s.xreqs ++ s.xwait, x.req = req.val →
      x.page ≠ page.toNat) ∧ 4 ≤ ((s.xreqs ++ s.xwait).filter (fun x => x.req == req.val)).length) ∧
    (∃ (s : State) (req : Fin 64) (page : BitVec 52) (write : Bool) (acc : Access), Misses s req.val page.toNat write acc ∧
      (∃ x ∈ s.xreqs ++ s.xwait, x.req = req.val ∧ x.page = page.toNat)) :=
  ⟨⟨base, 16, 0x40020, false, .neural 0 3, ⟨ok, ⟨ok, ok⟩, ok, nofun, ok, ok⟩, ⟨ok, ok⟩, ok, ok⟩,
   ⟨fullPort, 16, 0x40020, false, .neural 0 3, ⟨ok, ⟨ok, ok⟩, ok, nofun, ok, ok⟩, ⟨ok, ok⟩, ok⟩,
   ⟨fourMisses, 16, 0x40020, false, .neural 0 3, ok, ok⟩,
   ⟨asking (aXreq false []), 16, 0x40020, false, .neural 0 4, ⟨ok, ⟨ok, ok⟩, ok, nofun, ok, ok⟩, ok⟩⟩

theorem wit_TranslationResults_b :
    (∃ (s : State) (id : Fin 64) (x : XReq) (r : XlatResp), s.canonical = true ∧ s.xreqs.find? (fun y => y.id == id.val) = some x ∧ x.req < 64 ∧
      s.xwait = [] ∧ r.fault = 0 ∧ (¬staleAnswer x r)) ∧
    (∃ (s : State) (id : Fin 64) (x : XReq) (r : XlatResp), s.canonical = true ∧ s.xreqs.find? (fun y => y.id == id.val) = some x ∧ staleAnswer x r) ∧
    (∃ (s : State) (id : Fin 64) (x : XReq) (r : XlatResp) (acc : Access) (w : Bool) (i : Nat), FaultsAlone s id x acc w i ∧ r.fault ≠ 0 ∧
      r.fault ≠ 3 ∧ (¬staleAnswer x r)) ∧
    (∃ (s : State) (id : Fin 64) (x : XReq), s.xreqs.find? (fun y => y.id == id.val) = some x ∧ x.retried = false) :=
  ⟨⟨asking (aXreq false []), 0, aXreq false [], answer 0, ok, ok, ok, ok, ok, fresh_answer⟩,
   ⟨asking (aXreq false [invAll]), 0, aXreq false [invAll], answer 0, ok, ok, ⟨invAll, ok, ok⟩⟩,
   ⟨asking (aXreq false []), 0, aXreq false [], answer 1, .neural 0 3, false, 0, ⟨ok, ok, ⟨ok, nofun, ok, ok⟩, ok, ⟨ok, ok, ok⟩⟩, ok, ok, fresh_answer⟩,
   ⟨asking (aXreq false []), 0, aXreq false [], ok, ok⟩⟩

theorem wit_TranslationResults_c :
    (∃ (s : State) (id : Fin 64) (x : XReq) (acc : Access) (w : Bool) (i : Nat), FaultsAlone s id x acc w i ∧ x.retried = true) ∧
    (∃ (s : State) (v : Inval), s.invals.length < 8 ∧ (∀ w ∈ s.invals, w.id ≠ v.id)) ∧
    (∃ (s : State) (id : Fin 8) (clks : Nat) (v : Inval), s.canonical = true ∧ s.invals.find? (fun w => w.id == id) = some v ∧
      (∀ p ∈ s.ports, ∀ x ∈ p.tags, id.val ∉ x.2.stale)) :=
  ⟨⟨asking (aXreq true []), 0, aXreq true [], .neural 0 3, false, 0, ⟨ok, ok, ⟨ok, nofun, ok, ok⟩, ok, ⟨ok, ok, ok⟩⟩, ok⟩,
   ⟨base, invAll, ok, ok⟩,
   ⟨{ base with invals := [invAll] }, 5, 0, invAll, ok, ok, ok⟩⟩

theorem wit_AnswerResults_a :
    (∃ (s : State) (m : Master) (slot : Fin 16), Takes s m (0x38114 + 0x20 * slot.val) ∧ s.get (F.fltInfoOpen slot.val) = 1 ∧
      (∀ w ∈ s.fwaits, w.slot ≠ none ∧ w.slot ≠ some slot.val)) ∧
    (∃ (s : State) (m : Master) (slot : Fin 16) (w : FWait), Takes s m (0x38114 + 0x20 * slot.val) ∧ OneWaits s slot w ∧ (∀ e, w.acc ≠ .run e) ∧
      (∀ c, w.acc ≠ .completion c ∧ w.acc ≠ .failList c) ∧ mayTranslate w.req w.acc = true ∧ s.inService (reqUnit w.req) = true ∧
        s.tlbHit w.req w.page w.write = none ∧ (∀ y ∈ s.fwaits, y.acc = w.acc → y.page = w.page → y.slot = some slot.val) ∧ MayMiss s w.req w.page ∧
          s.xreqs.length < 64 ∧ s.xwait = []) ∧
    (∃ (s : State) (m : Master) (slot e : Fin 16) (w : FWait) (k : Nat), Takes s m (0x38114 + 0x20 * slot.val) ∧ ArmFaulted s slot e w k) ∧
    (∃ (s : State) (slot e : Fin 16) (w : FWait) (k : Nat), ArmFaulted s slot e w k ∧ s.get F.xlatTimeout ≠ 0) :=
  ⟨⟨withRegs [(F.fltInfoOpen 15, 1)], 0, 15, ⟨⟨ok, ok, ok, ok, ok⟩, ok, ok, ok, ok⟩, ok, ok⟩,
   ⟨pageFault, 0, 15, armWait, ⟨⟨ok, ok, ok, ok, ok⟩, ok, ok, ok, ok⟩, ⟨ok, ok, ⟨ok, ok⟩⟩, arm_only.1, arm_only.2, ok, ok, ok, ok, ⟨ok, ok⟩, ok, ok⟩,
   ⟨pageFault, 0, 15, 0, armWait, 1, ⟨⟨ok, ok, ok, ok, ok⟩, ok, ok, ok, ok⟩, ⟨⟨ok, ok, ⟨ok, ok⟩⟩, ok, ⟨1, 0x7000, streamDesc 0 1, ok⟩⟩⟩,
   ⟨pageFault, 15, 0, armWait, 1, ⟨⟨ok, ok, ⟨ok, ok⟩⟩, ok, ⟨1, 0x7000, streamDesc 0 1, ok⟩⟩, ok⟩⟩

theorem wit_AnswerResults_b :
    (∃ (s : State), s.get F.xlatHotDecay ≠ 0) ∧
    (∃ (s : State) (m : Master) (v : Word), Takes s m 0x38054 ∧ v.getLsbD 0 = true) :=
  ⟨⟨withRegs [(F.xlatHotDecay, 1)], ok⟩,
   ⟨base, 0, 1, ⟨⟨ok, ok, ok, ok, ok⟩, ok, ok, ok, ok⟩, ok⟩⟩

theorem wit_CacheResults :
    (∃ (s : State) (tc : Fin 32) (r : Fin 5) (key : Nat), let c := s.cachesOf tc.val; s.canonical = true ∧
      c.ncMiss.find? (fun m => m.1 == r.val) = some (r.val, key)) ∧
    (∃ (s : State) (tc : Fin 32) (r : Fin 5) (a : Nat), let c := s.cachesOf tc.val; s.canonical = true ∧
      c.spcMiss.find? (fun m => m.1 == r.val) = some (r.val, a)) ∧
    (∃ (s : State) (tc : Fin 32) (a : Nat) (f : Bool) (bs : List Byte) (rest : List (Nat × Bool × List Byte)), let c := s.cachesOf tc.val;
      s.canonical = true ∧ c.evict = (a, f, bs) :: rest) ∧
    (∃ (s : State) (o : CmOp), s.canonical = true ∧ s.cmOp = some o ∧ (∀ x ∈ o.late, s.cmLate o x = false)) :=
  ⟨⟨filling, 0, 4, 9, ok, ok⟩,
   ⟨filling, 0, 4, 9, ok, ok⟩,
   ⟨filling, 0, 9, true, List.replicate 128 1, [], ok, ok⟩,
   ⟨{ base with cmOp := some (cmWanted base 0x401) }, cmWanted base 0x401, ok, ok, ok⟩⟩

/-- The fault sequence of cluster 31. -/
def aSeq (fenced : Bool) : FSeq := { unit := .tc 31, owner := true, fenced := fenced }

/-- A recovery window. -/
def aWindow (hold : Bool) : Window :=
  { firstSeq := 1, replayed := 2, failed := 3, faults := 1, holding := hold, late := false, imageEnded := false }

/-- Readings of the domain of code 0 only. -/
theorem reads_first (r : Nat) : ReadsOnly [[r]] 0 [r] := ⟨rfl, fun i n => match i, n with | 0, n => absurd rfl n | _ + 1, _ => rfl⟩

/-- The engine with lines in slot 5 of both caches of cluster 31, that of the spill cache dirty or clean. -/
def cached (dirty : Bool) : State :=
  { base with caches := base.caches.set 31 { base.cachesOf 31 with
    nc := [(5, { slot := 2, line := 3, filling := false, data := List.replicate 128 0 })],
    spc := [(5, { addr := 128, dirty := dirty, filling := false, data := List.replicate 128 0 })] } }

/-- A unit in service, the last of its kind, in a sequence, fenced by the owner and fenced otherwise. -/
theorem wit_FenceResults_cases :
    (∃ (s : State) (u : EUnit), s.fenced u = false ∧ (∀ b, u = .bank b → s.pends b.val = false) ∧ s.inSeq u = false ∧ s.isLast u = false) ∧
    (∃ (s : State) (u : EUnit), s.fenced u = false ∧ (∀ b, u = .bank b → s.pends b.val = false) ∧ s.inSeq u = false ∧ s.isLast u = true) ∧
    (∃ (s : State) (u : EUnit), s.fenced u = true ∨ s.inSeq u = true) ∧
    (∃ (s : State) (u : EUnit), s.fenced u = true ∧ s.inSeq u = false ∧ u ∈ s.ownFenced) ∧
    ∃ (s : State) (u : EUnit), s.fenced u = true ∧ (u ∉ s.ownFenced ∨ s.inSeq u = true) :=
  ⟨⟨base, .tc 31, ok, nofun, ok, ok⟩, ⟨{ base with integ := { base.integ with memPorts := 1 } }, .mp 0, ok, nofun, ok, ok⟩,
    ⟨{ base with fseqs := [aSeq false] }, .tc 31, .inr ok⟩, ⟨{ withRegs [(F.rasFencedTc, 2 ^ 31)] with ownFenced := [.tc 31] }, .tc 31, ok, ok, ok⟩,
    ⟨withRegs [(F.rasFencedTc, 2 ^ 31)], .tc 31, ok, .inl ok⟩⟩

/-- A reading of the domain of code 11 alone. -/
theorem reads_eleven : ReadsOnly (List.replicate 11 [] ++ [[7]]) 11 [7] :=
  ⟨rfl, fun i n => match i with | 0 | 1 | 2 | 3 | 4 | 5 | 6 | 7 | 8 | 9 | 10 => rfl | 11 => absurd rfl n | k + 12 => rfl⟩

theorem wit_FenceResults_a :
    (∃ (s : State) (m : Master) (w : Word) (u : EUnit), FenceFree s m ∧ EUnit.ofCode (wordKind w) (wordIndex w) = some u ∧ fenceable u = true ∧
      s.integrated u = true) ∧
    (∃ (s : State) (m : Master) (w : Word), FenceFree s m ∧ (∀ u, EUnit.ofCode (wordKind w) (wordIndex w) = some u → s.integrated u = false)) ∧
    (∃ (s : State) (u : EUnit) (f : FSeq), s.canonical = true ∧ fenceable u = true ∧ (∀ b, u ≠ .bank b) ∧
      s.fseqs.find? (fun x => x.unit == u && !x.fenced) = some f) ∧
    (∃ (s : State) (b : Fin 64) (f : FSeq), s.canonical = true ∧ s.fseqs.find? (fun x => x.unit == .bank b && !x.fenced) = some f) :=
  ⟨⟨withRegs [(F.keyUnlocked, 1)], 0, 0x11F, .tc 31, ⟨⟨⟨ok, ok, ok, ok, ok⟩, ok, ok, ok, ok⟩, ok⟩, ok, ok, ok⟩,
   ⟨withRegs [(F.keyUnlocked, 1)], 0, 0xF00, ⟨⟨⟨ok, ok, ok, ok, ok⟩, ok, ok, ok, ok⟩, ok⟩, ok⟩,
   ⟨{ base with fseqs := [aSeq false] }, .tc 31, aSeq false, ok, ok, nofun, ok⟩,
   ⟨{ base with fseqs := [{ aSeq false with unit := .bank 63 }] }, 63, { aSeq false with unit := .bank 63 }, ok, ok⟩⟩

theorem wit_FenceResults_b :
    (∃ (s : State) (u : EUnit), s.fseqs.find? (fun x => x.unit == u && !x.fenced) = none) ∧
    (∃ (s : State) (u : EUnit), s.fseqs.any (fun f => f.unit == u && f.fenced) = true) ∧
    (∃ (s : State) (u : EUnit), s.canonical = true ∧ (∀ b, u ≠ .bank b) ∧ s.returning = some u ∧ s.fenced u = true) :=
  ⟨⟨{ base with fseqs := [aSeq true] }, .tc 31, ok⟩,
   ⟨{ base with fseqs := [aSeq true] }, .tc 31, ok⟩,
   ⟨withRegs [(F.rasFenceGo, 1), (F.rasFenceStatus, 1), (F.rasFenceOp, 2), (F.rasFenceUnitKind, 1), (F.rasFenceUnitIndex, 31), (F.rasFencedTc,
     2 ^ 31)], .tc 31, ok, nofun, ok, ok⟩⟩

theorem wit_RecoveryAndAgeingResults_a :
    (∃ (s : State) (w : Window), MayRecover s w) ∧
    (∃ (s : State) (w : Window), s.canonical = true ∧ s.window = some w ∧ w.holding = true ∧ s.get F.ldrActTimeout ≠ 0) ∧
    (∃ (s : State), (s.window = none ∨ s.fseqs ≠ [] ∨ s.epochNow = false ∨ s.recoveryOpen = true)) ∧
    (∃ (s : State), (∀ w, s.window = some w → w.holding = false)) :=
  ⟨⟨{ base with window := some (aWindow false) }, aWindow false, ⟨ok, ok, ⟨ok, ok, ok⟩, ⟨ok, ok, ok, ok⟩, ⟨ok, ok⟩⟩⟩,
   ⟨{ withRegs [(F.ldrActTimeout, 1)] with window := some (aWindow true) }, aWindow true, ok, ok, ok, ok⟩,
   ⟨base, .inl (ok)⟩,
   ⟨base, nofun⟩⟩

theorem wit_RecoveryAndAgeingResults_b :
    (∃ (s : State) (m : Master) (v : Word) (l : List (List Nat)) (c r : Nat), s.canonical = true ∧ Takes s m 0xC094 ∧ v.getLsbD 0 = true ∧ 11 ≤ c ∧
      c < 14 ∧ ReadsOnly l c [r]) ∧
    (∃ (s : State) (l : List (List Nat)) (c r : Nat), AgeReady s c ∧ s.startup = 0 ∧ s.get F.cpLpStatusState = 0 ∧ s.mgmt.down = false ∧ ReadsOnly l c [r]) ∧
    (∃ (s : State) (m : Master) (v : Word) (l : List (List Nat)) (c r : Nat), AgeReady s c ∧ Takes s m 0xC094 ∧ v.getLsbD 0 = true ∧ ReadsOnly l c [r]) :=
  ⟨⟨base, 0, 1, List.replicate 11 [] ++ [[7]], 11, 7, ok, ⟨⟨ok, ok, ok, ok, ok⟩, ok, ok, ok, ok⟩, ok, ok, ok, reads_eleven⟩,
   ⟨base, [[0]], 0, 0, ⟨ok, ⟨ok, ok, ok⟩, ok⟩, ok, ok, ok, reads_first 0⟩,
   ⟨base, 0, 1, [[255]], 0, 255, ⟨ok, ⟨ok, ok, ok⟩, ok⟩, ⟨⟨ok, ok, ok, ok, ok⟩, ok, ok, ok, ok⟩, ok, reads_first 255⟩⟩

/-- The engine in low-power state `st` with request `req`. -/
def resting (st req : Nat) : State := withRegs [(F.cpLpStatusState, st), (F.cpLpCtrlReq, req), (F.cpNapRet, 2 ^ 29 - 128)]

/-- The engine in the middle of a reset of cause `c`. -/
def resetting (c : Nat) (drained : Bool) : State := { base with resetting := some { cause := c, drained := drained } }

/-- The raise of rail 10 to OP 0, its voltage asked for. -/
def raising : State := { base with vwait := 2 ^ 10, vreq := List.replicate 11 (base.opCode 10 0),
                                   opMove := some { rail := 10, target := 0, raising := true, second := false } }

theorem wit_OperatingPointsAndSupplies_a :
    (∃ (s : State) (m : Master) (v : Word), Takes s m 0x8000) ∧
    (∃ (s : State) (m : Master) (v : Word), Takes s m 0x8004) ∧
    (∃ (s : State) (k : Fin 11) (m : OpMove), s.canonical = true ∧ s.vwait.testBit k.val = true ∧ s.opMove = some m ∧ m.rail = k.val ∧
      m.raising = true ∧ m.second = false ∧ (s.vreq[k.val]?).getD 0 = s.opCode k.val m.target) ∧
    (∃ (s : State) (k : Fin 11), s.vwait.testBit k.val = false) :=
  ⟨⟨withRegs [(F.keyUnlocked, 1)], 0, 0x777, ⟨⟨ok, ok, ok, ok, ok⟩, ok, ok, ok, ok⟩⟩,
   ⟨withRegs [(F.keyUnlocked, 1)], 0, 0x80, ⟨⟨ok, ok, ok, ok, ok⟩, ok, ok, ok, ok⟩⟩,
   ⟨raising, 10, { rail := 10, target := 0, raising := true, second := false }, ok, ok, rfl, ok, ok, ok, rfl⟩,
   ⟨base, 10, ok⟩⟩

theorem wit_OperatingPointsAndSupplies_b :
    (∃ (s : State) (k : Fin 11) (m : OpMove), s.canonical = true ∧ s.opMove = some m ∧ m.rail = k.val ∧ m.target < 8 ∧ m.raising = m.second) ∧
    (∃ (s : State) (d : Fin 30), s.canonical = true ∧ s.monitored d.val = true) ∧
    (∃ (s : State) (d : Fin 30), s.monitored d.val = false) ∧
    (∃ (s : State) (d : Fin 30) (clks : Nat), s.canonical = true ∧ (s.get F.cpSupStretch).testBit d.val = true) :=
  ⟨⟨{ base with opMove := some { rail := 10, target := 0, raising := true, second := true } }, 10,
  { rail := 10, target := 0, raising := true, second := true }, ok, ok, ok, ok, ok⟩,
   ⟨base, 29, ok, ok⟩,
   ⟨resting 2 1, 29, ok⟩,
   ⟨withRegs [(F.cpSupStretch, 2 ^ 29)], 29, 1000000, ok, ok⟩⟩

theorem wit_OperatingPointsAndSupplies_c :
    (∃ (s : State) (c : SuppliedClock) (khz : Nat), let (_, lo, hi) := clockRange s.integ c; s.canonical = true ∧ lo ≤ khz ∧ khz ≤ hi) ∧
    (∃ (s : State) (c : SuppliedClock) (khz : Nat), let (_, lo, hi) := clockRange s.integ c; (khz < lo ∨ hi < khz)) :=
  ⟨⟨base, .hrp, 200000, ok, ok, ok⟩,
   ⟨base, .aon, 100001, .inr (ok)⟩⟩

theorem wit_LowPowerResults_a :
    (∃ (s : State) (m : Master) (w : Word), Takes s m 0x8020) ∧
    (∃ (s : State) (m : Master) (w : Word), Takes s m 0x8020) ∧
    (∃ (s : State) (m : Master) (w : Word), Takes s m 0x8020 ∧ s.get F.cpLpStatusState = 1) ∧
    (∃ (s : State) (m : Master) (w : Word), Takes s m 0x8020 ∧ (s.get F.cpLpStatusState = 2 ∨ s.get F.cpLpStatusState = 3)) :=
  ⟨⟨base, 0, 0x70, ⟨⟨ok, ok, ok, ok, ok⟩, ok, ok, ok, ok⟩⟩,
   ⟨base, 0, 0x70, ⟨⟨ok, ok, ok, ok, ok⟩, ok, ok, ok, ok⟩⟩,
   ⟨resting 1 1, 0, 0, ⟨⟨ok, ok, ok, ok, ok⟩, ok, ok, ok, ok⟩, ok⟩,
   ⟨resting 3 2, 0, 0, ⟨⟨ok, ok, ok, ok, ok⟩, ok, ok, ok, ok⟩, .inr (ok)⟩⟩

theorem wit_LowPowerResults_b :
    (∃ (s : State), s.canonical = true ∧ s.lpReady = true ∧ s.epochNow = true ∧ s.wbuf = [] ∧ s.get F.rstDomainGo = 0 ∧
      s.get F.wipeStatusPending = 0 ∧ s.returning = none ∧ s.get F.cpLpCtrlReq = 1 ∧ spcMasksOk s.spcMasks = true) ∧
    (∃ (s : State), s.canonical = true ∧ s.lpReady = true ∧ s.epochNow = true ∧ s.wbuf = [] ∧ s.get F.rstDomainGo = 0 ∧
      s.get F.wipeStatusPending = 0 ∧ s.returning = none ∧ s.get F.cpLpCtrlReq = 2 ∧ spcMasksOk s.spcMasks = true) ∧
    (∃ (s : State), (s.lpReady = false ∨ s.epochNow = false)) ∧
    (∃ (s : State), s.canonical = true ∧ s.lpGoing = true ∧ s.get F.cpLpCtrlReq = 1 ∧ (∀ d, 7 ≤ d → d ≤ 28 → (s.get F.cpNapRet).testBit d = true)) :=
  ⟨⟨resting 1 1, ok, ok, ok, ok, ok, ok, ok, ok, ok⟩,
   ⟨resting 1 2, ok, ok, ok, ok, ok, ok, ok, ok, ok⟩,
   ⟨base, ok⟩,
   ⟨{ resting 1 1 with lpGoing := true }, ok, ok, ok, fun d a b =>
  (ok : ∀ d, d < 29 → 7 ≤ d → (({ resting 1 1 with lpGoing := true } : State).get F.cpNapRet).testBit d = true) d (Nat.lt_succ_of_le b) a⟩⟩

theorem wit_LowPowerResults_c :
    (∃ (s : State) (h : Fin 2), s.canonical = true ∧ s.lpGoing = true ∧ s.get F.cpLpCtrlReq = 1 ∧ s.domOn (15 + h.val) = true ∧
      (s.get F.cpNapRet).testBit (15 + h.val) = false) ∧
    (∃ (s : State), s.canonical = true ∧ s.lpGoing = true ∧ s.get F.cpLpCtrlReq = 2) ∧
    (∃ (s : State) (src : WakeSource), s.canonical = true ∧ wakes s src) ∧
    (∃ (s : State) (src : WakeSource), (¬wakes s src)) :=
  ⟨⟨{ withRegs [(F.cpLpStatusState, 1), (F.cpLpCtrlReq, 1)] with lpGoing := true }, 1, ok, ok, ok, ok, ok⟩,
   ⟨{ resting 1 2 with lpGoing := true }, ok, ok, ok⟩,
   ⟨resting 3 2, .host, ok, .inr (ok)⟩,
   ⟨base, .peer, fun h => absurd h.1 (ok)⟩⟩

theorem wit_LowPowerResults_d :
    (∃ (s : State), s.canonical = true ∧ s.get F.cpLpStatusState = 4) ∧
    (∃ (s : State) (d : Fin 30), s.domOn d.val = true ∧ s.svc.testBit d.val = false ∧ d.val ∉ s.wipingDomains ∧ s.present = true ∧ s.resetting = none) :=
  ⟨⟨resting 4 0, ok, ok⟩,
   ⟨{ base with svc := 0 }, 29, ok, ok, ok, ok, ok⟩⟩

theorem wit_ResetResults_a :
    (∃ (s : State) (m : Master) (w : Word), Takes s m 0xA000 ∧ s.resetting = none) ∧
    (∃ (s : State) (m : Master) (w : Word), Takes s m 0xA000 ∧ s.resetting = none) ∧
    (∃ (s : State) (w : Word), s.canonical = true ∧ s.startup = 0 ∧ s.resetting = none) ∧
    (∃ (s : State) (x : BitVec 12), s.canonical = true ∧ s.integ.ok = true ∧ s.startup = 0 ∧ s.resetting = none) :=
  ⟨⟨withRegs [(F.keyUnlocked, 1)], 0, 1, ⟨⟨ok, ok, ok, ok, ok⟩, ok, ok, ok, ok⟩, ok⟩,
   ⟨withRegs [(F.keyUnlocked, 1)], 0, 2, ⟨⟨ok, ok, ok, ok, ok⟩, ok, ok, ok, ok⟩, ok⟩,
   ⟨base, 2, ok, ok, ok⟩,
   ⟨base, 0xFFF, ok, ok, ok, ok⟩⟩

theorem wit_ResetResults_b :
    (∃ (s : State) (r : ResetSt), s.canonical = true ∧ s.resetting = some r ∧ r.drained = false ∧ (∀ p ∈ s.ports, p.tags = []) ∧ r.cause = 6) ∧
    (∃ (s : State) (r : ResetSt), s.canonical = true ∧ s.resetting = some r ∧ r.drained = false ∧ (∀ p ∈ s.ports, p.tags = []) ∧ 2 ≤ r.cause ∧ r.cause ≤ 5) ∧
    (∃ (s : State) (r : ResetSt), s.resetting = some r ∧ (∃ p ∈ s.ports, p.tags ≠ [])) ∧
    (∃ (s : State) (r : ResetSt), s.canonical = true ∧ s.resetting = some r ∧ r.cause = 6 ∧ r.drained = true) :=
  ⟨⟨resetting 6 false, { cause := 6, drained := false }, ok, ok, ok, ok, ok⟩,
   ⟨resetting 5 false, { cause := 5, drained := false }, ok, ok, ok, ok, ok, ok⟩,
   ⟨{ resetting 6 false with ports := [tagged 1] }, { cause := 6, drained := false }, ok, ok⟩,
   ⟨resetting 6 true, { cause := 6, drained := true }, ok, ok, ok, ok⟩⟩

theorem wit_ResetResults_c :
    (∃ (s : State) (x : BitVec 12), s.canonical = true ∧ s.integ.ok = true) ∧
    (∃ (s : State) (failed : List EUnit) (l : List (List (List Nat))), s.canonical = true ∧ s.startup = 2 ∧ s.testPasses failed = true) ∧
    (∃ (s : State) (m : Master) (w : Word), let d := w.toNat % 32; Takes s m 0xA004 ∧ s.get F.rstDomainGo = 0 ∧ (d = 4 ∨ (6 ≤ d ∧ d ≤ 29)) ∧ s.domOn d = true) ∧
    (∃ (s : State) (m : Master) (w : Word), let d := w.toNat % 32; Takes s m 0xA004 ∧ s.get F.rstDomainGo = 0 ∧ ((d < 6 ∧
      d ≠ 4) ∨ 29 < d ∨ s.domOn d = false)) :=
  ⟨⟨State.reset, 0xFFF, ok, ok⟩,
   ⟨{ State.reset with startup := 2 }, [.tc 31], [], ok, ok, ok⟩,
   ⟨withRegs [(F.keyUnlocked, 1)], 0, 29, ⟨⟨ok, ok, ok, ok, ok⟩, ok, ok, ok, ok⟩, ok, .inr ⟨ok, ok⟩, ok⟩,
   ⟨withRegs [(F.keyUnlocked, 1)], 0, 30, ⟨⟨ok, ok, ok, ok, ok⟩, ok, ok, ok, ok⟩, ok, .inr (.inl (ok))⟩⟩

theorem wit_ResetResults_d :
    (∃ (s : State), let d := s.get F.rstDomainDomain; s.canonical = true ∧ s.epochNow = true ∧ s.wbuf = [] ∧ s.get F.rstDomainGo = 1 ∧
      s.domBusy = none ∧ s.domOn d = true ∧ d < 30) ∧
    (∃ (s : State) (d : Fin 30), s.canonical = true ∧ s.domBusy = some d.val) ∧
    (∃ (s : State) (m : Master) (w : Word), Takes s m 0xA020 ∧ s.get F.wipeCtrlGo = 0) ∧
    (∃ (s : State) (set : Nat), s.canonical = true ∧ s.wiping = some set) :=
  ⟨⟨withRegs [(F.rstDomainGo, 1), (F.rstDomainDomain, 7)], ok, ok, ok, ok, ok, ok, ok⟩,
   ⟨{ base with domBusy := some 29 }, 29, ok, ok⟩,
   ⟨withRegs [(F.keyUnlocked, 1)], 0, 0x3F, ⟨⟨ok, ok, ok, ok, ok⟩, ok, ok, ok, ok⟩, ok⟩,
   ⟨{ base with wiping := some 63 }, 63, ok, ok⟩⟩

/-- A block of `n` bytes as `block`, with 0xFF elsewhere. -/
def erased (n : Nat) (l : List (Nat × Nat × Nat)) : List Byte :=
  (block n (l.map (fun e => (e.1, e.2.1, 256 ^ e.2.1 - 1 - e.2.2)))).map (fun b => ~~~b)

/-- A public key: that of the seed of 32 bytes 0. -/
def fwKey : List Byte := leBytes 32 0x29DA598BA148C03AA643E21D77153265730D6F2AD0A8A3622DA4B6CEBC276A3B

/-- A firmware image of four code bytes, of SVN 0 under ROM key 0, committed, with the signature of that key (made with RFC 8032, section
5.1.6). -/
def fwImage : List Byte := erased 260 [(0, 4, 0x5746544B), (8, 1, 0), (9, 1, 0), (0x0C, 4, 4),
  (0x40, 32, 0xEF889E09B7E099A5D19AFB8F7DB010EA85F066606BF300E6C885FD4D075FC5AA),
  (0x60, 32, 0x21DD9309670CBB7B1F2BA1036BD842CC6C5405229C5522B052ECA62F95838F4), (0xFF, 1, 0x3C)]

/-- Flash with that image in slot `i` and a boot record with ACTIVE `a`, TRY `t` and TRIED `d`. -/
def fwFlash (i a t d : Nat) : List Host.Cell :=
  let inv := fun (l : List Byte) => l.map (fun b => ~~~b)
  putBytes (putBytes [] 0 (inv (erased 32 [(0, 4, 1), (4, 1, a), (5, 1, t), (6, 1, d), (0x1F, 1, 0x3C)]))) (slotBase i) (inv fwImage)

/-- ROM key 0 is that key: the keys of the boot ROM are a constant without a body (R673). -/
def SignedImage : Prop := Config.romKey 0 = fwKey

/-- The signature of that image verifies under that key. -/
theorem fw_signature : ed25519 fwKey (fwImage.take 0x40 ++ ((fwImage.drop 0x100).take 4)) ((fwImage.drop 0x40).take 64) = true := by
  decide +kernel

/-- An engine whose fuses are clear accepts a signed image. -/
theorem fw_ok (s : State) (h : SignedImage) (hl : s.mgmt.lifecycle = 0) (hs : s.mgmt.svnFuse = 0) : s.firmwareCheck fwImage = 0 := by
  have f0 : fieldOf fwImage 0 4 = 0x5746544B := by decide +kernel
  have f8 : fieldOf fwImage 8 1 = 0 := by decide +kernel
  have f9 : fieldOf fwImage 9 1 = 0 := by decide +kernel
  have fC : fieldOf fwImage 0x0C 4 = 4 := by decide +kernel
  have f10 : crc32 ((fwImage.drop 0x100).take 4) = fieldOf fwImage 0x10 4 := by decide +kernel
  have fl : ((fwImage.drop 0x100).take 4).length = 4 := by decide +kernel
  have h' : ed25519 (Config.romKey 0) (fwImage.take 0x40 ++ ((fwImage.drop 0x100).take 4)) ((fwImage.drop 0x40).take 64) = true := by
    rw [h]; exact fw_signature
  generalize fwImage = b at f0 f8 f9 fC f10 fl h' ⊢
  simp only [State.firmwareCheck, f0, f8, f9, fC, f10, fl, h', hl, hs]
  simp

/-- The engine at its boot with that flash. -/
def booting (i a t d : Nat) : State := { base with startup := 1, mgmt := { base.mgmt with flash := fwFlash i a t d } }

/-- The slot of that image is valid. -/
theorem slot_ok (i a t d : Nat) (h : SignedImage) (hb : (booting i a t d).slotBytes i = fwImage)
    (hc : (booting i a t d).flashNat (slotBase i + 0xFF) 1 = commitByte) : (booting i a t d).slotValid i = true := by
  unfold State.slotValid
  rw [hb, hc, fw_ok _ h rfl rfl]
  rfl

/-- A slot that the boot record tries (FirmwareResults). -/
theorem wit_FirmwareResults_try (h : SignedImage) :
    ∃ (s : State) (p : Nat), s.startup = 1 ∧ s.bootRecord = some p ∧ bootField s p 5 ≠ 255 ∧ s.slotValid (bootField s p 5 % 2) = true := by
  have hr : (booting 1 0 1 255).bootRecord = some 0 := by decide +kernel
  have hf : bootField (booting 1 0 1 255) 0 5 = 1 := by decide +kernel
  have hv := slot_ok 1 0 1 255 h (by decide +kernel) (by decide +kernel)
  refine ⟨booting 1 0 1 255, 0, rfl, hr, ?_, ?_⟩
  · rw [hf]; decide
  · rw [hf]; exact hv

/-- The active slot after a trial that failed, and with no trial (FirmwareResults). -/
theorem wit_FirmwareResults_active (h : SignedImage) :
    (∃ (s : State) (p : Nat), s.startup = 1 ∧ s.bootRecord = some p ∧ bootField s p 5 = 255 ∧ bootField s p 6 ≠ 255 ∧
      s.slotValid (bootField s p 4 % 2) = true) ∧
    (∃ (s : State) (p : Nat), s.startup = 1 ∧ s.bootRecord = some p ∧ bootField s p 5 = 255 ∧ bootField s p 6 = 255 ∧
      s.slotValid (bootField s p 4 % 2) = true) := by
  have hr : ∀ d ∈ [1, 255], (booting 0 0 255 d).bootRecord = some 0 := by decide +kernel
  have h4 : ∀ d ∈ [1, 255], bootField (booting 0 0 255 d) 0 4 = 0 := by decide +kernel
  have h5 : ∀ d ∈ [1, 255], bootField (booting 0 0 255 d) 0 5 = 255 := by decide +kernel
  have h6 : ∀ d ∈ [1, 255], bootField (booting 0 0 255 d) 0 6 = d := by decide +kernel
  have v1 := slot_ok 0 0 255 1 h (by decide +kernel) (by decide +kernel)
  have v2 := slot_ok 0 0 255 255 h (by decide +kernel) (by decide +kernel)
  refine ⟨⟨booting 0 0 255 1, 0, rfl, hr 1 (by simp), h5 1 (by simp), ?_, ?_⟩, ⟨booting 0 0 255 255, 0, rfl, hr 255 (by simp), h5 255 (by simp), ?_, ?_⟩⟩
  · rw [h6 1 (by simp)]; decide
  · rw [h4 1 (by simp)]; exact v1
  · exact h6 255 (by simp)
  · rw [h4 255 (by simp)]; exact v2

/-- The engine with that image in memory at 0x5000 and the mailbox arguments of an update. -/
def updating : State := { withRegs [(F.mbArg 0, 0x5000), (F.mbArg 2, 260)] with
    mem := ((List.range 260).zip fwImage).filterMap (fun x => if x.2 = 0 then none else some (0x5000 + x.1, x.2)) }

/-- An update that passes every check (the first clause of MailboxAndKeyResults). -/
theorem wit_MailboxAndKeyResults_update (h : SignedImage) :
    ∃ (s : State) (m : Master) (n : Nat), MailFree s m ∧ GoodUpdate s n :=
  have hb : bytesAt updating.mem updating.mailAddr 260 = fwImage := by decide +kernel
  ⟨updating, 0, 260, ⟨⟨⟨by decide +kernel, by decide +kernel, by decide +kernel, by decide +kernel, by decide +kernel⟩, by decide +kernel,
      by decide +kernel, by decide +kernel, by decide +kernel⟩, by decide +kernel, by decide +kernel⟩,
    ⟨ok, ok, ok, ok⟩, ⟨by rw [hb]; exact fw_ok _ h rfl rfl, by rw [hb]; decide +kernel⟩,
    ⟨ok, ok, ok⟩⟩

/-- The engine with one field of its management subsystem set by `f`. -/
def managed (f : Mgmt → Mgmt) : State := { base with mgmt := f base.mgmt }

/-- A log entry that waits. -/
def aLog : LogEntry := { typ := 4, count := 1, data := List.replicate 16 0 }

theorem wit_FirmwareResults_a :
    (∃ (s : State) (m : Master) (v : Word), Takes s m 0xA014 ∧ s.mgmt.lcyTarget = none) ∧
    (∃ (s : State) (n : Nat), s.canonical = true ∧ s.mgmt.lcyTarget = some n ∧ s.startup = 0 ∧ s.resetting = none) ∧
    (∃ (s : State), s.mgmt.lcyTarget = none) ∧
    (∃ (s : State), s.canonical = true ∧ s.startup = 0) :=
  ⟨⟨withRegs [(F.keyUnlocked, 1)], 0, 1, ⟨⟨ok, ok, ok, ok, ok⟩, ok, ok, ok, ok⟩, ok⟩,
   ⟨managed fun m => { m with lcyTarget := some 1 }, 1, ok, ok, ok, ok⟩,
   ⟨base, ok⟩,
   ⟨base, ok, ok⟩⟩

theorem wit_FirmwareResults_b :
    (∃ (s : State), s.canonical = true ∧ s.mgmt.trial = true ∧ s.mgmt.down = false ∧ s.startup = 0 ∧ s.resetting = none) ∧
    (∃ (s : State), s.mgmt.trial = false) ∧
    (∃ (s : State) (i : Nat), s.mgmt.running = some i ∧ s.mgmt.trial = true ∧ s.mgmt.down = false) :=
  ⟨⟨managed fun m => { m with trial := true }, ok, ok, ok, ok, ok⟩,
   ⟨base, ok⟩,
   ⟨managed fun m => { m with running := some 1, trial := true }, 1, ok, ok, ok⟩⟩

theorem wit_MailboxAndKeyResults_a :
    (∃ (s : State) (m : Master) (o : ReadOutcome) (ok : Bool), MailFree s m ∧ s.mgmt.lifecycle = 3) ∧
    (∃ (s : State) (m : Master), MailFree s m ∧ s.mgmt.fwStaged = true ∧ s.resetting = none) ∧
    (∃ (s : State) (m : Master), MailFree s m ∧ s.mgmt.fwStaged = false) ∧
    (∃ (s : State) (m : Master), MailFree s m ∧ s.mailAddr % 32 = 0 ∧ 1 ≤ s.get (F.mbArg 3) ∧ s.get (F.mbArg 3) ≤ 4096) :=
  ⟨⟨managed fun m => { m with lifecycle := 3 }, 0, .ok, true, ⟨⟨⟨ok, ok, ok, ok, ok⟩, ok, ok, ok, ok⟩, ok, ok⟩, ok⟩,
   ⟨managed fun m => { m with fwStaged := true }, 0, ⟨⟨⟨ok, ok, ok, ok, ok⟩, ok, ok, ok, ok⟩, ok, ok⟩, ok, ok⟩,
   ⟨base, 0, ⟨⟨⟨ok, ok, ok, ok, ok⟩, ok, ok, ok, ok⟩, ok, ok⟩, ok⟩,
   ⟨withRegs [(F.mbArg 3, 4096)], 0, ⟨⟨⟨ok, ok, ok, ok, ok⟩, ok, ok, ok, ok⟩, ok, ok⟩, ok, ok, ok⟩⟩

theorem wit_MailboxAndKeyResults_b :
    (∃ (s : State) (x : MailOp), s.canonical = true ∧ s.mgmt.mail = some x) ∧
    (∃ (s : State) (m : Master) (slot : Fin 4), Takes s m 0x4002C ∧ s.mgmt.keyOp = none) ∧
    (∃ (s : State) (slot cmd : Nat), s.canonical = true ∧ s.mgmt.keyOp = some (slot, cmd) ∧ slot < s.mgmt.keys.length ∧ keyAllowed s.mgmt cmd slot) ∧
    (∃ (s : State) (slot cmd : Nat), s.canonical = true ∧ s.mgmt.keyOp = some (slot, cmd) ∧ (¬keyAllowed s.mgmt cmd slot)) :=
  ⟨⟨managed fun m => { m with mail := some { cmd := 1, result := 7 } }, { cmd := 1, result := 7 }, ok, ok⟩,
   ⟨withRegs [(F.keyUnlocked, 1)], 0, 3, ⟨⟨ok, ok, ok, ok, ok⟩, ok, ok, ok, ok⟩, ok⟩,
   ⟨managed fun m => { m with keyOp := some (3, 1) }, 3, 1, ok, ok, ok, .inl ⟨.inl (ok), ok, ok⟩⟩,
   ⟨managed fun m => { m with keyOp := some (3, 9) }, 3, 9, ok, ok, fun h => h.elim (fun h => absurd h.1 (ok)) fun h => absurd h.1 (ok)⟩⟩

theorem wit_MailboxAndKeyResults_c :
    (∃ (s : State) (e : LogEntry) (rest : List LogEntry), NextEntry s e rest) ∧
    (∃ (s : State) (e : LogEntry) (rest : List LogEntry), s.canonical = true ∧ s.mgmt.logBuf = e :: rest) :=
  ⟨⟨managed fun m => { m with logBuf := [aLog], logPos := 126 }, aLog, [], ⟨ok, ok, ok⟩⟩,
   ⟨managed fun m => { m with logBuf := [aLog], logPos := 127 }, aLog, [], ok, ok⟩⟩

theorem wit_LoopResults_a :
    (∃ (s : State) (l : List (BitVec 16)), s.canonical = true ∧ s.startup = 0 ∧ s.mgmt.down = false ∧ s.mgmt.loops.length = 11 ∧ l.length = 24) ∧
    (∃ (s : State) (i : Fin 24) (x : BitVec 16), s.canonical = true ∧ s.mgmt.loops.length = 11 ∧ s.thermTrip ≤ tempOf x.toNat ∧ s.mgmt.trip = false) ∧
    (∃ (s : State) (i : Fin 24) (x : BitVec 16), tempOf x.toNat < s.thermTrip) ∧
    (∃ (s : State), s.canonical = true ∧ s.mgmt.trip = true ∧ (∀ i, i < 24 → s.temp i < s.thermLimit - 80)) :=
  ⟨⟨base, List.replicate 24 0x7FFF, ok, ok, ok, ok, ok⟩,
   ⟨base, 23, 0x7FFF, ok, ok, ok, ok⟩,
   ⟨withRegs [(F.snsThermTrip, 125)], 23, 1999, ok⟩,
   ⟨{ withRegs [(F.snsThermLimit, 6)] with mgmt := { base.mgmt with trip := true } }, ok, ok, ok⟩⟩

theorem wit_LoopResults_b :
    (∃ (s : State), s.mgmt.trip = false) ∧
    (∃ (s : State) (mw : Nat), s.canonical = true ∧ s.startup = 0 ∧ s.mgmt.down = false ∧ s.mgmt.loops.length = 11 ∧ s.get F.snsPcap ≠ 0 ∧
      s.get F.snsPcap < mw) ∧
    (∃ (s : State) (mw : Nat), s.canonical = true ∧ s.startup = 0 ∧ s.mgmt.down = false ∧ s.mgmt.loops.length = 11 ∧ s.get F.snsPcap ≠ 0 ∧
      10 * mw ≤ 9 * s.get F.snsPcap) ∧
    (∃ (s : State) (d : Fin 30) (k : Nat), s.canonical = true ∧ s.mgmt.loops.length = 11 ∧ railOfDomain d.val = some k ∧ (s.loop k).brown ≠ 0 ∧
      s.mgmt.down = false) :=
  ⟨⟨base, ok⟩,
   ⟨withRegs [(F.snsPcap, 9)], 10, ok, ok, ok, ok, ok, ok⟩,
   ⟨withRegs [(F.snsPcap, 10)], 9, ok, ok, ok, ok, ok, ok⟩,
   ⟨managed fun m => { m with loops := List.replicate 11 { LoopDom.init with brown := 5 } }, 28, 10, ok, ok, ok, ok, ok⟩⟩

theorem wit_LoopResults_c : ∃ (s : State), s.get F.mbTlm ≠ 0 ∧ s.mgmt.down = false ∧ s.startup = 0 :=
  ⟨withRegs [(F.mbTlm, 1)], ok, ok, ok⟩

/-- The engine whose firmware runs, with MON_MASTER its owner. -/
def monitored : State := managed fun m => { m with running := some 0 }

/-- Fields none of which a read clears, read in turn. -/
theorem fold_plain (l : List FieldRow) (a : Nat) (s : State) (h : ∀ f ∈ l, f.acc ≠ .rc) :
    l.foldl (fun s f => if f.acc = .rc then s.set ⟨a, f.lo, f.width⟩ 0 else s) s = s := by
  induction l with
  | nil => rfl
  | cons f l ih =>
    rw [List.foldl_cons, if_neg (h f List.mem_cons_self)]
    exact ih fun x hx => h x (List.mem_cons_of_mem _ hx)

/-- A read of a register none of whose fields it clears, and that is not DONE_LOST_HI, changes nothing. -/
theorem read_plain (s : State) (m a : Nat) (r : RegRow) (h : s.regAt a = some r) (hf : ∀ f ∈ r.fields, f.acc ≠ .rc)
    (ha : ¬(a = 0x2024 ∨ a = 0x2124 ∨ a = 0x2224 ∨ a = 0x2324)) : s.readEffect m a = s := by
  unfold State.readEffect
  split
  · rfl
  · rw [h]
    dsimp only
    exact fold_plain r.fields a s hf

theorem wit_MonitorResults_a :
    (∃ (s : State) (line : List Byte), s.mgmt.overrun = false) ∧
    (∃ (s : State) (line : List Byte), (200 < line.length ∨ knownLine line = false)) ∧
    (∃ (s : State) (c : Instr) (k : MonKind) (rom owner : Bool), monRule c = some (k, rom, owner) ∧ s.mgmt.overrun = false) ∧
    (∃ (s : State), MonMay s .monStat) :=
  ⟨⟨base, List.replicate 201 97, ok⟩,
   ⟨base, List.replicate 201 97, .inl (ok)⟩,
   ⟨base, .monPoke 0x1010 0, .write, false, true, ok, ok⟩,
   ⟨base, ⟨ok, ⟨ok, ok⟩, .basic, true, false, rfl, .inr rfl, ok, ok⟩⟩⟩

theorem wit_MonitorResults_b :
    (∃ (s : State), MonMay s .monHelp) ∧
    (∃ (s : State), MonMay s .monSens) ∧
    (∃ (s : State) (n : Nat), MonMay s (.monLog n) ∧ 1 ≤ n ∧ n ≤ 1024) ∧
    (∃ (s : State) (addr : BitVec 20) (n : Nat), let a := addr.toNat / 4 * 4; MonMay s (.monPeek addr n) ∧ 1 ≤ n ∧ n ≤ 64 ∧ a + 4 * n ≤ 2 ^ 20 ∧
      (∀ i, i < n → s.readEffect s.integ.monMaster (a + 4 * i) = s) ∧ (∀ i (o : List Out), i < n →
        State.readEffect { s with out := o } s.integ.monMaster (a + 4 * i) = { s with out := o })) :=
  ⟨⟨base, ⟨ok, ⟨ok, ok⟩, .basic, true, false, rfl, .inr rfl, ok, ok⟩⟩,
   ⟨monitored, ⟨ok, ⟨ok, ok⟩, .basic, false, false, rfl, .inl (ok), ok, ok⟩⟩,
   ⟨monitored, 1024, ⟨ok, ⟨ok, ok⟩, .basic, false, false, rfl, .inl (ok), ok, ok⟩, ok, ok⟩,
   ⟨monitored, 0, 1, ⟨ok, ⟨ok, ok⟩, .read, false, false, rfl, .inl (ok), ok, ok⟩, ok, ok, ok,
  fun i h => by obtain rfl : i = 0 := (by omega); exact read_plain _ _ _ (row 0) (ok) (ok) (ok),
  fun i o h => by obtain rfl : i = 0 := (by omega); exact read_plain _ _ _ (row 0) (show monitored.regAt 0 = some (row 0) from ok) (ok) (ok)⟩⟩

theorem wit_MonitorResults_c :
    (∃ (s : State) (m : Master) (addr : BitVec 20) (v : Word) (row : RegRow), let a := addr.toNat / 4 * 4; MonMay s (.monPoke addr v) ∧
      m.val = s.integ.monMaster ∧ Takes s m a ∧ s.regAt a = some row ∧ actingAddr a = false ∧ a ≠ 0x40024) ∧
    (∃ (s : State) (m : Master) (kind index : Nat) (u : EUnit), MonMay s (.monFence kind index) ∧ MonTakes s m 0x10 ∧ MonTakes s m 0xC020 ∧
      s.get F.rasFenceGo = 0 ∧ kind < 16 ∧ index < 64 ∧ EUnit.ofCode kind index = some u ∧ fenceable u = true ∧ s.integrated u = true ∧
        s.fenced u = false ∧ (∀ b, u = .bank b → s.pends b.val = false) ∧ s.inSeq u = false ∧ s.isLast u = false) ∧
    (∃ (s : State) (m : Master) (kind index : Nat) (u : EUnit), MonMay s (.monFenceReturn kind index) ∧ MonTakes s m 0x10 ∧ MonTakes s m 0xC020 ∧
      s.get F.rasFenceGo = 0 ∧ kind < 16 ∧ index < 64 ∧ EUnit.ofCode kind index = some u ∧ fenceable u = true ∧ s.integrated u = true ∧
        s.fenced u = true ∧ s.inSeq u = false ∧ u ∈ s.ownFenced) ∧
    (∃ (s : State) (m : Master), MonMay s .monOwnClaim ∧ MonTakes s m 0x1004 ∧ s.get F.ownStatusOwned = 0) :=
  ⟨⟨monitored, 0, 0x1010, 5, row 0x1010, ⟨ok, ⟨ok, ok⟩, .write, false, true, rfl, .inl (ok), ok, ok⟩, ok, ⟨⟨ok, ok, ok, ok, ok⟩, ok, ok, ok, ok⟩, ok, ok, ok⟩,
   ⟨monitored, 0, 1, 31, .tc 31, ⟨ok, ⟨ok, ok⟩, .write, false, true, rfl, .inl (ok), ok, ok⟩, ⟨ok, ⟨ok, ok, ok, ok, ok⟩, ok, ok⟩, ⟨ok, ⟨ok, ok, ok,
     ok, ok⟩, ok, ok⟩,
  ok, ok, ok, ok, ok, ok, ok, nofun, ok, ok⟩,
   ⟨{ monitored.setAll [(F.rasFencedTc, 2 ^ 31)] with ownFenced := [.tc 31] }, 0, 1, 31, .tc 31,
  ⟨ok, ⟨ok, ok⟩, .write, false, true, rfl, .inl (ok), ok, ok⟩, ⟨ok, ⟨ok, ok, ok, ok, ok⟩, ok, ok⟩, ⟨ok, ⟨ok, ok, ok, ok, ok⟩, ok, ok⟩, ok, ok, ok,
    ok, ok, ok, ok, ok, ok⟩,
   ⟨monitored.setAll [(F.ownStatusOwned, 0)], 0, ⟨ok, ⟨ok, ok⟩, .write, false, false, rfl, .inl (ok), ok, ok⟩, ⟨ok, ⟨ok, ok, ok, ok, ok⟩, ok, ok⟩, ok⟩⟩

theorem wit_MonitorResults_d :
    (∃ (s : State) (m : Master), MonMay s .monOwnRelease ∧ MonTakes s m 0x1008) ∧
    (∃ (s : State) (m : Master), MonMay s .monOwnHb ∧ MonTakes s m 0x100C) ∧
    (∃ (s : State) (m : Master) (n : Nat), MonMay s (.monOp n) ∧ MonTakes s m 0x8000) ∧
    (∃ (s : State), MonMay s .monOwnAuth) :=
  ⟨⟨monitored, 0, ⟨ok, ⟨ok, ok⟩, .write, false, true, rfl, .inl (ok), ok, ok⟩, ⟨ok, ⟨ok, ok, ok, ok, ok⟩, ok, ok⟩⟩,
   ⟨monitored, 0, ⟨ok, ⟨ok, ok⟩, .write, false, true, rfl, .inl (ok), ok, ok⟩, ⟨ok, ⟨ok, ok, ok, ok, ok⟩, ok, ok⟩⟩,
   ⟨monitored, 0, 5, ⟨ok, ⟨ok, ok⟩, .write, false, true, rfl, .inl (ok), ok, ok⟩, ⟨ok, ⟨ok, ok, ok, ok, ok⟩, ok, ok⟩⟩,
   ⟨monitored, ⟨ok, ⟨ok, ok⟩, .auth, false, false, rfl, .inl (ok), ok, ok⟩⟩⟩

theorem wit_MonitorResults_e :
    (∃ (s : State) (sig nonce : List Byte), MonMay s (.monOwnAuthSig sig) ∧ s.mgmt.nonce = some nonce) ∧
    (∃ (s : State), MonMay s .monOwnLock) :=
  ⟨⟨managed fun m => { m with running := some 0, nonce := some [] }, List.replicate 64 0, [],
  ⟨ok, ⟨ok, ok⟩, .auth, false, false, rfl, .inl (ok), ok, ok⟩, ok⟩,
   ⟨monitored, ⟨ok, ⟨ok, ok⟩, .auth, false, false, rfl, .inl (ok), ok, ok⟩⟩⟩

/-- A CRC step keeps 32 bits. -/
theorem crc_step (poly c : Nat) (b : Byte) (hp : poly < 2 ^ 32) (hc : c < 2 ^ 32) : crcByteReflected poly c b < 2 ^ 32 := by
  unfold crcByteReflected
  have hb : c ^^^ b.toNat < 2 ^ 32 := Nat.xor_lt_two_pow hc (by have := b.isLt; omega)
  have go : ∀ (l : List Nat) (x : Nat), x < 2 ^ 32 → l.foldl (fun c _ => if c % 2 = 1 then (c >>> 1) ^^^ poly else c >>> 1) x < 2 ^ 32 := by
    intro l
    induction l with
    | nil => intro x hx; exact hx
    | cons y l ih =>
      intro x hx
      have hs : x >>> 1 < 2 ^ 32 := by rw [Nat.shiftRight_eq_div_pow]; omega
      rw [List.foldl_cons]
      refine ih _ ?_
      split
      · exact Nat.xor_lt_two_pow hs hp
      · exact hs
  exact go _ _ hb

/-- A CRC-32C is a 32-bit value. -/
theorem crc_lt (l : List Byte) : crc32c l < 2 ^ 32 := by
  have go : ∀ (l : List Byte) (x : Nat), x < 2 ^ 32 → l.foldl (crcByteReflected 0x82F63B78) x < 2 ^ 32 := by
    intro l
    induction l with
    | nil => intro x hx; exact hx
    | cons b l ih => intro x hx; exact ih _ (crc_step _ x b (by decide) hx)
  exact Nat.xor_lt_two_pow (go l _ (by decide)) (by decide)

/-- A packet with its CRC. -/
def withCrc (k : Packet) : Packet := { k with crc := BitVec.ofNat 32 (packetCrc k) }

/-- A packet of a fitting length is good with its CRC. -/
theorem good_of (k : Packet) (h : (k.len.toNat ≤ 40 && k.payload.length == 32 * k.len.toNat && k.credits.length == 8) = true) :
    packetGood (withCrc k) = true := by
  have hc : packetCrc (withCrc k) = packetCrc k := rfl
  have ht : (withCrc k).crc.toNat = packetCrc (withCrc k) := by
    rw [hc]
    exact (BitVec.toNat_ofNat _ _).trans (Nat.mod_eq_of_lt (crc_lt _))
  unfold packetGood
  rw [ht, beq_self_eq_true, Bool.and_true]
  exact h
/-- A packet of type `t` from node `src` for node `dst` with ARG and payload, SEQ 0 and ACK 7. -/
def pk (t : Byte) (dst src : BitVec 12) (arg : DWord) (pay : List Byte) : Packet :=
  withCrc
    { typ := t, cls := 1, rsp := false, svc := 0, len := BitVec.ofNat 8 (pay.length / 32), hops := 0, dst := dst, src := src, seq := 0, ack := 7,
      credits := List.replicate 8 0, arg := arg, crc := 0, payload := pay }

/-- Node 5 with port 0, to node 9, in state `st` and port 1, to node 10, up. -/
def linked (st : Nat) : State :=
  withRegs [(F.plkNode, 5), (F.plkEn, 255), (F.plkPortState 0, st), (F.plkPortState 1, 3), (F.plkPortPartner 0, 9), (F.plkPortPartner 1, 10),
    (F.plkRoute 1, 0x980)]

/-- The same with port 0 as given. -/
def withPort (p : PlkPort) : State := { linked 3 with plk := { base.plk with ports := p :: List.replicate 7 PlkPort.init } }

/-- The same with the peer link's data set by `f`. -/
def withPlk (f : Plk → Plk) : State := { linked 3 with plk := f base.plk }

/-- A request of class `c` and type `n` of node 10 for node `d`. -/
def ask (n : Nat) (c : Fin 4) (d : BitVec 12) : Packet := withCrc { pk (BitVec.ofNat 8 n) d 10 0 [] with cls := c }

/-- The types of sequenced packets are bytes. -/
theorem sequenced_typ : ∀ n ∈ sequenced.map Prod.fst, (BitVec.ofNat 8 n : Byte).toNat = n := by decide

/-- The pair. -/
def aPair : GuestPair :=
  { key := pairKey 10 7 false, cls := 1, dead := [], origin := 10, handle := 7, chain := 0, stage := 1, asAddr := 0x3000, asDesc := structDesc,
    ksAddr := 0x3000, ksDesc := [], gone := false }

/-- A dispatch whose treelet 0 has node 10 as HOME, with the rays given. -/
def awayState (c : Chain) (d : Dispatch) (l : List Ray) : State :=
  { linked 3 with active := some (imageWith c), disps := [d], rays := l, nextRay := 9, plk := { base.plk with pairs := [aPair] },
                  mem := putBytes [] 0x10000 (block 16 [(0, 8, 0x20000), (8, 2, 16), (10, 2, 0x800A), (12, 1, 1)]) }

/-- A ray that has gone to node 10. -/
def awayRay : Ray := { aRay with loc := .remote }

/-- Its engine. -/
def away : State := awayState travChain (travDisp []) [awayRay]

/-- The origin block of item 4 of handle 7 of node 10, under image 7, for generation `g`, and a ray. -/
def guestBytes (g : Nat) : List Byte := block 32 [(0, 2, 10), (2, 2, 7), (4, 4, 4), (10, 1, 1), (12, 4, 7), (16, 4, g)] ++ rayBytes

/-- A pair's known guests: treelet 0 is at home. -/
def hosting : State :=
  { away with rays := [], disps := [], mem := putBytes [] 0x10000 (block 16 [(0, 8, 0x20000), (8, 2, 16), (12, 1, 1)]) }

/-- A guest that has been passed on to node 10. -/
def passedOn : Ray :=
  { awayRay with disp := pairKey 10 7 false,
                 guest := some { origin := 10, handle := 7, gen := 0, chain := 0, asGen := 3, intake := 0, imageLo := 7 } }

/-- A query that has gone to node 10. -/
def awayQuery : Ray := { aQuery with loc := .remote }

/-- An image whose array 0 holds one tile of model 0 at place 4095. -/
def mcImage : Image :=
  { imageWith travChain with placeA := [{ model := 0, layer := 0, place := 4095, tiles := 1 }] }

/-- The engine with that image, the places of Weight Store half 0 that have arrived, and model 0 taken by multicast. -/
def casting (l : List Nat) : State :=
  { withPlk fun p => { p with mcast := [{ model := 0, source := 10, parts := [] }] } with
    active := some mcImage, ws := [{ bytes := [], arrived := l, tiles := [] }, WStore.init] }

/-- An RREAD of 20 sectors by node 10. -/
def aRead20 : Packet := pk 0x20 5 10 3 (block 32 [(0, 8, 0x20000), (8, 1, 19)])

theorem wit_LinkStateResults_a :
    (∃ (s : State) (port : Fin 8), s.canonical = true ∧ s.plkHears port.val = true ∧ s.plkState port.val = 1 ∧ s.resetting = none) ∧
    (∃ (s : State) (port : Fin 8), s.plkState port.val ≠ 1) ∧
    (∃ (s : State) (port : Fin 8) (k : Packet), Hears s port k 1 ∧ s.plkState port.val = 1) ∧
    (∃ (s : State) (port : Fin 8) (k : Packet), Hears s port k 1 ∧ s.plkState port.val = 2 ∧ (¬duplicate s port (k.arg.toNat % 4096))) :=
  ⟨⟨linked 1, 0, ok, ok, ok, ok⟩,
   ⟨linked 3, 0, ok⟩,
   ⟨linked 1, 0, pk 1 5 9 9 [], ⟨ok, ok, ok, ok, good_of _ (ok), ok⟩, ok⟩,
   ⟨linked 2, 0, pk 1 5 9 9 [], ⟨ok, ok, ok, ok, good_of _ (ok), ok⟩, ok, fun h => h.elim (ok) fun ⟨q, a, b, c, e⟩ =>
  (ok : ∀ q, q < 8 → q ≠ 0 → (linked 2).plkState q = 3 → (linked 2).get (F.plkPortPartner q) ≠ (pk 1 5 9 9 []).arg.toNat % 4096) q a b c e⟩⟩

theorem wit_LinkStateResults_b :
    (∃ (s : State) (port : Fin 8) (k : Packet), Hears s port k 1 ∧ s.plkState port.val = 2 ∧ duplicate s port (k.arg.toNat % 4096)) ∧
    (∃ (s : State) (port : Fin 8) (k : Packet), Hears s port k 1 ∧ s.plkState port.val = 3) ∧
    (∃ (s : State) (port : Fin 8) (k : Packet), Hears s port k 2 ∧ s.plkState port.val = 2) ∧
    (∃ (s : State) (port : Fin 8) (k : Packet), Hears s port k 2 ∧ s.plkState port.val = 3 ∧ Unloaded s ∧ s.rays = []) :=
  ⟨⟨linked 2, 0, pk 1 5 9 5 [], ⟨ok, ok, ok, ok, good_of _ (ok), ok⟩, ok, .inl (ok)⟩,
   ⟨linked 3, 0, pk 1 5 9 9 [], ⟨ok, ok, ok, ok, good_of _ (ok), ok⟩, ok⟩,
   ⟨linked 2, 0, pk 2 5 9 9 [], ⟨ok, ok, ok, ok, good_of _ (ok), ok⟩, ok⟩,
   ⟨linked 3, 0, pk 2 5 9 9 [], ⟨ok, ok, ok, ok, good_of _ (ok), ok⟩, ok, ⟨⟨ok, ok, ok⟩, ok, ok⟩, ok⟩⟩

theorem wit_LinkStateResults_c : ∃ (s : State) (port : Fin 8) (k : Packet) (r : Ray) (n q : Nat), Hears s port k 2 ∧ s.plkState port.val = 3 ∧
  AwayRay s r n ∧ n ≠ s.get (F.plkPortPartner port.val) ∧ s.plk.lost.contains n = false ∧ OpenPath s n q ∧ q ≠ port.val :=
  ⟨away, 0, pk 2 5 9 9 [], awayRay, 10, 1, ⟨ok, ok, ok, ok, good_of _ (ok), ok⟩, ok, ⟨⟨⟨ok, ok, ok⟩, ok, ok⟩, ok, ⟨ok, ok, ok, ok⟩, ok⟩, ok, ok, ⟨ok,
    ok, ok, ok, ok, ok, ok, ok⟩, ok⟩

theorem wit_LinkRetryResults_a :
    (∀ e ∈ ([(4, 0, .plkAckTimer), (3, 1, .plkKeepaliveSend)] : List (Nat × Nat × (Fin 8 →
      Instr))), ∃ (s : State) (port : Fin 8), s.canonical = true ∧ s.plkUp port.val = true ∧ s.plk.laneDown.contains port.val = false ∧ s.resetting = none) ∧
    (∃ (s : State) (port : Fin 8), (s.plkUp port.val = false ∨ s.plk.laneDown.contains port.val = true)) ∧
    (∀ e ∈ ([(4, .plkAck), (3, .plkKeepalive)] : List (Nat × (Fin 8 → Packet → Instr))), ∃ (s : State) (port : Fin 8) (k : Packet), Hears s port k e.1) ∧
    (∃ (s : State) (port : Fin 8) (k : Packet) (a b : List Packet), Hears s port k 5 ∧ s.plkState port.val = 3 ∧
      (s.plkPort port.val).replay = a ++ b ∧ (∃ x l, b = x :: l ∧ x.seq = k.ack) ∧ (∀ y ∈ a, y.seq ≠ k.ack) ∧
        (∀ y ∈ b, y.seq.toNat ≠ (k.ack.toNat + 4095) % 4096) ∧ (∀ n, (s.plkPort port.val).nak = some (k.ack.toNat, n) → n < 15)) :=
  ⟨fun _ _ => ⟨linked 3, 1, ok, ok, ok, ok⟩,
   ⟨linked 2, 0, .inl (ok)⟩,
   fun e h => by
  rcases List.mem_cons.1 h with rfl | h
  · exact ⟨linked 3, 0, pk 4 5 9 0 [], ⟨ok, ok, ok, ok, good_of _ (ok), ok⟩⟩
  · rcases List.mem_cons.1 h with rfl | h
    · exact ⟨linked 3, 0, pk 3 5 9 0 [], ⟨ok, ok, ok, ok, good_of _ (ok), ok⟩⟩
    · exact absurd h List.not_mem_nil,
   ⟨withPort { PlkPort.init with replay := [{ pk 0x42 9 5 0 [] with seq := 6 }, { pk 0x42 9 5 0 [] with seq := 7 }] }, 0, pk 5 5 9 0 [],
  [{ pk 0x42 9 5 0 [] with seq := 6 }], [{ pk 0x42 9 5 0 [] with seq := 7 }], ⟨ok, ok, ok, ok, good_of _ (ok), ok⟩, ok, ok, ⟨_, _, rfl, ok⟩, ok, ok,
  fun n h => absurd (show (none : Option (Nat × Nat)) = some _ from h) nofun⟩⟩

theorem wit_LinkRetryResults_b :
    (∃ (s : State) (port : Fin 8) (k : Packet), Hears s port k 5 ∧ s.plkUp port.val = true ∧ Unloaded s ∧ s.rays = [] ∧
      (s.plkPort port.val).nak = some (k.ack.toNat, 15) ∧ MayFence s (.plk port)) ∧
    (∃ (s : State) (port : Fin 8) (k : Packet), s.canonical = true ∧ s.plkHears port.val = true ∧ port.val < s.plk.ports.length ∧
      (s.plkPort port.val).queue = [] ∧ s.plkState port.val = 3 ∧ linkType k.typ.toNat = false ∧
        (packetGood k = false ∨ k.seq.toNat ≠ (s.plkPort port.val).rxSeq)) ∧
    (∃ (s : State) (port : Fin 8) (k : Packet), Hears s port k k.typ.toNat ∧ listedType k.typ.toNat = false ∧ s.plkState port.val = 3 ∧
      k.seq.toNat = (s.plkPort port.val).rxSeq) ∧
    (∃ (s : State) (port : Fin 8), port.val < s.integ.plkPorts) :=
  ⟨⟨withPort { PlkPort.init with nak := some (7, 15) }, 0, pk 5 5 9 0 [], ⟨ok, ok, ok, ok, good_of _ (ok), ok⟩, ok, ⟨⟨ok, ok, ok⟩, ok, ok⟩, ok, ok,
    ⟨ok, ok, ok, ok⟩⟩,
   ⟨linked 3, 0, { pk 0x42 5 9 0 [] with crc := 0 }, ok, ok, ok, ok, ok, ok, .inl (ok)⟩,
   ⟨linked 3, 0, pk 0x7F 5 9 0 [], ⟨ok, ok, ok, ok, good_of _ (ok), ok⟩, ok, ok, ok⟩,
   ⟨linked 3, 7, ok⟩⟩

theorem wit_LinkRetryResults_c :
    (∃ (s : State) (port : Fin 8), port.val < s.integ.plkPorts ∧ (s.plkPort port.val).queue = []) ∧
    (∃ (s : State) (port : Fin 8) (x : TxPacket), s.canonical = true ∧ port.val < s.plk.ports.length ∧ s.plkUp port.val = true ∧ s.resetting = none ∧
      (s.plkPort port.val).queue = [x] ∧ (s.plkPort port.val).hasCredit x.pkt = true ∧ (s.plkPort port.val).hasReplay x.pkt = true) :=
  ⟨⟨linked 3, 7, ok, ok⟩,
   ⟨withPort { PlkPort.init with queue := [⟨pk 0x42 9 5 0 [], none⟩] }, 0, ⟨pk 0x42 9 5 0 [], none⟩, ok, ok, ok, ok, ok, ok, ok⟩⟩

theorem wit_ForwardingResults :
    (∀ e ∈ sequenced, ∃ (s : State) (port : Fin 8) (k : Packet) (q : Nat), Accepts s port k e.1 ∧ k.dst.toNat ≠ s.get F.plkNode ∧
      k.hops.toNat + 1 ≤ s.get F.plkCfgHopLimit ∧ OpenPath s k.dst.toNat q) ∧
    (∀ e ∈ sequenced, ∃ (s : State) (port : Fin 8) (k : Packet), Accepts s port k e.1 ∧ k.dst.toNat ≠ s.get F.plkNode ∧
      (s.get F.plkCfgHopLimit < k.hops.toNat + 1 ∨ s.routePort k.dst.toNat = none) ∧ (k.rsp = true ∨ k.cls = 0)) ∧
    (∀ e ∈ sequenced, ∃ (s : State) (port : Fin 8) (k : Packet) (q : Nat), Accepts s port k e.1 ∧ k.dst.toNat ≠ s.get F.plkNode ∧
      (s.get F.plkCfgHopLimit < k.hops.toNat + 1 ∨ s.routePort k.dst.toNat = none) ∧ k.rsp = false ∧ k.cls ≠ 0 ∧ k.src.toNat ≠ s.get F.plkNode ∧
        OpenPath s k.src.toNat q) :=
  ⟨fun e h =>
  have hn := sequenced_typ e.1 (List.mem_map_of_mem h)
  ⟨linked 3, 0, ask e.1 1 10, 1, ⟨⟨ok, ok, ok, ok, good_of _ rfl, hn⟩, ok, rfl, ok⟩, (show (10 : Nat) ≠ (linked 3).get F.plkNode from ok),
    (show 0 + 1 ≤ (linked 3).get F.plkCfgHopLimit from ok), (show OpenPath (linked 3) 10 1 from ⟨ok, ok, ok, ok, ok, ok, ok, ok⟩)⟩,
   fun e h =>
  have hn := sequenced_typ e.1 (List.mem_map_of_mem h)
  ⟨linked 3, 0, ask e.1 0 77, ⟨⟨ok, ok, ok, ok, good_of _ rfl, hn⟩, ok, rfl, ok⟩, (show (77 : Nat) ≠ (linked 3).get F.plkNode from ok),
    .inr (show (linked 3).routePort 77 = none from ok), .inr rfl⟩,
   fun e h =>
  have hn := sequenced_typ e.1 (List.mem_map_of_mem h)
  ⟨linked 3, 0, ask e.1 1 77, 1, ⟨⟨ok, ok, ok, ok, good_of _ rfl, hn⟩, ok, rfl, ok⟩, (show (77 : Nat) ≠ (linked 3).get F.plkNode from ok),
    .inr (show (linked 3).routePort 77 = none from ok), rfl, (show (1 : Fin 4) ≠ 0 from ok), (show (10 : Nat) ≠ (linked 3).get F.plkNode from ok),
    (show OpenPath (linked 3) 10 1 from ⟨ok, ok, ok, ok, ok, ok, ok, ok⟩)⟩⟩

theorem wit_PeerItemResults_a :
    (∃ (query : Bool) (s : State) (port : Fin 8) (k : Packet) (p : GuestPair) (g : Stage) (d : List Byte) (q : Nat), Guest s port k query p g d ∧
      part k 16 4 = descGen d ∧ p.dead = [] ∧ p.gone = false ∧ s.ttReach p.key d (refTreelet (descRoot d)) = true ∧ s.noCluster g = false ∧
        ttRemote (s.ttEntry d (refTreelet (descRoot d))) = false ∧ OpenPath s k.src.toNat q) ∧
    (∃ (s : State) (port : Fin 8) (k : Packet) (p : GuestPair) (g : Stage) (d : List Byte) (q : Nat), Guest s port k false p g d ∧
      (p.gone = true ∨ part k 16 4 ≠ descGen d) ∧ part k 0 2 % 4096 ≠ s.get F.plkNode ∧ s.overflow = [] ∧ OpenPath s (part k 0 2 % 4096) q) ∧
    (∃ (s : State) (port : Fin 8) (k : Packet), let key := pairKey (part k 0 2 % 4096) (part k 2 2) false;
      let a := 64 * s.get F.plkGuestBaseLo + 2 ^ 32 * s.get F.plkGuestBaseHi + 16 * part k 9 1; Consumes s port k 0x10 ∧ k.len.toNat = 3 ∧
        s.pair key = none ∧ s.guestRoom false k = true ∧ s.plk.aborted = [] ∧ part k 0 2 % 4096 ≠ s.get F.plkNode) ∧
    (∃ (query : Bool) (s : State) (port : Fin 8) (k : Packet), k.typ.toNat = (if query then 0x13 else 0x10) ∧ s.guestRoom query k = false) :=
  ⟨⟨false, hosting, 0, pk 0x10 5 10 0 (guestBytes 3), aPair, stageOf 3 0 255, structDesc, 1,
  ⟨⟨⟨⟨ok, ok, ok, ok, good_of _ (ok), ok⟩, ok, ok, ok⟩, ok⟩, ⟨ok, ok, ok⟩, ⟨_, rfl, ok⟩, ok, ok, ok, rfl⟩, ok, ok, ok, ok, ok, ok, ⟨ok, ok, ok, ok,
    ok, ok, ok, ok⟩⟩,
   ⟨hosting, 0, pk 0x10 5 10 0 (guestBytes 2), aPair, stageOf 3 0 255, structDesc, 1,
  ⟨⟨⟨⟨ok, ok, ok, ok, good_of _ (ok), ok⟩, ok, ok, ok⟩, ok⟩, ⟨ok, ok, ok⟩, ⟨_, rfl, ok⟩, ok, ok, ok, rfl⟩, .inr (ok), ok, ok, ⟨ok, ok, ok, ok, ok, ok, ok, ok⟩⟩,
   ⟨{ hosting with plk := { hosting.plk with pairs := [] } }, 0, pk 0x10 5 10 0 (guestBytes 3), ⟨⟨⟨ok, ok, ok, ok, good_of _ (ok), ok⟩, ok, ok, ok⟩,
     ok⟩, ok, ok, ok, ok, ok⟩,
   ⟨false, hosting, 0, pk 0x10 5 10 0 [], ok, ok⟩⟩

theorem wit_PeerItemResults_b :
    (∃ (s : State) (port : Fin 8) (k : Packet) (r : Ray) (g : GuestItem), Consumes s port k 0x11 ∧ r ∈ s.rays ∧ r.loc = .remote ∧ r.guest = some g ∧
      guestArg g.handle r.item g.gen = k.arg.toNat % 2 ^ 56 ∧ s.awayNode r = some k.src.toNat ∧
        (∀ x ∈ s.rays, x.loc = .remote → x.guest ≠ none → x = r) ∧ s.overflow = []) ∧
    (∃ (s : State) (port : Fin 8) (k : Packet), Consumes s port k 0x11 ∧ (∀ r ∈ s.rays, r.guest = none)) ∧
    (∃ (s : State) (port : Fin 8) (k : Packet) (r : Ray) (d : Dispatch), Consumes s port k 0x12 ∧ Awaits s r false k.arg.toNat ∧ LastOut s r d ∧
      FinalStage s r) ∧
    (∃ (s : State) (port : Fin 8) (k : Packet) (r : Ray) (d : Dispatch) (g : Stage), Consumes s port k 0x14 ∧ Awaits s r true k.arg.toNat ∧
      LastOut s r d ∧ FinalStage s r ∧ s.rayStage r = some g ∧ (s.qryOf g).output ≠ 1 ∧ 32 ≤ k.payload.length ∧ part k 13 1 = 0) :=
  ⟨⟨awayState travChain (travDisp []) [passedOn], 0, pk 0x11 5 10 7 [], passedOn, _, ⟨⟨⟨ok, ok, ok, ok, good_of _ (ok), ok⟩, ok, ok, ok⟩, ok⟩, ok,
    ok, rfl, ok, ok, ok, ok⟩,
   ⟨linked 3, 0, pk 0x11 5 10 7 [], ⟨⟨⟨ok, ok, ok, ok, good_of _ (ok), ok⟩, ok, ok, ok⟩, ok⟩, ok⟩,
   ⟨away, 0, pk 0x12 5 10 0 (block 32 []), awayRay, travDisp [], ⟨⟨⟨ok, ok, ok, ok, good_of _ (ok), ok⟩, ok, ok, ok⟩, ok⟩, ⟨⟨ok, ok, ok, ok, ok⟩, ok,
     ok⟩, ⟨⟨ok, ok⟩, ok, ⟨ok, ok⟩⟩, ⟨stageOf 3 0 255, ok, ok, ok⟩⟩,
   ⟨awayState lastChain (qryDisp 1 (some keyDesc) []) [awayQuery], 0, pk 0x14 5 10 0 (block 32 []), awayQuery, qryDisp 1 (some keyDesc) [], stageOf 4 0 255,
  ⟨⟨⟨ok, ok, ok, ok, good_of _ (ok), ok⟩, ok, ok, ok⟩, ok⟩, ⟨⟨ok, ok, ok, ok, ok⟩, ok, ok⟩, ⟨⟨ok, ok⟩, ok, ⟨ok, ok⟩⟩, ⟨stageOf 4 0 255, ok, ok, ok⟩,
    ok, ok, ok, ok⟩⟩

theorem wit_PeerItemResults_c :
    (∀ e ∈ ([(0x12, false, .plkHit), (0x14, true, .plkQres)] : List (Nat × Bool × (Fin 8 → Packet →
      Instr))), ∃ (s : State) (port : Fin 8) (k : Packet), Consumes s port k e.1 ∧ Unknown s e.2.1 k.arg.toNat) ∧
    (∃ (s : State) (port : Fin 8) (k : Packet) (r : Ray) (d : Dispatch), Consumes s port k 0x15 ∧ part k 0 1 = 0x10 ∧ Awaits s r false k.arg.toNat ∧
      LastOut s r d ∧ FinalStage s r) ∧
    (∃ (s : State) (port : Fin 8) (k : Packet), Consumes s port k 0x15 ∧ part k 0 1 ≠ 0x10 ∧ part k 0 1 ≠ 0x13 ∧ part k 0 1 ≠ 0x20) :=
  ⟨fun e h => by
  rcases List.mem_cons.1 h with rfl | h
  · exact ⟨linked 3, 0, pk 0x12 5 10 0 [], ⟨⟨⟨ok, ok, ok, ok, good_of _ (ok), ok⟩, ok, ok, ok⟩, ok⟩, fun _ h => absurd h List.not_mem_nil⟩
  · rcases List.mem_cons.1 h with rfl | h
    · exact ⟨linked 3, 0, pk 0x14 5 10 0 [], ⟨⟨⟨ok, ok, ok, ok, good_of _ (ok), ok⟩, ok, ok, ok⟩, ok⟩, fun _ h => absurd h List.not_mem_nil⟩
    · exact absurd h List.not_mem_nil,
   ⟨away, 0, pk 0x15 5 10 0 (block 32 [(0, 1, 0x10)]), awayRay, travDisp [], ⟨⟨⟨ok, ok, ok, ok, good_of _ (ok), ok⟩, ok, ok, ok⟩, ok⟩, ok, ⟨⟨ok, ok,
     ok, ok, ok⟩, ok, ok⟩, ⟨⟨ok, ok⟩, ok, ⟨ok, ok⟩⟩,
  ⟨stageOf 3 0 255, ok, ok, ok⟩⟩,
   ⟨linked 3, 0, pk 0x15 5 10 0 [], ⟨⟨⟨ok, ok, ok, ok, good_of _ (ok), ok⟩, ok, ok, ok⟩, ok⟩, ok, ok, ok⟩⟩

theorem wit_RemoteWindowResults_a :
    (∃ (s : State) (port : Fin 8) (k : Packet) (q : Nat), Consumes s port k 0x20 ∧ OpenPath s k.src.toNat q ∧ part k 8 1 < 20 ∧
      s.readable (servedAccess k) (part k 0 8) (64 * (part k 8 1 + 1)) .ok = true ∧ servedAccess k ∉ s.plk.aborted) ∧
    (∃ (s : State) (port : Fin 8) (k : Packet) (q : Nat), Consumes s port k 0x20 ∧ OpenPath s k.src.toNat q ∧ s.waits (servedAccess k) = false) ∧
    (∃ (s : State) (port : Fin 8) (k : Packet) (q : Nat) (o : ReadOutcome), Consumes s port k 0x20 ∧ OpenPath s k.src.toNat q ∧
      s.waits (servedAccess k) = false ∧ servedAccess k ∈ s.plk.aborted) ∧
    (∃ (s : State) (port : Fin 8) (k : Packet) (q : Nat), Consumes s port k 0x20 ∧ OpenPath s k.src.toNat q ∧ part k 8 1 < 20 ∧
      s.readable (servedAccess k) (part k 0 8) (64 * (part k 8 1 + 1)) .unc = true ∧ servedAccess k ∉ s.plk.aborted) :=
  ⟨⟨linked 3, 0, aRead20, 1, ⟨⟨⟨ok, ok, ok, ok, good_of _ (ok), ok⟩, ok, ok, ok⟩, ok⟩, ⟨ok, ok, ok, ok, ok, ok, ok, ok⟩, ok, ok, ok⟩,
   ⟨linked 3, 0, aRead20, 1, ⟨⟨⟨ok, ok, ok, ok, good_of _ (ok), ok⟩, ok, ok, ok⟩, ok⟩, ⟨ok, ok, ok, ok, ok, ok, ok, ok⟩, ok⟩,
   ⟨withPlk fun p => { p with aborted := [servedAccess aRead20] }, 0, aRead20, 1, .ok, ⟨⟨⟨ok, ok, ok, ok, good_of _ (ok), ok⟩, ok, ok, ok⟩, ok⟩, ⟨ok,
     ok, ok, ok, ok, ok, ok, ok⟩, ok, ok⟩,
   ⟨linked 3, 0, aRead20, 1, ⟨⟨⟨ok, ok, ok, ok, good_of _ (ok), ok⟩, ok, ok, ok⟩, ok⟩, ⟨ok, ok, ok, ok, ok, ok, ok, ok⟩, ok, ok, ok⟩⟩

theorem wit_RemoteWindowResults_b :
    (∃ (s : State) (port : Fin 8) (k : Packet) (o : ReadOutcome), k.dst.toNat = s.get F.plkNode ∧ s.waits (servedAccess k) = true) ∧
    (∃ (s : State) (port : Fin 8) (k : Packet) (x : RRead), Consumes s port k 0x21 ∧ x ∈ s.plk.rreads ∧ (∀ y ∈ s.plk.rreads, y.tag = x.tag → y = x) ∧
      k.arg.toNat % 2 ^ 32 = x.tag ∧ k.arg.toNat / 2 ^ 32 % 256 = 0 ∧ 64 * x.sectors ≤ k.payload.length) ∧
    (∃ (s : State) (port : Fin 8) (k : Packet), Consumes s port k 0x21 ∧ (∀ x ∈ s.plk.rreads, x.tag ≠ k.arg.toNat % 2 ^ 32)) :=
  ⟨⟨{ linked 3 with fwaits := [{ armWait with acc := servedAccess aRead20 }] }, 0, aRead20, .ok, ok, ok⟩,
   ⟨withPlk fun p => { p with rreads := [{ tag := 3, node := 10, addr := 0x20000, sectors := 2, cls := 1, acc := .treelet 0 }] }, 0,
  pk 0x21 5 10 3 (block 128 []), { tag := 3, node := 10, addr := 0x20000, sectors := 2, cls := 1, acc := .treelet 0 }, ⟨⟨⟨ok, ok, ok, ok,
    good_of _ (ok), ok⟩, ok, ok, ok⟩, ok⟩, ok, ok, ok, ok, ok⟩,
   ⟨linked 3, 0, pk 0x21 5 10 3 (block 128 []), ⟨⟨⟨ok, ok, ok, ok, good_of _ (ok), ok⟩, ok, ok, ok⟩, ok⟩, ok⟩⟩

theorem wit_PeerLossResults :
    (∃ (s : State) (port : Fin 8), s.plkUp port.val = true ∧ port.val < s.plk.ports.length ∧ (s.plkPort port.val).queue = [] ∧ Unloaded s ∧
      s.rays = [] ∧ MayFence s (.plk port)) ∧
    (∃ (s : State) (port : Fin 8), s.plkUp port.val = false) ∧
    (∃ (s : State) (port : Fin 8) (k : Packet), Consumes s port k 0x44 ∧ Unloaded s ∧ s.rays = []) ∧
    (∃ (s : State) (port : Fin 8) (k : Packet) (r : Ray) (d : Dispatch), Consumes s port k 0x44 ∧ AwayRay s r (k.arg.toNat % 4096) ∧ LastOut s r d ∧
      FinalStage s r ∧ k.arg.toNat % 4096 ∉ s.plk.lost) ∧
    (∃ (s : State) (port : Fin 8) (k : Packet) (r : Ray) (n q : Nat), Consumes s port k 0x44 ∧ AwayRay s r n ∧ n ≠ k.arg.toNat % 4096 ∧
      k.arg.toNat % 4096 ∉ s.plk.lost ∧ n ∉ s.plk.lost ∧ OpenPath s n q) :=
  ⟨⟨linked 3, 0, ok, ok, ok, ⟨⟨ok, ok, ok⟩, ok, ok⟩, ok, ⟨ok, ok, ok, ok⟩⟩,
   ⟨linked 2, 0, ok⟩,
   ⟨linked 3, 0, pk 0x44 5 9 77 [], ⟨⟨⟨ok, ok, ok, ok, good_of _ (ok), ok⟩, ok, ok, ok⟩, ok⟩, ⟨⟨ok, ok, ok⟩, ok, ok⟩, ok⟩,
   ⟨away, 0, pk 0x44 5 9 10 [], awayRay, travDisp [], ⟨⟨⟨ok, ok, ok, ok, good_of _ (ok), ok⟩, ok, ok, ok⟩, ok⟩, ⟨⟨⟨ok, ok, ok⟩, ok, ok⟩, ok, ⟨ok, ok,
     ok, ok⟩, ok⟩, ⟨⟨ok, ok⟩, ok, ⟨ok, ok⟩⟩, ⟨stageOf 3 0 255, ok, ok, ok⟩, ok⟩,
   ⟨away, 0, pk 0x44 5 9 77 [], awayRay, 10, 1, ⟨⟨⟨ok, ok, ok, ok, good_of _ (ok), ok⟩, ok, ok, ok⟩, ok⟩, ⟨⟨⟨ok, ok, ok⟩, ok, ok⟩, ok, ⟨ok, ok, ok,
     ok⟩, ok⟩, ok, ok, ok, ⟨ok, ok, ok, ok, ok, ok, ok, ok⟩⟩⟩

theorem wit_MulticastResults_a :
    (∃ (s : State) (port : Fin 8) (k : Packet) (q : Nat), Consumes s port k 0x30 ∧ OpenPath s k.src.toNat q ∧
      (∀ im, s.active = some im → k.arg.toNat % 2 ^ 32 ≠ im.id % 2 ^ 32 ∨ ∀ h, h < 2 → im.placesOf h (k.arg.toNat / 2 ^ 32 % 65536) = [])) ∧
    (∃ (s : State) (port : Fin 8) (k : Packet) (im : Image), Consumes s port k 0x30 ∧ s.active = some im ∧ k.arg.toNat % 2 ^ 32 = im.id % 2 ^ 32 ∧
      (∃ h p, h < 2 ∧ p ∈ im.placesOf h (k.arg.toNat / 2 ^ 32 % 65536) ∧ s.placeHeld h p = false) ∧ s.plk.mcWait = []) ∧
    (∃ (s : State) (port : Fin 8) (k : Packet) (im : Image) (q h p : Nat) (w : WStore), Consumes s port k 0x30 ∧ OpenPath s k.src.toNat q ∧
      s.active = some im ∧ k.arg.toNat % 2 ^ 32 = im.id % 2 ^ 32 ∧ s.plk.mcWait = [] ∧ h < 2 ∧ p < 4096 ∧ s.ws[h]? = some w ∧
        im.placesOf h (k.arg.toNat / 2 ^ 32 % 65536) = [p] ∧ im.placesOf (1 - h) (k.arg.toNat / 2 ^ 32 % 65536) = [] ∧ s.placeHeld h p = true) ∧
    (∃ (s : State) (port : Fin 8) (k : Packet) (im : Image) (h p i : Nat) (w : WStore), Consumes s port k 0x31 ∧ s.active = some im ∧
      k.arg.toNat % 2 ^ 32 = im.id % 2 ^ 32 ∧ k.payload.length = 256 ∧ p = k.arg.toNat / 2 ^ 32 % 4096 ∧ h = k.arg.toNat / 2 ^ 44 % 2 ∧
        i = k.arg.toNat / 2 ^ 45 % 256 ∧ s.ws[h]? = some w) :=
  ⟨⟨linked 3, 0, pk 0x30 5 10 8 [], 1, ⟨⟨⟨ok, ok, ok, ok, good_of _ (ok), ok⟩, ok, ok, ok⟩, ok⟩, ⟨ok, ok, ok, ok, ok, ok, ok, ok⟩, nofun⟩,
   ⟨casting [], 0, pk 0x30 5 10 7 [], mcImage, ⟨⟨⟨ok, ok, ok, ok, good_of _ (ok), ok⟩, ok, ok, ok⟩, ok⟩, ok, ok, ⟨0, 4095, ok, ok, ok⟩, ok⟩,
   ⟨casting [4095], 0, pk 0x30 5 10 7 [], mcImage, 1, 0, 4095, _, ⟨⟨⟨ok, ok, ok, ok, good_of _ (ok), ok⟩, ok, ok, ok⟩, ok⟩, ⟨ok, ok, ok, ok, ok, ok,
     ok, ok⟩, ok, ok, ok, ok, ok, rfl, ok, ok, ok⟩,
   ⟨casting [], 0, pk 0x31 5 10 (BitVec.ofNat 64 (7 + 2 ^ 32 * 4095 + 2 ^ 45 * 255)) (block 256 []), mcImage, 0, 4095, 255, _, ⟨⟨⟨ok, ok, ok, ok,
     good_of _ (ok), ok⟩, ok, ok, ok⟩, ok⟩, ok, ok, ok, ok, ok, ok, rfl⟩⟩

theorem wit_MulticastResults_b :
    (∃ (s : State) (port : Fin 8) (k : Packet) (im : Image), Consumes s port k 0x32 ∧ s.active = some im ∧
      (∃ m ∈ s.plk.mcast, m.model = k.arg.toNat / 2 ^ 32 % 65536)) ∧
    (∃ (s : State) (im : Image) (model : Nat), s.canonical = true ∧ s.active = some im ∧ (∃ m ∈ s.plk.mcast, m.model = model)) ∧
    (∃ (s : State) (model : Nat), (∀ m ∈ s.plk.mcast, m.model ≠ model)) :=
  ⟨⟨casting [], 0, pk 0x32 5 10 7 [], mcImage, ⟨⟨⟨ok, ok, ok, ok, good_of _ (ok), ok⟩, ok, ok, ok⟩, ok⟩, ok, { model := 0, source := 10, parts := [] }, ok, ok⟩,
   ⟨casting [], mcImage, 0, ok, ok, { model := 0, source := 10, parts := [] }, ok, ok⟩,
   ⟨base, 0, ok⟩⟩

theorem wit_EventAndTelemetryResults_a :
    (∃ (s : State) (port : Fin 8) (k : Packet), Consumes s port k 0x40) ∧
    (∃ (s : State) (port : Fin 8) (k : Packet), Hears s port k 0x40 ∧ s.plkState port.val = 3 ∧ k.seq.toNat = (s.plkPort port.val).rxSeq ∧
      k.dst.toNat = s.get F.plkNode ∧ s.get F.cpLpStatusState = 2 ∧ s.get F.cpLpCtrlPeer = 1) ∧
    (∃ (s : State) (m : Master) (v : Word) (q : Nat), let node := v.toNat / 65536 % 4096; Takes s m 0x44040 ∧ v.getLsbD 31 = false ∧
      node ≠ s.get F.plkNode ∧ OpenPath s node q) ∧
    (∃ (s : State) (m : Master) (v : Word), Takes s m 0x44040 ∧ v.getLsbD 31 = false ∧ v.toNat / 65536 % 4096 = s.get F.plkNode) :=
  ⟨⟨linked 3, 0, pk 0x40 5 10 255 [], ⟨⟨⟨ok, ok, ok, ok, good_of _ (ok), ok⟩, ok, ok, ok⟩, ok⟩⟩,
   ⟨(linked 3).setAll [(F.cpLpStatusState, 2), (F.cpLpCtrlPeer, 1)], 0, pk 0x40 5 10 255 [], ⟨ok, ok, ok, ok, good_of _ (ok), ok⟩, ok, ok, ok, ok, ok⟩,
   ⟨linked 3, 0, 0xA0001, 1, ⟨⟨ok, ok, ok, ok, ok⟩, ok, ok, ok, ok⟩, ok, ok, ⟨ok, ok, ok, ok, ok, ok, ok, ok⟩⟩,
   ⟨linked 3, 0, 0x50001, ⟨⟨ok, ok, ok, ok, ok⟩, ok, ok, ok, ok⟩, ok, ok⟩⟩

theorem wit_EventAndTelemetryResults_b :
    (∃ (s : State) (m : Master) (v : Word), Takes s m 0x44040 ∧ v.getLsbD 31 = true) ∧
    (∃ (s : State) (port : Fin 8) (k : Packet) (q : Nat), Consumes s port k 0x41 ∧ s.mgmt.down = false ∧ OpenPath s k.src.toNat q) ∧
    (∃ (s : State) (port : Fin 8) (k : Packet), Consumes s port k 0x42) ∧
    (∃ (s : State) (port : Fin 8) (k : Packet), Consumes s port k 0x43) :=
  ⟨⟨linked 3, 0, 0x80000001, ⟨⟨ok, ok, ok, ok, ok⟩, ok, ok, ok, ok⟩, ok⟩,
   ⟨linked 3, 0, pk 0x41 5 10 1 [], 1, ⟨⟨⟨ok, ok, ok, ok, good_of _ (ok), ok⟩, ok, ok, ok⟩, ok⟩, ok, ⟨ok, ok, ok, ok, ok, ok, ok, ok⟩⟩,
   ⟨linked 3, 0, pk 0x42 5 10 1 [], ⟨⟨⟨ok, ok, ok, ok, good_of _ (ok), ok⟩, ok, ok, ok⟩, ok⟩⟩,
   ⟨linked 3, 0, pk 0x43 5 10 1 [], ⟨⟨⟨ok, ok, ok, ok, good_of _ (ok), ok⟩, ok, ok, ok⟩, ok⟩⟩⟩


/-- Every register of the routing table but the one of nodes 8 to 15 reads 0 in that engine. -/
theorem linked_routes : (List.range 512).all (fun k => k == 1 || (linked 3).get (F.plkRoute k) == 0) = true := by decide +kernel
theorem linked_nodes : (List.range 8).all (fun b => b == 1 || b == 2 || !(linked 3).routed (8 + b)) = true := by decide +kernel

/-- A partner lost while the one other node of the table has an open path. -/
theorem wit_PeerLossResults_notice : (linked 3).routed 10 = true ∧ (linked 3).plkUp 0 = true ∧ (linked 3).get (F.plkPortPartner 0) = 9 ∧
    (linked 3).get F.plkNode = 5 ∧ OpenPath (linked 3) 10 1 :=
  ⟨ok, ok, ok, ok, ⟨ok, ok, ok, ok, ok, ok, ok,
    ok⟩⟩
theorem wit_PeerLossResults_table : ∀ n, n < 4096 → (linked 3).routed n = true → n = 10 ∨ n = 9 ∨ n = 5 := by
  intro n hn hr
  by_cases hk : n / 8 = 1
  · have h := List.all_eq_true.mp linked_nodes (n % 8) (List.mem_range.mpr (by omega))
    rw [show 8 + n % 8 = n by omega, hr] at h
    simp at h
    omega
  · have h := List.all_eq_true.mp linked_routes (n / 8) (List.mem_range.mpr (by omega))
    have h0 : (linked 3).get (F.plkRoute (n / 8)) = 0 := by simpa [hk] using h
    rw [State.routed, h0] at hr
    simp [bit] at hr

/-- A lane with an item of the dispatch. -/
def aLane : LaneIn := { item := 0, flags := 0, bytes := List.replicate 64 0, entry := none, tc := 0, ray := 0, ended := false }

/-- A group in slot 63 of lane core 15, at the start of program 0, every lane live and active. -/
def aGroup : Group :=
  { id := 1, lc := 15, slot := some 63, disp := 0, stage := 1, cls := 1, prog := 0, launch := 2, open_ := false, age := 0, live := 2 ^ 32 - 1,
    active := 2 ^ 32 - 1, pc := 0, divs := [], regs := [], preds := List.replicate 7 0, lanes := List.replicate 32 aLane, tile := 0, tileFirst := 0,
    tileCount := 0, tilePos := 0, tileDone := false, out := none, frame := 0, frameLen := 1024, counters := List.replicate 8 { issued := 0, done := 0 },
    copies := [], wait := .none, locks := [], saved := false, spilled := 0, saveRow := 0 }

/-- The chain of a GENERATE stage and a PROGRAM stage that reads queue 0 and writes queue 1. -/
def laneChain : Chain := chainWith [stageOf 1 255 0, stageOf 6 0 1] 2

/-- Lane core 15 with the word `w` at every offset of the one program, and the group `g`. -/
def laneRun (w : Nat) (g : Group) : State :=
  { base with active := some (imageWith laneChain), disps := [dispOf (rcdOf 1) 2], groups := [g], nextGroup := 2,
              lcs := List.replicate 15 LaneCore.init ++ [{ LaneCore.init with code := [(0x100, (List.replicate 16 (leBytes 8 w)).flatten)] }] }

/-- That state with the matrix unit of lane core 15 occupied. -/
def occupied (w : Nat) (g : Group) (m : MmaOp) : State :=
  { laneRun w g with lcs := modifyAt (fun l => { l with mma := some m }) 15 (laneRun w g).lcs }

/-- A word of an opcode, with every other field 0 but the guard p7; CP copies from LOCAL to GLOBAL. -/
def wordOf (op : Nat) : Nat := op * 2 ^ 56 + 7 * 2 ^ 52 + (if op = 0x70 then 2 * 2 ^ 48 else 0)

/-- The opcodes of Tables 109, 111 to 113 and 115 to 119. -/
def opcodes : List Nat :=
  [0x00, 0x01, 0x02, 0x03, 0x04, 0x05, 0x06, 0x07, 0x08, 0x0A, 0x0B, 0x0C, 0x0D, 0x0E, 0x0F, 0x10, 0x11, 0x12, 0x13, 0x14, 0x15, 0x16, 0x17, 0x18,
   0x19, 0x1A, 0x1C, 0x1D, 0x1E, 0x1F, 0x20, 0x21, 0x28, 0x29, 0x2A, 0x2B, 0x2C, 0x2D, 0x2F, 0x30, 0x31, 0x32, 0x33, 0x34, 0x35, 0x40, 0x41, 0x42,
   0x43, 0x48, 0x49, 0x4A, 0x4B, 0x4C, 0x50, 0x51, 0x52, 0x58, 0x59, 0x5A, 0x60, 0x61, 0x62, 0x64, 0x65, 0x66, 0x67, 0x68, 0x70, 0x71, 0x74, 0x78,
   0x79, 0x7A, 0x7B]

/-- The decidable parts of `Issues`. -/
def issuesHere (s : State) (lc slot : Nat) (g : Group) (w : Nat) : Bool :=
  decide (s.canonical = true ∧ s.ready lc slot = some (g, w) ∧ wordDefined w = true ∧ (s.progOf g.prog).regs ≤ 255 ∧
    (wordRuns w).all (runOk (s.progOf g.prog).regs) = true ∧ g.live ≠ 0 ∧ g.active ≠ 0 ∧ g.pc + 8 < (s.progOf g.prog).codeLen)

/-- They are `Issues`. -/
theorem issues_of {s : State} {lc slot : Nat} {g : Group} {w : Nat} (h : issuesHere s lc slot g w = true) : Issues s lc slot g w := by
  obtain ⟨a, b, c, d, e, f, i, j⟩ := of_decide_eq_true h
  exact ⟨a, b, c, d, e, f, i, j⟩

/-- Every opcode issues in some state: the premises of each clause about an instruction's result that asks for no more. -/
theorem wit_issues : ∀ op ∈ opcodes, ∃ (s : State) (lc : Fin 16) (slot : Fin 64) (g : Group) (w : Nat), Issues s lc slot g w ∧ wOpc w = op := by
  have h : opcodes.all (fun op => issuesHere (laneRun (wordOf op) aGroup) 15 63 aGroup (wordOf op) && wOpc (wordOf op) == op) = true := by
    decide +kernel
  intro op hop
  have h' := List.all_eq_true.mp h op hop
  rw [Bool.and_eq_true] at h'
  exact ⟨laneRun (wordOf op) aGroup, 15, 63, aGroup, wordOf op, issues_of h'.1, eq_of_beq h'.2⟩

/-- A group with one active lane, in which the lane itself has an address in registers 0 and 1. -/
def one (addr : Nat) : Group := { aGroup with active := 1, regs := if addr = 0 then [] else [(0, addr)] }

/-- The group with its items ended. -/
def ended : Group := { aGroup with lanes := List.replicate 32 { aLane with ended := true } }

/-- A load of two lanes from memory. -/
def aLoad : LoadSt := { space := 0, size := 4, sign := false, dest := 3, addrs := [(0, 0x100), (5, 0x104)] }

/-- The group with lane 2 waiting on the word at 0x40. -/
def lockWaiter : Group := { aGroup with wait := .locks 0 5 [(2, 0x40)] }

/-- An MMA of the group of a number, with 5 for every result. -/
def anMma (id : Nat) : MmaOp :=
  { slot := 63, group := id, d := 0, vals := (List.range 256).map (fun i => (256 * (2 * (i / 16) + i % 16 / 8) + 0 + i % 16 % 8, 5)), clks := 4 }

/-- The group with the guard p0 true in the lanes of `m`. -/
def guarded (g : Group) (m : Nat) : Group := { g with preds := m :: List.replicate 6 0 }

/-- A word of an opcode with the guard p0. -/
def guardWord (op : Nat) : Nat := op * 2 ^ 56

/-- Every lane of that group has ended its item. -/
theorem lanes_ended {g : Group} {w : Nat} (hg : g.lanes = ended.lanes) :
    ∀ l, l < 32 → acts g w l = true → ∃ x, g.lanes[l]? = some x ∧ x.ended = true :=
  fun l h _ => ⟨{ aLane with ended := true }, by
    rw [hg, show ended.lanes = List.replicate 32 { aLane with ended := true } from rfl, List.getElem?_replicate, if_pos h], rfl⟩

/-- Results of predicates, votes and exchanges: `wit_issues` meets their premises.  IADD64 in both forms. -/
theorem wit_PairAddResult : ∀ op, op = 0x20 ∨ op = 0x21 →
    ∃ (s : State) (lc : Fin 16) (slot : Fin 64) (g : Group) (w : Nat), Issues s lc slot g w ∧ wOpc w = op := by
  rintro op (h | h) <;> exact wit_issues op (by rw [h]; decide +kernel)

/-- Paired instructions in both formats. -/
theorem wit_paired : ∀ op ∈ [0x31, 0x32, 0x33], ∀ m ∈ [0, 1],
    ∃ (s : State) (lc : Fin 16) (slot : Fin 64) (g : Group) (w : Nat), Issues s lc slot g w ∧ wOpc w = op ∧ wMod w = m := by
  have h : ∀ op ∈ [0x31, 0x32, 0x33], ∀ m ∈ [0, 1], issuesHere (laneRun (wordOf op + m * 2 ^ 48) aGroup) 15 63 aGroup (wordOf op + m * 2 ^ 48) = true ∧
      wOpc (wordOf op + m * 2 ^ 48) = op ∧ wMod (wordOf op + m * 2 ^ 48) = m := by decide +kernel
  intro op ho m hm
  exact ⟨_, 15, 63, aGroup, _, issues_of (h op ho m hm).1, (h op ho m hm).2⟩

/-- NaNs come out of every operation that answers the canonical NaN. -/
theorem wit_CanonicalNan : ∀ f ∈ [fp32, fp16, bf16], isNan f (fAdd f 0 f.nanBits 0) = true ∧ isNan f (fMul f 0 f.nanBits 0) = true ∧
    isNan f (fFma f 0 f.nanBits 0 0) = true ∧ isNan f (fDiv f 0 0 0) = true := by decide +kernel

/-- Finite results and operands, two infinities and two numbers outside the ranges. -/
theorem wit_RoundsToNearest : isFin fp32 (roundDy fp32 0 false (Dy.int 16777217)) = true ∧ isFin fp32 0x4B800001 = true ∧
    isFin fp32 0 = true ∧ isFin fp32 0x7F7FFFFF = true := by decide +kernel
theorem wit_MinMaxSpecialValues : isNan fp32 0x7FC00000 = true ∧ isNan fp32 0xFF800001 = true ∧ isNan fp32 0x7F800000 = false := by decide +kernel
theorem wit_IntegerConversionLimits : isNan fp32 0x7FC00000 = true ∧ decF fp32 0x7F800000 = .inf false ∧ decF fp32 0xFF800000 = .inf true ∧
    (isFin fp32 0x4F000000 = true ∧ (Dy.int (2 ^ 31 - 1)).lt (val32 0x4F000000) = true) ∧
    (isFin fp32 0xCF000001 = true ∧ (val32 0xCF000001).lt (Dy.int (-2 ^ 31)) = true) ∧
    (isFin fp32 0x4F800000 = true ∧ (Dy.int (2 ^ 32 - 1)).lt (val32 0x4F800000) = true) ∧
    (isFin fp32 0x80000001 = true ∧ (val32 0x80000001).lt (Dy.int 0) = true) := by decide +kernel

theorem wit_LocalLoadResult : ∃ (s : State) (lc : Fin 16) (slot : Fin 64) (g : Group) (w : Nat), Issues s lc slot g w ∧ wOpc w = 0x50 ∧ wMod w = 2 ∧
  AccessesPass s g w 2 (2 ^ wSize w) (loadAddr g w) :=
  ⟨laneRun (wordOf 0x50 + 2 * 2 ^ 48) aGroup, 15, 63, aGroup, wordOf 0x50 + 2 * 2 ^ 48, issues_of (ok), ok, ok, by unfold AccessesPass; decide +kernel⟩

theorem wit_LoadWaitsAndReturns :
    (∃ (s : State) (lc : Fin 16) (slot : Fin 64) (g : Group) (w : Nat), Issues s lc slot g w ∧ wOpc w = 0x50 ∧ wMod w ≠ 2 ∧
      AccessesPass s g w (wMod w) (2 ^ wSize w) (loadAddr g w) ∧ (∃ l, l < 32 ∧ acts g w l = true)) ∧
    (∃ (s : State) (lc : Fin 16) (slot : Fin 64) (g : Group) (x : LoadSt), s.canonical = true ∧ s.groupAt lc slot = some g ∧ g.wait = .load x ∧
      s.laneWaits lc slot = false ∧ (x.addrs.map (fun e => e.1)).Nodup ∧ (∀ e ∈ x.addrs, e.1 < 32) ∧ x.size = 2 ^ (Nat.log2 x.size) ∧ x.size ≤ 16 ∧
        (x.dest + max 1 (x.size / 4) ≤ 255 ∨ (x.dest = 255 ∧ x.size ≤ 4)) ∧ g.live ≠ 0 ∧ g.active ≠ 0 ∧ g.pc < (s.progOf g.prog).codeLen ∧
          (x.space = 0 → ∀ e ∈ x.addrs, (s.lcore lc).hits e.2 = true ∨ s.maps (48 + lc) e.2 x.size false = true) ∧ (x.space = 1 ∨ (x.space = 3 ∧
            g.launch = 3) → s.sfPoison = [])) :=
  ⟨⟨laneRun (wordOf 0x50) aGroup, 15, 63, aGroup, wordOf 0x50, issues_of (ok), ok, ok, by unfold AccessesPass; decide +kernel, ok⟩,
   ⟨laneRun 0 { aGroup with wait := .load aLoad }, 15, 63, { aGroup with wait := .load aLoad }, aLoad, ok, ok, ok, ok, ok, ok, ok, ok, .inl (ok), ok,
     ok, ok, ok⟩⟩

theorem wit_StoreResult : ∃ (s : State) (lc : Fin 16) (slot : Fin 64) (g : Group) (w : Nat), Issues s lc slot g w ∧ wOpc w = 0x51 ∧
  AccessesPass s g w (wMod w) (2 ^ wSize w) (loadAddr g w) :=
  ⟨laneRun (wordOf 0x51) aGroup, 15, 63, aGroup, wordOf 0x51, issues_of (ok), ok, by unfold AccessesPass; decide +kernel⟩

theorem wit_AtomicResult : ∃ (s : State) (lc : Fin 16) (slot : Fin 64) (g : Group) (w : Nat), Issues s lc slot g w ∧ wOpc w = 0x58 ∧ wSub w % 4 < 2 ∧
  let n := if wMod w ≥ 11 then 8 else 4; AccessesPass s g w (wSub w % 4) n (atomAddr g w) ∧
    (wSub w % 4 = 1 → ∀ l, l < 32 → acts g w l = true → s.sfPoisonAt (atomAddr g w l) n = none) :=
  ⟨laneRun (wordOf 0x58) aGroup, 15, 63, aGroup, wordOf 0x58, issues_of (ok), ok, ok, by unfold AccessesPass; decide +kernel, ok⟩

theorem wit_LockResults :
    (∃ (s : State) (lc : Fin 16) (slot : Fin 64) (g : Group) (w : Nat), LockPremises s lc slot g w ∧ wOpc w = 0x59 ∧ wMod w = 0) ∧
    (∃ (s : State) (lc : Fin 16) (slot : Fin 64) (g : Group) (w : Nat), LockPremises s lc slot g w ∧ wOpc w = 0x59 ∧ wMod w = 1 ∧
      (∀ l, l < 32 → acts g w l = true → lockGranted s g w l = true)) ∧
    (∃ (s : State) (lc : Fin 16) (slot : Fin 64) (g : Group) (w : Nat), LockPremises s lc slot g w ∧ wOpc w = 0x59 ∧ wMod w = 1 ∧
      (∀ l, l < 32 → acts g w l = true → wordAt s (wSub w % 4) (atomAddr g w l) 4 ≠ 0 ∧
        s.sameGroup g (wordAt s (wSub w % 4) (atomAddr g w l) 4) = false) ∧ (∃ l, l < 32 ∧ acts g w l = true)) ∧
    (∃ (s : State) (lc : Fin 16) (slot : Fin 64) (g : Group) (w : Nat), LockPremises s lc slot g w ∧ wOpc w = 0x5A ∧
      (∀ l, l < 32 → acts g w l = true → wordAt s (wSub w % 4) (atomAddr g w l) 4 = s.identity g l)) :=
  ⟨⟨laneRun (wordOf 0x59) aGroup, 15, 63, aGroup, wordOf 0x59, ⟨issues_of (ok), ok, by unfold AccessesPass; decide +kernel, ok, ok⟩, ok, ok⟩,
   ⟨laneRun (wordOf 0x59 + 2 ^ 48) (one 0), 15, 63, one 0, wordOf 0x59 + 2 ^ 48, ⟨issues_of (ok), ok, by unfold AccessesPass; decide +kernel, ok,
     ok⟩, ok, ok, ok⟩,
   ⟨{ laneRun (wordOf 0x59 + 2 ^ 48) aGroup with mem := [(0, 1)] }, 15, 63, aGroup, wordOf 0x59 + 2 ^ 48, ⟨issues_of (ok), ok,
     by unfold AccessesPass; decide +kernel, ok, ok⟩, ok, ok, ok, ok⟩,
   ⟨{ laneRun (wordOf 0x5A) (one 0) with mem := putBytes [] 0 (leBytes 4 ((laneRun 0 (one 0)).identity (one 0) 0)) }, 15, 63, one 0, wordOf 0x5A,
  ⟨issues_of (ok), ok, by unfold AccessesPass; decide +kernel, ok, ok⟩, ok, ok⟩⟩

theorem wit_LockRetryGrants : ∃ (s : State) (space : Fin 2) (addr : DWord) (g : Group) (since lane : Nat) (l : List (Nat × Nat)),
  s.canonical = true ∧ g ∈ s.groups ∧ g.saved = false ∧ s.mayWork (lcUnit g.lc) g.cls = true ∧ wordAt s space addr.toNat 4 = 0 ∧
    (space = 0 → s.maps (48 + g.lc) addr.toNat 4 true = true) ∧ g.wait = .locks space since l ∧ (lane, addr.toNat) ∈ l ∧
      (∀ e ∈ l, e.2 = addr.toNat → e.1 = lane) ∧ (g.locks.filter (fun k => k.lane == lane)).length ≤ 3 ∧
        (∀ g' ∈ s.groups, g'.id ≠ g.id → ∀ t, lockWaitOf g' space addr.toNat = some t → since < t) ∧ g.live ≠ 0 ∧ g.active ≠ 0 ∧
          g.pc < (s.progOf g.prog).codeLen :=
  ⟨laneRun 0 lockWaiter, 0, 0x40, lockWaiter, 5, 2, [(2, 0x40)], ok, ok, ok, ok, ok, ok, ok, ok, ok, ok, fun g' hg hne => absurd (congrArg Group.id
  (List.mem_singleton.mp (show g' ∈ [lockWaiter] from hg))) hne, ok, ok, ok⟩

theorem wit_CallResult : ∃ (s : State) (lc : Fin 16) (slot : Fin 64) (g : Group) (w : Nat), Issues s lc slot g w ∧ wOpc w = 0x62 ∧
  goodTarget s g (wTarget w) ∧ g.divs.length + g.spilled < stackRoom s ∧ g.active < 2 ^ 32 :=
  ⟨laneRun (wordOf 0x62) aGroup, 15, 63, aGroup, wordOf 0x62, issues_of (ok), ok, ⟨ok, ok⟩, ok, ok⟩

theorem wit_ExitResult :
    (∃ (s : State) (lc : Fin 16) (slot : Fin 64) (g : Group) (w : Nat), Exits s lc slot g w ∧ g.locks = [] ∧ (∃ l, l < 32 ∧
      g.active.testBit l = true ∧ acts g w l = false)) ∧
    (∃ (s : State) (lc : Fin 16) (slot : Fin 64) (g : Group) (w : Nat), Exits s lc slot g w ∧ g.spilled = 0 ∧ (∀ k ∈ g.locks, k.space < 2) ∧
      (∃ l, l < 32 ∧ g.active.testBit l = true ∧ acts g w l = false)) ∧
    (∃ (s : State) (lc : Fin 16) (slot : Fin 64) (g : Group) (w : Nat), Exits s lc slot g w ∧ keepOf g w g.live = 0 ∧ g.launch ≠ 3 ∧ g.copies = []) :=
  ⟨⟨laneRun (guardWord 0x66) (guarded ended 1), 15, 63, guarded ended 1, guardWord 0x66,
  ⟨issues_of (ok), ok, lanes_ended rfl, ok⟩, ok, ok⟩,
   ⟨laneRun (guardWord 0x66) (guarded ended 1), 15, 63, guarded ended 1, guardWord 0x66,
  ⟨issues_of (ok), ok, lanes_ended rfl, ok⟩, ok, ok, ok⟩,
   ⟨laneRun (wordOf 0x66) ended, 15, 63, ended, wordOf 0x66, ⟨issues_of (ok), ok, lanes_ended rfl, ok⟩, ok, ok, ok⟩⟩

theorem wit_MatrixUnitResults :
    (∃ (s : State) (lc : Fin 16) (slot : Fin 64) (g : Group) (w : Nat), Issues s lc slot g w ∧ wOpc w = 0x74 ∧ g.active = g.live) ∧
    (∃ (s : State) (lc : Fin 16) (slot : Fin 64) (g : Group) (w : Nat), s.groupAt lc slot = some g ∧ s.codeWord g = some w ∧ wOpc w = 0x74 ∧
      wordDefined w = true ∧ (wordRuns w).all (runOk (s.progOf g.prog).regs) = true ∧ (s.lcore lc).mma.isSome = true) ∧
    (∃ (s : State) (lc : Fin 16) (g : Group) (m : MmaOp) (vals : Nat → Nat → Nat), s.canonical = true ∧ (s.lcore lc).mma = some m ∧ g ∈ s.groups ∧
      m.group = g.id ∧ m.d + 8 ≤ 255 ∧ m.vals = (List.range 256).map (fun i => (256 * (2 * (i / 16) + i % 16 / 8) + m.d + i % 16 % 8,
        vals (i / 16) (i % 16)))) :=
  ⟨⟨laneRun (wordOf 0x74) aGroup, 15, 63, aGroup, wordOf 0x74, issues_of (ok), ok, ok⟩,
   ⟨occupied (wordOf 0x74) aGroup (anMma 9), 15, 63, aGroup, wordOf 0x74, ok, ok, ok, ok, ok, ok⟩,
   ⟨occupied (wordOf 0x74) aGroup (anMma 1), 15, aGroup, anMma 1, fun _ _ => 5, ok, ok, ok, ok, ok, ok⟩⟩


/-- Branches, marks, barriers, copies and waits, each with what it asks of its state beside `Issues`. -/
theorem wit_BranchResult : ∃ (s : State) (lc : Fin 16) (slot : Fin 64) (g : Group) (w : Nat), Issues s lc slot g w ∧ wOpc w = 0x60 ∧
    goodTarget s g (wTarget w) ∧ g.divs.length + g.spilled < stackRoom s ∧ g.active < 2 ^ 32 :=
  ⟨laneRun (wordOf 0x60 + 120) aGroup, 15, 63, aGroup, wordOf 0x60 + 120, issues_of (ok), ok,
    ⟨ok, ok⟩, ok, ok⟩
theorem wit_IndirectBranchResult : ∃ (s : State) (lc : Fin 16) (slot : Fin 64) (g : Group) (w : Nat), Issues s lc slot g w ∧ wOpc w = 0x61 ∧
    (∀ l, l < 32 → acts g w l = true → goodTarget s g (g.reg l (wA w))) ∧ g.divs.length + g.spilled + 32 ≤ stackRoom s ∧ g.active < 2 ^ 32 :=
  ⟨laneRun (wordOf 0x61) (one 64), 15, 63, one 64, wordOf 0x61, issues_of (ok), ok,
    by unfold goodTarget; decide +kernel, ok, ok⟩
theorem wit_ReconvergenceResult_0 : ∃ (s : State) (lc : Fin 16) (slot : Fin 64) (g : Group) (w : Nat), Issues s lc slot g w ∧ wOpc w = 0x64 ∧
    goodTarget s g (wTarget w) ∧ g.divs.length + g.spilled < stackRoom s :=
  ⟨laneRun (wordOf 0x64) aGroup, 15, 63, aGroup, wordOf 0x64, issues_of (ok), ok,
    ⟨ok, ok⟩, ok⟩

/-- The group with an entry on its divergence stack. -/
def diverged (at_ : Nat) : Group := { aGroup with active := 1, divs := [(2 ^ 32 - 2, at_)] }

theorem wit_ReconvergenceResult_1 : ∀ at_ ∈ [0, 120], ∃ (s : State) (lc : Fin 16) (slot : Fin 64) (g : Group) (w m : Nat) (rest : List (Nat × Nat)),
    Issues s lc slot g w ∧ wOpc w = 0x65 ∧ g.divs = (m, at_) :: rest ∧ m ≠ 0 ∧ at_ < (s.progOf g.prog).codeLen := by
  have h : ∀ at_ ∈ [0, 120], issuesHere (laneRun (wordOf 0x65) (diverged at_)) 15 63 (diverged at_) (wordOf 0x65) = true ∧
      at_ < ((laneRun (wordOf 0x65) (diverged at_)).progOf (diverged at_).prog).codeLen := by decide +kernel
  intro a ha
  exact ⟨_, 15, 63, diverged a, wordOf 0x65, 2 ^ 32 - 2, [], issues_of (h a ha).1, ok, rfl, by decide, (h a ha).2⟩

/-- EXIT of some of the active lanes, and of the last live lane. -/
theorem wit_ExitResult_rest :
    (∃ l, l < 32 ∧ (guarded ended 1).active.testBit l = true ∧ acts (guarded ended 1) (guardWord 0x66) l = false) ∧
    issuesHere (laneRun (guardWord 0x66) (guarded ended 1)) 15 63 (guarded ended 1) (guardWord 0x66) = true ∧
    ended.live &&& (0xFFFFFFFF ^^^ mask (acts ended (wordOf 0x66))) = 0 ∧ ended.launch ≠ 3 ∧ ended.copies = [] :=
  ⟨⟨31, ok, ok, ok⟩, ok, ok, ok, ok⟩

theorem wit_BarrierResult : (∃ (s : State) (lc : Fin 16) (slot : Fin 64) (g : Group) (w : Nat), Issues s lc slot g w ∧ wOpc w = 0x67 ∧
      g.active = g.live) ∧
    ∃ (s : State) (lc : Fin 16) (slot : Fin 64) (g : Group), s.canonical = true ∧ s.groupAt lc slot = some g ∧ g.wait = .barrier ∧
      s.mayWork (lcUnit lc) g.cls = true ∧ g.live ≠ 0 ∧ g.active ≠ 0 ∧ g.pc + 8 < (s.progOf g.prog).codeLen :=
  ⟨⟨laneRun (wordOf 0x67) aGroup, 15, 63, aGroup, wordOf 0x67, issues_of (ok), ok, ok⟩,
   ⟨laneRun (wordOf 0x67) { aGroup with wait := .barrier }, 15, 63, { aGroup with wait := .barrier }, ok, ok,
    rfl, ok, ok, ok, ok⟩⟩

/-- A copy of 32 bytes from memory to the Shared Field. -/
def aCopy : Copy := { ctr := 7, pc := 0, srcSpace := 0, src := 0x100, dstSpace := 1, dst := 0x40, len := 32 }

/-- The group with that copy in flight, and waiting for it. -/
def copying : Group :=
  { aGroup with copies := [aCopy], wait := .counter 7 0, counters := List.replicate 7 { issued := 0, done := 0 } ++ [{ issued := 0, done := 65535 }] }

theorem wit_CopyResults : (∃ (s : State) (lc : Fin 16) (slot : Fin 64) (g : Group) (w : Nat), Issues s lc slot g w ∧ wOpc w = 0x70 ∧
      s.accessFault g (copyOf g w).srcSpace (copyOf g w).src (copyOf g w).len 32 = 0 ∧
      s.accessFault g (copyOf g w).dstSpace (copyOf g w).dst (copyOf g w).len 32 = 0) ∧
    ∃ (s : State) (lc : Fin 16) (slot : Fin 64) (ctr : Fin 8) (g : Group) (k : Copy), s.canonical = true ∧ s.groupAt lc slot = some g ∧
      g.copies.find? (fun k => k.ctr == ctr.val) = some k ∧ (∀ f ∈ s.fwaits, f.acc ≠ .copy lc slot ctr) ∧
      (∀ a wr, k.global = some (a, wr) → s.maps (48 + lc) a k.len wr = true) ∧ (k.srcSpace = 1 → s.sfPoisonAt k.src k.len = none) ∧
      k.srcSpace < 3 ∧ k.dstSpace < 3 :=
  ⟨⟨laneRun (wordOf 0x70) aGroup, 15, 63, aGroup, wordOf 0x70, issues_of (ok), ok, ok, ok⟩,
   ⟨laneRun 0 copying, 15, 63, 7, copying, aCopy, ok, ok, ok, ok,
    by intro a wr h; cases h; decide +kernel, ok, ok, ok⟩⟩

/-- The item numbers of the group's lanes are those of the dispatch. -/
theorem lanes_items {w : Nat} : ∀ l x, aGroup.lanes[l]? = some x → acts aGroup w l = true → x.item < (dispOf (rcdOf 1) 2).rcd.itemCount := by
  intro l x h _
  rw [show x = aLane from List.eq_of_mem_replicate (List.mem_of_getElem? h)]
  decide

/-- Every lane that acts has a lane of a record launch. -/
theorem lanes_there {g : Group} {w : Nat} (hg : g.lanes = List.replicate 32 aLane) :
    ∀ l, l < 32 → acts g w l = true → ∃ x, g.lanes[l]? = some x ∧ x.ended = false ∧ x.entry = none :=
  fun l h _ => ⟨aLane, by rw [hg, List.getElem?_replicate, if_pos h], rfl, rfl⟩

/-- The same without its entry. -/
theorem lanes_open {g : Group} {w : Nat} (hg : g.lanes = List.replicate 32 aLane) :
    ∀ l, l < 32 → acts g w l = true → ∃ x, g.lanes[l]? = some x ∧ x.ended = false :=
  fun l h ha => (lanes_there hg l h ha).elim fun x hx => ⟨x, hx.1, hx.2.1⟩

/-- The stage of the group. -/
def laneStage : Stage := stageOf 6 0 1

/-- The engine of a tile launch, whose queues hold tiles of 64 KiB. -/
def tileRun (w : Nat) (g : Group) : State :=
  { laneRun w g with active := some (imageWith { laneChain with queues := List.replicate 2 { region := 0, entrySize := 3, offset := 0, capacity := 2 } }) }

/-- The group of a tile launch. -/
def tileGroup (out : Option Nat) : Group := { aGroup with launch := 3, lanes := [], tileCount := 4, out := out }

/-- The group of a callout launch. -/
def callGroup : Group := { guarded aGroup 1 with launch := 4 }

/-- Only lane 0 of it acts. -/
theorem call_acts : ∀ l, acts callGroup (guardWord 0x7B) l = true → l = 0 := by
  intro l h
  cases l with
  | zero => rfl
  | succ n =>
    simp only [acts, Bool.and_eq_true] at h
    have h2 : (callGroup.pred 0 (n + 1) != false) = true := h.2
    have h3 : Nat.testBit 1 (n + 1) = true := by simpa [Group.pred, callGroup, guarded, bit] using h2
    simp [Nat.testBit_succ] at h3

/-- Two records wait in the queue of the stage. -/
def laneGather : State :=
  { laneRun 0 aGroup with disps := [{ dispOf (rcdOf 1) 2 with queues := [{ entries := [entry0, { entry0 with pos := 1, slot := 1, item := 1 }],
                                                                            appended := 2 }, { entries := [], appended := 0 }] }] }

/-- The threads of that form. -/
def laneGathered : Gather := (laneGather.threadsOf 15 5).get (ok)

/-- A group that waits for admission. -/
def unadmitted : Group := { aGroup with slot := none, launch := 4 }

/-- The lane core with that group, and no dispatch. -/
def admitting : State := { laneRun 0 unadmitted with disps := [] }

/-- The group that comes first at a lane core. -/
def firstWaiting (s : State) (lc : Nat) : Option Waiting := leastBy (fun (a b : Waiting) => a.before b) (s.waitingAt lc)

theorem wit_EmitResult : ∃ (s : State) (lc : Fin 16) (slot : Fin 64) (g : Group) (w : Nat) (d : Dispatch) (t : Stage), Records s lc slot g w d t ∧
  wOpc w = 0x78 ∧ wMod w ≤ 1 ∧ t.out0 ≠ 255 ∧ s.entrySize d t.out0 = 32 * 2 ^ (wSub w % 4) ∧
    (wMod w = 1 → ∀ l, l < 32 → acts g w l = true → s.accessFault g 2 (g.reg l (wA w)) (32 * 2 ^ (wSub w % 4)) (32 * 2 ^ (wSub w % 4)) = 0) ∧
      (∀ l, l < 32 → acts g w l = true → l ∈ emittersTo s g t w t.out0 ∨ (t.out1 ≠ 255 ∧ l ∈ emittersTo s g t w t.out1)) ∧ t.out0 < d.queues.length ∧
        (t.out1 ≠ 255 → t.out1 < d.queues.length) ∧ t.input ≠ t.out0 ∧ t.input ≠ t.out1 :=
  ⟨laneRun (wordOf 0x78 + 1) (one 0), 15, 63, one 0, wordOf 0x78 + 1, dispOf (rcdOf 1) 2, laneStage,
  ⟨issues_of (ok), .inr (ok), ok, ok, lanes_open rfl⟩, ok, ok, ok, ok, fun h => absurd h (ok), ok, ok, fun h => absurd h (ok), ok, ok⟩

theorem wit_FailItemResult : ∃ (s : State) (lc : Fin 16) (slot : Fin 64) (g : Group) (w : Nat) (d : Dispatch) (t : Stage),
  Records s lc slot g w d t ∧ wOpc w = 0x79 ∧ (∀ l x, g.lanes[l]? = some x → acts g w l = true → x.item < d.rcd.itemCount) :=
  ⟨laneRun (wordOf 0x79) aGroup, 15, 63, aGroup, wordOf 0x79, dispOf (rcdOf 1) 2, laneStage, ⟨issues_of (ok), .inr (ok), ok, ok, lanes_open rfl⟩, ok,
    lanes_items⟩

theorem wit_TileOutputResults :
    (∃ (s : State) (lc : Fin 16) (slot : Fin 64) (g : Group) (w place : Nat) (d : Dispatch) (t : Stage), Issues s lc slot g w ∧ wOpc w = 0x7A ∧
      s.disp g.disp = some d ∧ s.stageFor g.disp g.stage = some t ∧ g.launch = 3 ∧ t.out0 ≠ 255 ∧ s.entrySize d t.out0 = 65536 ∧
        (g.out = some place ∨ (g.out = none ∧ s.reservePlace d g.stage t.out0 = some place))) ∧
    (∃ (s : State) (lc : Fin 16) (slot : Fin 64) (g : Group) (w place : Nat) (d : Dispatch) (t : Stage), Issues s lc slot g w ∧ wOpc w = 0x78 ∧
      wMod w = 2 ∧ s.disp g.disp = some d ∧ s.stageFor g.disp g.stage = some t ∧ g.launch = 3 ∧ g.tileDone = false ∧ g.out = some place ∧
        t.out0 < d.queues.length ∧ t.input ≠ t.out0 ∧ leVal (s.sfGet (s.entryAddr d place t.out0 + 0x20) 32) = leVal (s.sfGet (g.tile + 0x20) 32)) :=
  ⟨⟨tileRun (wordOf 0x7A) (tileGroup none), 15, 63, tileGroup none, wordOf 0x7A, 0, dispOf (rcdOf 1) 2, laneStage, issues_of (ok), ok, ok, ok, ok, ok, ok,
  .inr ⟨ok, ok⟩⟩,
   ⟨tileRun (wordOf 0x78 + 2 * 2 ^ 48) (tileGroup (some 0)), 15, 63, tileGroup (some 0), wordOf 0x78 + 2 * 2 ^ 48, 0, dispOf (rcdOf 1) 2, laneStage,
  issues_of (ok), ok, ok, ok, ok, ok, ok, ok, ok, ok, ok⟩⟩

theorem wit_CalloutReplyResult : ∃ (s : State) (lc : Fin 16) (slot : Fin 64) (g : Group) (w : Nat), Issues s lc slot g w ∧ wOpc w = 0x7B ∧
  4 ≤ g.launch ∧ g.locks = [] ∧ g.live < 2 ^ 32 ∧ g.active &&& g.live = g.active ∧ (∀ l, l < 32 → acts g w l = true → ∃ x, g.lanes[l]? = some x ∧
    x.ended = false ∧ x.entry = none) ∧ (∀ l l' x x', acts g w l = true → acts g w l' = true → g.lanes[l]? = some x → g.lanes[l']? = some x' →
      l ≠ l' → x.ray ≠ x'.ray) :=
  ⟨laneRun (guardWord 0x7B) callGroup, 15, 63, callGroup, guardWord 0x7B, issues_of (ok), ok, ok, ok, ok, ok, lanes_there rfl,
  fun l l' x x' h h' _ _ hne => absurd ((call_acts l h).trans (call_acts l' h').symm) hne⟩

theorem wit_IllegalWordFaults :
    (∃ (s : State) (lc : Fin 16) (slot : Fin 64) (g : Group) (w : Nat), Faultable s lc slot g w ∧ wordDefined w = false) ∧
    (∃ (s : State) (lc : Fin 16) (slot : Fin 64) (g : Group) (w : Nat), Faultable s lc slot g w ∧ wordDefined w = true ∧ wOpc w = 0x1C ∧
      (wordRuns w).all (runOk (s.progOf g.prog).regs) = false) ∧
    (∃ (s : State) (lc : Fin 16) (slot : Fin 64) (g : Group) (w : Nat), Faultable s lc slot g w ∧ wordDefined w = true ∧ wOpc w = 0x68 ∧
      (s.progOf g.prog).codeLen = g.pc + 8) :=
  ⟨⟨laneRun (0xFF * 2 ^ 56) ended, 15, 63, ended, 0xFF * 2 ^ 56, ⟨ok, ok, .inr (ok), ok, ⟨ok, ok, ok⟩, ⟨ok, ok⟩⟩, ok⟩,
   ⟨laneRun (wordOf 0x1C + 200 * 2 ^ 40) ended, 15, 63, ended, wordOf 0x1C + 200 * 2 ^ 40, ⟨ok, ok, .inr (ok), ok, ⟨ok, ok, ok⟩, ⟨ok, ok⟩⟩, ok, ok, ok⟩,
   ⟨laneRun (wordOf 0x68) { ended with pc := 120 }, 15, 63, { ended with pc := 120 }, wordOf 0x68, ⟨ok, ok, .inr (ok), ok, ⟨ok, ok, ok⟩, ⟨ok, ok⟩⟩, ok, ok, ok⟩⟩

theorem wit_GroupLifeResults :
    (∃ (s : State) (lc : Fin 16) (form : Nat) (x : Gather) (t : Stage), s.threadsOf lc form = some x ∧ s.stageFor x.disp x.stage = some t ∧
      x.launch = 2 ∧ s.noCore t = false ∧ x.full = false ∧ s.sfPoison = [] ∧ x.lanes ≠ []) ∧
    (∃ (s : State) (lc : Fin 16) (g : Group) (w : Waiting) (a : Nat), s.canonical = true ∧ g ∈ s.groups ∧ g.slot = none ∧ g.saved = false ∧
      leastBy (fun (a b : Waiting) => a.before b) (s.waitingAt lc) = some w ∧ w.form = 4 * g.id ∧ s.admission lc g.prog (decide (g.launch < 4)) = some a) ∧
    (∃ (s : State) (lc : Fin 16) (addr : DWord) (slot : Nat) (g : Group), s.canonical = true ∧ s.groupAt lc slot = some g ∧
      s.codeLine g = addr.toNat / 128 ∧ s.codeWord g = none ∧ s.inService (lcUnit lc) = true ∧ s.fwaits = [] ∧
        s.maps (48 + lc) (128 * (addr.toNat / 128)) 128 false = true ∧ (s.progOf g.prog).codeAddr % 8 = 0 ∧ g.pc % 8 = 0) :=
  ⟨⟨laneGather, 15, 5, laneGathered, laneStage, (Option.some_get _).symm, ok, ok, ok, ok, ok, ok⟩,
   ⟨admitting, 15, unadmitted, (firstWaiting admitting 15).get (ok), 0, ok, ok, ok, ok, (Option.some_get _).symm, ok, ok⟩,
   ⟨{ laneRun 0 aGroup with lcs := List.replicate 16 LaneCore.init }, 15, 0x807F, 63, aGroup, ok, ok, ok, ok, ok, ok, ok, ok⟩⟩


/-- The last live lane of a callout launch replies, and its ray waits for the reply. -/
theorem wit_CalloutReplyResult_last : ∃ (s : State) (lc : Fin 16) (slot : Fin 64) (g : Group) (w : Nat) (r : Ray) (c : Callout),
    Issues s lc slot g w ∧ wOpc w = 0x7B ∧ 4 ≤ g.launch ∧ acts g w 0 = true ∧ g.live &&& (0xFFFFFFFF ^^^ mask (acts g w)) = 0 ∧
    g.copies = [] ∧ s.ray 0 = some r ∧ r.call = some c :=
  ⟨{ laneRun (wordOf 0x7B) { callGroup with live := 1, active := 1 } with rays := [waiting 1 0] }, 15, 63,
    { callGroup with live := 1, active := 1 }, wordOf 0x7B, waiting 1 0, aCall 1 (some (0, 0x40000000, 0, 0)), issues_of (ok),
    ok, ok, ok, ok, rfl, ok, rfl⟩

/-- VOTE in each of its modes, NOP and FENCE. -/
theorem wit_LaneExchangeResults : (∀ m ∈ [0, 1, 2], ∃ (s : State) (lc : Fin 16) (slot : Fin 64) (g : Group) (w : Nat), Issues s lc slot g w ∧
      wOpc w = 0x49 ∧ wMod w = m) ∧
    ∀ op ∈ [0x68, 0x52], ∃ (s : State) (lc : Fin 16) (slot : Fin 64) (g : Group) (w : Nat), Issues s lc slot g w ∧ wOpc w = op := by
  have h : ∀ m ∈ [0, 1, 2], issuesHere (laneRun (wordOf 0x49 + m * 2 ^ 48) aGroup) 15 63 aGroup (wordOf 0x49 + m * 2 ^ 48) = true ∧
      wOpc (wordOf 0x49 + m * 2 ^ 48) = 0x49 ∧ wMod (wordOf 0x49 + m * 2 ^ 48) = m := by decide +kernel
  exact ⟨fun m hm => ⟨_, 15, 63, aGroup, _, issues_of (h m hm).1, (h m hm).2⟩,
    fun op hop => wit_issues op (by simp at hop; rcases hop with rfl | rfl <;> decide +kernel)⟩

/-- An idle engine, and a command at the front of the queue whose step answers a next state. -/
theorem wit_IdleStepTicks : ∃ s : State, s.canonical = true ∧ s.pending = [] := ⟨base, ok, ok⟩
theorem wit_StepKeepsQueueAndIntegration : ∃ s t : State, step s = .next t :=
  ⟨{ base with pending := [.heartbeatTimeout] }, _, rfl⟩

/-! ### Worked examples of the manual -/

/-- An FFMA word and an EMIT word of the manual name the fields that the manual says. -/
theorem test_ffma_word : wOpc 0x2A70040102030000 = 0x2A ∧ wGp 0x2A70040102030000 = 7 ∧ wGn 0x2A70040102030000 = false ∧ wD 0x2A70040102030000 = 4 ∧
    wA 0x2A70040102030000 = 1 ∧ wB 0x2A70040102030000 = 2 ∧ wC 0x2A70040102030000 = 3 ∧ wordDefined 0x2A70040102030000 = true := by decide +kernel
theorem test_emit_word : wOpc 0x7870080000000001 = 0x78 ∧ wD 0x7870080000000001 = 8 ∧ wSub 0x7870080000000001 % 4 = 1 ∧
    wordRuns 0x7870080000000001 = [(8, 16)] := by decide +kernel

/-- The block whose largest value is 37.3 has the scale byte 0x7C, and the element the code 0x79. -/
theorem test_mx_block : convBlock 4 [0x42153333] = (0x7C, [0x79], 0, 0) := by decide +kernel

/-- A buffered write takes effect in NAP (R575): the write of 100 to TG_NB_CFG of group 0 has left the buffer and stands in the register. -/
theorem test_write_in_nap : let t := ({ withRegs [(F.cpLpStatusState, 2)] with wbuf := [⟨0x10004, 100, false⟩] } : State).engineEpoch
    t.wbuf = [] ∧ t.readWord 0x10004 = 100 := by decide +kernel

/-- The check value of a monitor line whose text is 123456789. -/
theorem test_crc16 : crc16 [0x31, 0x32, 0x33, 0x34, 0x35, 0x36, 0x37, 0x38, 0x39] = 0x29B1 := by decide +kernel

/-- A big-endian number as `n` bytes. -/
def hexBytes (n v : Nat) : List Byte := (leBytes n v).reverse

/-- The first vector of RFC 8032, section 7.1: its signature of the empty message verifies, and is none of another message. -/
theorem test_ed25519 :
    let key := hexBytes 32 0xD75A980182B10AB7D54BFED3C964073A0EE172F3DAA62325AF021A68F707511A
    let sig := hexBytes 32 0xE5564300C360AC729086E2CC806E828A84877F1EB8E5D974D873E06522490155 ++
      hexBytes 32 0x5FB8821590A33BACC61E39701CF9B46BD25BF5F0595BBE24655141438E7A100B
    ed25519 key [] sig = true ∧ ed25519 key [0] sig = false := by decide +kernel

/-! ### Well-formedness refuses -/

/-- A packet of `n` flits with `b` payload bytes. -/
def packetOf (n b : Nat) : Packet := { pk 0x10 5 9 0 (List.replicate b 0) with len := BitVec.ofNat 8 n }

theorem wf_refuses : (Instr.regWrite 0 0x3000 0 1).wf = false ∧ (Instr.bufferedWrite 0 0x3000 0 1).wf = false ∧
    (Instr.thermalLoopTick []).wf = false ∧ (Instr.ageingInterval []).wf = false ∧ (Instr.ageMeasure 0 0 []).wf = false ∧
    (Instr.startupComplete [] []).wf = false ∧ (Instr.monLine (List.replicate 257 65) false).wf = false ∧ (Instr.monOwnAuthSig []).wf = false ∧
    (packetOf 1 31).wf = false ∧ (packetOf 41 1312).wf = false ∧ ({ packetOf 1 32 with credits := [] } : Packet).wf = false ∧
    (Instr.plkRay 0 (packetOf 1 31)).wf = false ∧ (Instr.plkRay 0 (packetOf 1 32)).wf = true := by decide +kernel
/-- A unit that is to be preempted, or has come to its point. -/
def preemptOf (u : EUnit) (saved : Bool) : Preempt := { unit := u, saved := saved }

/-- An image whose SAVE region of 192 units has room for all 16 lane cores. -/
def saveImage : Image :=
  { imageWith laneChain with part := { (imageWith laneChain).part with regions := (imageWith laneChain).part.regions ++
      [{ kind := 6, zero := false, start := 2, size := 192 }] } }

/-- Lane core 15 with the group `g`, to be preempted or come to its point. -/
def saver (g : Group) (saved : Bool) : State := { laneRun 0 g with active := some saveImage, preempts := [preemptOf (.lc 15) saved] }

/-- Where the bytes of its save area stand. -/
theorem save_at {x : Nat} (h : x < 0xC0000) : (saver aGroup false).saveAddr 15 x = 65536 * 2 + (15 * 0xC0000 + x) := by
  rw [State.saveAddr, show (saver aGroup false).regionsOf 6 = [{ kind := 6, zero := false, start := 2, size := 192 }] by decide +kernel,
    show (saver aGroup false).saveBytes = 0xC0000 by decide +kernel, show (saver aGroup false).saveIndex 15 = 15 by decide +kernel,
    spanAddr, if_pos (show 15 * 0xC0000 + x < 65536 * 192 by omega)]

/-- The save area has room. -/
theorem save_area : SaveArea (saver aGroup false) 15 where
  one x y hx hy h := by
    rw [show (saver aGroup false).saveBytes = 0xC0000 by decide +kernel] at hx hy
    rw [save_at hx, save_at hy] at h
    omega
  whole := ok
  store := ok
  rows := ok

/-- With no class 0 record, no class 0 dispatch and no guest there is no class 0 work. -/
theorem no_class0 {s : State} {u : EUnit} (hh : (s.queue 0).head = none := by decide +kernel) (hf : (s.queue 0).firings = [] := by decide +kernel)
    (hd : ∀ d ∈ s.disps, d.rcd.cls ≠ 0 := by decide +kernel) (hr : ∀ r ∈ s.rays, r.guest = none := by decide +kernel) : NoClass0 s u where
  waiting im _ r h0 h := by
    rcases h with h | ⟨f, h, _⟩ | ⟨d, h, e, _⟩
    · rw [hh] at h; cases h
    · rw [hf] at h; cases h
    · exact absurd (e ▸ h0) (hd d h)
  items d h h0 := absurd h0 (hd d h)
  guests r h hg := absurd (hr r h) hg

/-- A class 1 ray in a context of cluster 0, which is to be preempted. -/
def clusterYields (l : List Ray) : State := { tracing [] [] with rays := l, preempts := [preemptOf (.tc 0) false] }

theorem wit_DetectionResults_a :
    (∃ (s : State) (u : EUnit), s.canonical = true) ∧
    (∃ (s : State) (u : EUnit) (word : Half), MayFence s u ∧ u.kind ∈ [1, 2, 3, 4]) ∧
    (∃ (s : State) (u : EUnit), MayFence s u ∧ s.get F.rasWd ≠ 0 ∧ s.inService u = true ∧ s.holdsWork u = true) ∧
    (∃ (s : State) (u : EUnit), s.get F.rasWd = 0) :=
  ⟨⟨base, .lc 15, ok⟩,
   ⟨base, .tc 31, 0xFFFF, ⟨ok, ok, ok, ok⟩, ok⟩,
   ⟨{ withRegs [(F.rasWd, 1)] with rays := [{ aRay with loc := .batch, tc := 31 }] }, .tc 31, ⟨ok, ok, ok, ok⟩, ok, ok, ok⟩,
   ⟨withRegs [(F.rasWd, 0)], .tc 31, ok⟩⟩

theorem wit_DetectionResults_b :
    (∃ (s : State) (store : Fin 4) (line : Nat), s.canonical = true) ∧
    (∃ (s : State) (line : Nat) (b : Fin 64), MayFence s (.bank b) ∧ s.pends b.val = false) ∧
    (∃ (s : State) (line : Nat) (b : Fin 64), Uncaptured s) ∧
    (∃ (s : State) (u : Option EUnit) (word : Half), Uncaptured s ∧ u ∈ [none, some .sorter, some .query, some .hrp]) :=
  ⟨⟨base, 3, 9, ok⟩,
   ⟨base, 63, 63, ⟨ok, ok, ok, ok⟩, ok⟩,
   ⟨base, 9, 0, ⟨ok, ok⟩⟩,
   ⟨base, some .hrp, 0xFFFF, ⟨ok, ok⟩, ok⟩⟩

theorem wit_DetectionResults_c :
    (∃ (s : State) (word : Half) (reload : ReadOutcome), Uncaptured s) ∧
    (∃ (s : State) (tc : Fin 32) (k : Nat) (l : SpcLine), Uncaptured s ∧ k < 48 ∧ l.dirty = true ∧
      (s.cachesOf tc.val).spc.find? (fun e => e.1 == k && e.2.dirty) = some (k, l)) ∧
    (∃ (s : State) (tc : Fin 32) (k : Nat) (ok : Bool) (l : NcLine), let c := s.cachesOf tc.val; s.canonical = true ∧
      c.nc.find? (fun e => e.1 == k) = some (k, l)) ∧
    (∃ (s : State) (tc : Fin 32) (k : Nat) (ok : Bool) (l : SpcLine), let c := s.cachesOf tc.val; s.canonical = true ∧
      c.spc.find? (fun e => e.1 == k) = some (k, l) ∧ l.dirty = false) :=
  ⟨⟨base, 0xFFFF, .abort, ⟨ok, ok⟩⟩,
   ⟨cached true, 31, 5, _, ⟨ok, ok⟩, ok, ok, rfl⟩,
   ⟨cached true, 31, 5, true, _, ok, rfl⟩,
   ⟨cached false, 31, 5, false, _, ok, rfl, ok⟩⟩

theorem wit_DetectionResults_d :
    (∃ (s : State) (lc : Fin 16) (slot : Fin 64) (lanes : Word), Uncaptured s ∧ (s.groupAt lc.val slot.val).isSome = true) ∧
    (∃ (s : State) (arr : Fin 2) (place : Nat), Uncaptured s) ∧
    (∃ (s : State) (iova : DWord), Uncaptured s) :=
  ⟨⟨laneRun 0 aGroup, 15, 63, 1, ⟨ok, ok⟩, ok⟩,
   ⟨base, 1, 251, ⟨ok, ok⟩⟩,
   ⟨base, 0xFFFFFFFFFFFFFFFF, ⟨ok, ok⟩⟩⟩

theorem wit_PreemptionPoints_a :
    (∃ (s : State) (u : EUnit), (∀ i, u ≠ .lc i) ∧ (∀ i, u ≠ .tc i) ∧ (∀ i, u ≠ .quad i) ∧ Preempts s u) ∧
    (∃ (s : State) (q : Fin 8), Preempts s (.quad q)) ∧
    (∃ (s : State) (i : Fin 32), Preempts s (.tc i) ∧ (s.cachesOf i.val).ncMiss = [] ∧ (s.cachesOf i.val).spcMiss = [] ∧
      (∀ r ∈ s.rays, r.tc = i.val → r.cls ≠ 0 → r.loc ≠ .ctx)) ∧
    (∃ (s u : State) (i : Fin 32) (r : Ray), Preempts s (.tc i) ∧ (s.cachesOf i.val).ncMiss = [] ∧ (s.cachesOf i.val).spcMiss = [] ∧
      s.rays.filter (fun x => x.tc == i.val && x.loc == .ctx && x.cls != 0) = [r] ∧ s.spillFails r i.val (s.stateAccess r true) = none ∧
        s.spcAccess i.val 4 (s.stateAccess r true) = (true, u)) :=
  ⟨⟨{ base with preempts := [preemptOf (.se 3) false] }, .se 3, nofun, nofun, nofun, ⟨_, .head _, rfl, rfl⟩⟩,
   ⟨{ base with preempts := [preemptOf (.quad 7) false] }, 7, ⟨_, .head _, rfl, rfl⟩⟩,
   ⟨clusterYields [], 0, ⟨_, .head _, rfl, rfl⟩, ok, ok, ok⟩,
   ⟨clusterYields [aRay], _, 0, aRay, ⟨_, .head _, rfl, rfl⟩, ok, ok, ok, ok, rfl⟩⟩

theorem wit_PreemptionPoints_b :
    (∃ (s : State) (i : Fin 16), s.canonical = true ∧ Preempts s (.lc i) ∧ SaveArea s i ∧ s.toSave i ≠ [] ∧ (∀ e ∈ s.toSave i, e.1.copies = [] ∧
      (∀ x, e.1.wait ≠ .load x) ∧ ∀ m, (s.lcore i).mma = some m → m.group ≠ e.1.id)) ∧
    (∃ (s : State) (i : Fin 16), Preempts s (.lc i) ∧ s.toSave i = []) :=
  ⟨⟨saver aGroup false, 15, ok, ⟨_, .head _, rfl, rfl⟩, save_area, ok, fun e h => by
    rw [show (saver aGroup false).toSave ((15 : Fin 16) : Nat) = [(aGroup, 0)] by decide +kernel, List.mem_singleton] at h
    subst h
    exact ⟨ok, nofun, fun m h => nomatch (h : none = some m)⟩⟩,
   ⟨{ base with preempts := [preemptOf (.lc 0) false] }, 0, ⟨_, .head _, rfl, rfl⟩, ok⟩⟩

theorem wit_PreemptionReturns :
    (∃ (s : State) (i : Fin 16) (p : Preempt) (h : Group), s.canonical = true ∧ p ∈ s.preempts ∧ p.unit = .lc i ∧ p.saved = true ∧
      NoClass0 s (.lc i) ∧ s.groups.find? (fun g => g.lc == i.val && g.saved) = some h ∧ s.sfPoison = []) ∧
    (∃ (s : State) (u : EUnit) (p : Preempt), p ∈ s.preempts ∧ p.unit = u ∧ p.saved = true ∧ NoClass0 s u ∧
      (∀ i : Fin 16, u = .lc i → ∀ g ∈ s.groups, g.lc = i.val → g.saved = false)) :=
  ⟨⟨saver { aGroup with saved := true } true, 15, preemptOf (.lc 15) true, { aGroup with saved := true }, ok, ok, ok, ok, no_class0, ok, ok⟩,
   ⟨saver aGroup true, .lc 15, preemptOf (.lc 15) true, ok, ok, ok, no_class0, by rintro i h; injection h with h; subst h; decide +kernel⟩⟩

end Sys2Proof.Tests
end

section
/-! PROOFS. Hit selection: the model compares keys as one packed number, the manual element by element (R205). -/

namespace Sys2Proof.HitOrder

open Sys2Proof.Machine Sys2Proof.Claims

/-- The number that `hitBetter` compares: the elements of the key as the digits of one number, INSTANCE_ID first. -/
def packedKey (h : Hit) : Nat := ((h.inst * 2 ^ 24 + h.geom) * 2 ^ 32 + h.prim) * 256 + h.kind

/-- The elements of the key below the first are within the widths of their fields (Table 64). -/
def KeyInRange (h : Hit) : Prop := h.geom < 2 ^ 24 ∧ h.prim < 2 ^ 32 ∧ h.kind < 256

/-- The candidate `h` comes before the best hit in the order of keys, or no best hit is held. -/
def BeatsHeld (held : Option Hit) (h : Hit) : Prop := ∀ b, held = some b → packedKey h < packedKey b

theorem mul_add_lt_mul_add_iff {n lo lo' : Nat} (hi hi' : Nat) (hlo : lo < n) (hlo' : lo' < n) :
    hi * n + lo < hi' * n + lo' ↔ hi < hi' ∨ (hi = hi' ∧ lo < lo') := by
  have below {a b x : Nat} (y : Nat) (hx : x < n) (hab : a < b) : a * n + x < b * n + y := by
    have : (a + 1) * n ≤ b * n := Nat.mul_le_mul_right n hab
    rw [Nat.succ_mul] at this
    omega
  obtain hlt | rfl | hgt := Nat.lt_trichotomy hi hi'
  · exact iff_of_true (below lo' hlo hlt) (.inl hlt)
  · simp
  · have := below lo hlo' hgt
    omega

/-- Grouped from the right, each digit stands before a number smaller than its own weight. -/
theorem packedKey_eq (h : Hit) :
    packedKey h = h.inst * 2 ^ 64 + (h.geom * 2 ^ 40 + (h.prim * 2 ^ 8 + h.kind)) := by
  unfold packedKey
  omega

theorem packedKey_lt_iff_keyLess {a b : Hit} (ha : KeyInRange a) (hb : KeyInRange b) :
    packedKey a < packedKey b ↔ keyLess (hitKey a) (hitKey b) := by
  obtain ⟨hag, hap, hak⟩ := ha
  obtain ⟨hbg, hbp, hbk⟩ := hb
  rw [packedKey_eq, packedKey_eq, mul_add_lt_mul_add_iff _ _ (by omega) (by omega),
    mul_add_lt_mul_add_iff _ _ (by omega) (by omega), mul_add_lt_mul_add_iff _ _ (by omega) (by omega)]
  rfl

theorem hitBetter_iff (tmin tmax best : Nat) (held : Option Hit) (h : Hit) :
    hitBetter tmin tmax best held h = true ↔ leF fp32 tmin h.t = true ∧ leF fp32 h.t tmax = true ∧
      (ltF fp32 h.t best = true ∨ (eqF fp32 h.t best = true ∧ BeatsHeld held h)) := by
  cases held with
  | none => simp [hitBetter, BeatsHeld, and_assoc]
  | some b => simp [hitBetter, BeatsHeld, packedKey, and_assoc]

theorem beatsHeld_iff {held : Option Hit} {h : Hit} (hh : KeyInRange h) (hheld : ∀ b, held = some b → KeyInRange b) :
    BeatsHeld held h ↔ ∀ b, held = some b → keyLess (hitKey h) (hitKey b) :=
  forall₂_congr fun b hb => packedKey_lt_iff_keyLess hh (hheld b hb)

/-- Settles O42: within the widths of their fields the packed keys are ordered as the tuples are. -/
theorem hitSelection : Obligations.HitSelection := by
  intro tmin tmax best held h hgeom hprim hkind hheld
  rw [hitBetter_iff, beatsHeld_iff ⟨hgeom, hprim, hkind⟩ hheld]

end Sys2Proof.HitOrder
end

section
/-! PROOFS. FMIN and FMAX at NaNs and at signed zeros (R435). -/

namespace Sys2Proof.MinMax

open Sys2Proof.Machine

section

variable {f : FFmt} {a b : Nat}

theorem fMin_eq_right_of_nan_left (ha : isNan f a = true) (hb : isNan f b = false) : fMin f a b = b := by
  simp [fMin, ha, hb]

theorem fMin_eq_left_of_nan_right (ha : isNan f a = false) (hb : isNan f b = true) : fMin f a b = a := by
  simp [fMin, ha, hb]

theorem fMin_eq_nanBits (ha : isNan f a = true) (hb : isNan f b = true) : fMin f a b = f.nanBits := by
  simp [fMin, ha, hb]

theorem fMax_eq_right_of_nan_left (ha : isNan f a = true) (hb : isNan f b = false) : fMax f a b = b := by
  simp [fMax, ha, hb]

theorem fMax_eq_left_of_nan_right (ha : isNan f a = false) (hb : isNan f b = true) : fMax f a b = a := by
  simp [fMax, ha, hb]

theorem fMax_eq_nanBits (ha : isNan f a = true) (hb : isNan f b = true) : fMax f a b = f.nanBits := by
  simp [fMax, ha, hb]

/-- Between operands that compare equal, as the two zeros do, the sign of the first decides. -/
theorem fMin_of_cmpF_eq_zero (ha : isNan f a = false) (hb : isNan f b = false) (h : cmpF f a b = 0) :
    fMin f a b = if bit a (f.ebits + f.mbits) then a else b := by
  simp [fMin, ha, hb, h]

theorem fMax_of_cmpF_eq_zero (ha : isNan f a = false) (hb : isNan f b = false) (h : cmpF f a b = 0) :
    fMax f a b = if bit a (f.ebits + f.mbits) then b else a := by
  simp [fMax, ha, hb, h]

end

theorem isNan_posZero : isNan fp32 0 = false := by decide

theorem isNan_negZero : isNan fp32 0x80000000 = false := by decide

theorem cmpF_posZero_negZero : cmpF fp32 0 0x80000000 = 0 := by decide

theorem cmpF_negZero_posZero : cmpF fp32 0x80000000 0 = 0 := by decide

/-- Settles O6: a NaN is asked for before the order, and between the two zeros, which compare equal, the sign decides. -/
theorem minMaxSpecialValues : Obligations.MinMaxSpecialValues := by
  refine ⟨fun a b ha hb => ⟨?_, ?_, ?_, ?_⟩, fun a b ha hb => ⟨fMin_eq_nanBits ha hb, fMax_eq_nanBits ha hb⟩, ?_, ?_, ?_, ?_⟩
  · exact fMin_eq_right_of_nan_left ha hb
  · exact fMax_eq_right_of_nan_left ha hb
  · exact fMin_eq_left_of_nan_right hb ha
  · exact fMax_eq_left_of_nan_right hb ha
  · rw [fMin_of_cmpF_eq_zero isNan_posZero isNan_negZero cmpF_posZero_negZero]; rfl
  · rw [fMin_of_cmpF_eq_zero isNan_negZero isNan_posZero cmpF_negZero_posZero]; rfl
  · rw [fMax_of_cmpF_eq_zero isNan_posZero isNan_negZero cmpF_posZero_negZero]; rfl
  · rw [fMax_of_cmpF_eq_zero isNan_negZero isNan_posZero cmpF_negZero_posZero]; rfl

end Sys2Proof.MinMax
end

section
/-! PROOFS. The issue of an instruction that acts lane by lane on its own group (R381, R419, R426): what is counted, what becomes of the
group, and that nothing else in the engine changes. -/

namespace Sys2Proof.LaneIssue

open Sys2Proof.Machine Sys2Proof.Claims

/-! ### Operations that move registers only -/

/-- Nothing but the register fields of `fs` differs. -/
structure MovesOnly (fs : List RField) (s t : State) : Prop where
  rest : t = { s with regs := t.regs }
  regs : RegsBut fs s t

theorem MovesOnly.refl (fs : List RField) (s : State) : MovesOnly fs s s := ⟨rfl, fun _ _ => rfl⟩

theorem MovesOnly.trans {fs : List RField} {s t u : State} (h : MovesOnly fs s t) (k : MovesOnly fs t u) : MovesOnly fs s u :=
  ⟨by rw [k.rest, h.rest], fun f hf => (k.regs f hf).trans (h.regs f hf)⟩

theorem MovesOnly.mono {fs gs : List RField} {s t : State} (h : MovesOnly fs s t) (hsub : ∀ f ∈ fs, f ∈ gs) : MovesOnly gs s t :=
  ⟨h.rest, fun f hf => h.regs f fun x hx => hf x (hsub x hx)⟩

theorem MovesOnly.set {fs : List RField} {s t : State} (h : MovesOnly fs s t) {f : RField} (hf : f ∈ fs) (v : Nat) :
    MovesOnly fs s (t.set f v) :=
  h.trans ⟨rfl, fun g hg => State.get_set_other t f g v (hg f hf).symm⟩

theorem MovesOnly.progOf {fs : List RField} {s t : State} (h : MovesOnly fs s t) (p : Nat) : t.progOf p = s.progOf p := by
  rw [h.rest]
  rfl

theorem MovesOnly.group {fs : List RField} {s t : State} (h : MovesOnly fs s t) (id : Nat) : t.group id = s.group id := by
  rw [h.rest]
  rfl

theorem MovesOnly.groupAt {fs : List RField} {s t : State} (h : MovesOnly fs s t) (lc slot : Nat) :
    t.groupAt lc slot = s.groupAt lc slot := by
  rw [h.rest]
  rfl

theorem MovesOnly.modGroup {fs : List RField} {s t : State} (h : MovesOnly fs s t) (id : Nat) (k : Group) :
    t.modGroup id (fun _ => k) = { s with groups := s.groups.map fun x => if x.id = id then k else x, regs := t.regs } := by
  rw [h.rest]
  simp [State.modGroup]

theorem movesOnly_perf (s : State) (ev : Nat) (u : EUnit) (c : Option Nat) (n : Nat) : MovesOnly perfRegs s (s.perf ev u c n) := by
  unfold State.perf
  split
  · exact .refl _ s
  · refine List.foldlRecOn _ _ (.refl _ s) fun t ht i hi => ?_
    have hlo : F.pcCntLo i ∈ perfRegs := List.mem_cons_of_mem _ (List.mem_flatMap.2 ⟨i, hi, by simp⟩)
    have hhi : F.pcCntHi i ∈ perfRegs := List.mem_cons_of_mem _ (List.mem_flatMap.2 ⟨i, hi, by simp⟩)
    have hcnt (v : Nat) := (ht.set hlo v).set hhi (v / 2 ^ 32)
    dsimp only
    split
    · split
      · exact (hcnt _).set (.head _) _
      · exact hcnt _
    · exact ht

theorem movesOnly_tally2 (s : State) (lo hi : RField) (n : Nat) : MovesOnly [lo, hi] s (s.tally2 lo hi n) :=
  ((MovesOnly.refl _ s).set (by simp) _).set (by simp) _

/-! ### The count of issued words -/

theorem movesOnly_issued (s : State) (g : Group) : MovesOnly (issueRegs g.lc) s (s.issued g) :=
  ((movesOnly_tally2 s _ _ 1).mono (by simp [issueRegs])).trans
    ((movesOnly_perf _ 8 _ _ 1).mono fun _ hf => List.mem_cons_of_mem _ (List.mem_cons_of_mem _ hf))

theorem key_ne_lcIssued_of_mem_perfRegs {lc : Nat} (hlc : lc < 16) {x : RField} (hx : x ∈ perfRegs) :
    x.key ≠ (F.lcIssuedLo lc).key ∧ x.key ≠ (F.lcIssuedHi lc).key := by
  have h : x = F.pcOvf ∨ ∃ i, x = F.pcCntLo i ∨ x = F.pcCntHi i := by
    simp only [perfRegs, List.mem_cons, List.mem_flatMap, List.not_mem_nil, or_false] at hx
    exact hx.imp_right fun ⟨i, _, hi⟩ => ⟨i, hi⟩
  obtain rfl | ⟨i, rfl | rfl⟩ := h <;>
    simp only [RField.key, F.pcOvf, F.pcCntLo, F.pcCntHi, F.lcIssuedLo, F.lcIssuedHi] <;> omega

theorem issuedCount_perf (s : State) (ev : Nat) (u : EUnit) (c : Option Nat) (n : Nat) {lc : Nat} (hlc : lc < 16) :
    issuedCount (s.perf ev u c n) lc = issuedCount s lc := by
  have h := (movesOnly_perf s ev u c n).regs
  unfold issuedCount
  rw [h _ fun x hx => (key_ne_lcIssued_of_mem_perfRegs hlc hx).1, h _ fun x hx => (key_ne_lcIssued_of_mem_perfRegs hlc hx).2]

theorem issuedCount_tally2 (s : State) (lc n : Nat) (hs : swf regReset s.regs = true) :
    issuedCount (s.tally2 (F.lcIssuedLo lc) (F.lcIssuedHi lc) n) lc = (issuedCount s lc + n) % 2 ^ 64 := by
  have hkey : (F.lcIssuedLo lc).key ≠ (F.lcIssuedHi lc).key := by
    simp only [RField.key, F.lcIssuedLo, F.lcIssuedHi]
    omega
  unfold issuedCount State.tally2
  dsimp only
  rw [State.get_set_other _ _ _ _ hkey, State.get_set_same _ _ _ hs, State.get_set_same _ _ _ (State.set_regs_wf _ _ _ hs)]
  simp only [F.lcIssuedLo, F.lcIssuedHi]
  omega

theorem issuedCount_issued {s : State} {g : Group} (hs : swf regReset s.regs = true) (hlc : g.lc < 16) :
    issuedCount (s.issued g) g.lc = (issuedCount s g.lc + 1) % 2 ^ 64 := by
  rw [State.issued, issuedCount_perf _ _ _ _ _ hlc, issuedCount_tally2 _ _ _ hs]

/-! ### Groups by id and by slot -/

theorem eq_of_nodup_map {α β : Type} {f : α → β} {l : List α} (hl : (l.map f).Nodup) {x y : α} (hx : x ∈ l) (hy : y ∈ l)
    (h : f x = f y) : x = y := by
  induction l with
  | nil => cases hx
  | cons a l ih =>
    rw [List.map_cons, List.nodup_cons] at hl
    obtain ⟨ha, hl⟩ := hl
    obtain rfl | hxl := List.mem_cons.1 hx
    · obtain rfl | hyl := List.mem_cons.1 hy
      · rfl
      · exact absurd (h ▸ List.mem_map_of_mem hyl) ha
    · obtain rfl | hyl := List.mem_cons.1 hy
      · exact absurd (h ▸ List.mem_map_of_mem hxl) ha
      · exact ih hl hxl hyl

theorem find?_eq_of_agree {α : Type} {p q : α → Bool} {l : List α} (h : ∀ x ∈ l, p x = q x) : l.find? p = l.find? q := by
  induction l with
  | nil => rfl
  | cons a l ih =>
    rw [List.find?_cons, List.find?_cons, h a (.head _), ih fun x hx => h x (.tail _ hx)]

theorem group_eq_of_id {s : State} (hs : Canon s) {g x : Group} (hg : g ∈ s.groups) (hx : x ∈ s.groups) (h : x.id = g.id) : x = g :=
  eq_of_nodup_map hs.handles.2 hx hg h

theorem group_of_mem {s : State} (hs : Canon s) {g : Group} (hg : g ∈ s.groups) : s.group g.id = some g := by
  have hsome : (s.group g.id).isSome = true := List.find?_isSome.2 ⟨g, hg, by simp⟩
  obtain ⟨x, hx⟩ := Option.isSome_iff_exists.1 hsome
  rw [hx, group_eq_of_id hs hg (List.mem_of_find?_eq_some hx) (by simpa using List.find?_some hx)]

theorem place_of_groupAt {s : State} {lc slot : Nat} {g : Group} (h : s.groupAt lc slot = some g) :
    g.lc = lc ∧ g.slot = some slot ∧ g.saved = false := by
  simpa [and_assoc] using List.find?_some h

theorem group_modGroup {s : State} {g h : Group} (hg : s.group g.id = some g) (hid : h.id = g.id) :
    (s.modGroup g.id fun _ => h).group g.id = some h := by
  unfold State.group State.modGroup at *
  rw [List.find?_map, show ((fun x : Group => x.id == g.id) ∘ fun x => if x.id == g.id then h else x) = fun x => x.id == g.id from ?_, hg]
  · simp
  · funext x
    simp only [Function.comp_apply]
    split <;> simp_all

theorem groupAt_modGroup {s : State} (hs : Canon s) {lc slot : Nat} {g h : Group} (hg : s.groupAt lc slot = some g)
    (hlc : h.lc = g.lc) (hslot : h.slot = g.slot) (hsaved : h.saved = g.saved) :
    (s.modGroup g.id fun _ => h).groupAt lc slot = some h := by
  have hmem := State.groupAt_mem hg
  unfold State.groupAt State.modGroup at *
  dsimp only
  rw [List.find?_map, find?_eq_of_agree (q := fun x => x.lc == lc && x.slot == some slot && !x.saved) fun x hx => ?_, hg]
  · simp
  · simp only [Function.comp_apply]
    split
    · rename_i hid
      rw [group_eq_of_id hs hmem hx (by simpa using hid), hlc, hslot, hsaved]
    · rfl

/-! ### An instruction that leaves its group at the next word -/

theorem nextWord_frame {g h : Group} (hn : NextWord g h) :
    h.id = g.id ∧ h.lc = g.lc ∧ h.slot = g.slot ∧ h.saved = g.saved ∧ h.prog = g.prog ∧ h.live = g.live ∧ h.active = g.active ∧
      h.pc = g.pc + 8 := by
  rw [hn]
  exact ⟨rfl, rfl, rfl, rfl, rfl, rfl, rfl, rfl⟩

/-- No lane, no fault: `leastBy` finds none in the empty list. -/
theorem laneFaults_nil (s : State) (gid pc : Nat) : s.laneFaults gid pc [] = s := by
  unfold State.laneFaults
  split
  · rename_i e
    cases e
  · rfl

/-- A group with live and active lanes whose code goes on has nothing to settle (R385, R419). -/
theorem finish_eq_self {s : State} {h : Group} (pc : Nat) (hg : s.group h.id = some h) (hlive : h.live ≠ 0) (hactive : h.active ≠ 0)
    (hpc : h.pc < (s.progOf h.prog).codeLen) : s.finish h.id pc [] = s := by
  rw [State.finish, laneFaults_nil, State.groupSettle, hg]
  dsimp only
  rw [if_neg hlive, if_neg hactive, if_neg (by omega)]

theorem groupAt_of_ready {s : State} {lc slot : Nat} {g : Group} {w : Nat} (h : s.ready lc slot = some (g, w)) :
    s.groupAt lc slot = some g := by
  unfold State.ready at h
  split at h
  · cases h
  · rename_i g' hg
    repeat' split at h
    all_goals cases h
    exact hg

theorem issue_eq {s : State} {lc slot : Nat} {g : Group} {w : Nat} (hi : Issues s lc slot g w) {ops : List Nat} (hop : wOpc w ∈ ops)
    (act : State → Group → Nat → State) : s.issue lc slot ops act = act (s.issued g) g w := by
  rw [State.issue, hi.ready]
  dsimp only
  rw [if_pos (List.contains_iff_mem.2 hop), State.checked, hi.defined, (movesOnly_issued s g).progOf, hi.named]
  rfl

theorem onlyGroup_modGroup {s t : State} {lc slot : Nat} {g h : Group} (hmoves : MovesOnly (issueRegs lc) s t)
    (hcount : issuedCount t lc = (issuedCount s lc + 1) % 2 ^ 64) (ht : Canon t) (hg : s.groupAt lc slot = some g) (hn : NextWord g h) :
    OnlyGroup s (t.modGroup g.id fun _ => h) lc slot g h := by
  obtain ⟨-, hlc, hslot, hsaved, -⟩ := nextWord_frame hn
  exact ⟨groupAt_modGroup ht ((hmoves.groupAt lc slot).trans hg) hlc hslot hsaved, hmoves.modGroup g.id h, hcount, hmoves.regs⟩

theorem onlyGroup_issued {s : State} {lc : Fin 16} {slot : Nat} {g h : Group} (hs : Canon s) (hg : s.groupAt lc slot = some g)
    (hn : NextWord g h) : OnlyGroup s ((s.issued g).modGroup g.id fun _ => h) lc slot g h := by
  obtain ⟨hlc, -⟩ := place_of_groupAt hg
  have hmoves := movesOnly_issued s g
  have hcount := issuedCount_issued (s := s) (g := g) hs.regs (by omega)
  rw [hlc] at hmoves hcount
  exact onlyGroup_modGroup hmoves hcount ((State.issued_keeps s g (Keeps.refl s)).canon hs) hg hn

/-- The group after `f` of every lane in which the word acts. -/
def eachLane (g : Group) (w : Nat) (f : Nat → Group → Group) : Group := (g.selected w).foldl (fun a l => f l a) g.next

theorem nextWord_eachLane {g : Group} {w : Nat} {f : Nat → Group → Group} (hf : ∀ l a, NextWord g a → NextWord g (f l a)) :
    NextWord g (eachLane g w f) :=
  List.foldlRecOn (motive := NextWord g) _ _ rfl fun a ha l _ => hf l a ha

theorem lanewise_eq_modGroup {s : State} {g : Group} {w : Nat} {f : Nat → Group → Group} (hg : s.group g.id = some g)
    (hn : NextWord g (eachLane g w f)) (hlive : g.live ≠ 0) (hactive : g.active ≠ 0) (hpc : g.pc + 8 < (s.progOf g.prog).codeLen) :
    s.lanewise g w f = s.modGroup g.id fun _ => eachLane g w f := by
  obtain ⟨hid', -, -, -, hprog', hlive', hactive', hpc'⟩ := nextWord_frame hn
  have hafter := group_modGroup hg hid'
  unfold State.lanewise
  rw [← hid'] at hafter ⊢
  exact finish_eq_self _ hafter (hlive' ▸ hlive) (hactive' ▸ hactive) (by rw [hpc', hprog']; exact hpc)

theorem lanewise_issued {s : State} {lc slot : Nat} {g : Group} {w : Nat} {f : Nat → Group → Group} (hi : Issues s lc slot g w)
    (hn : NextWord g (eachLane g w f)) : (s.issued g).lanewise g w f = (s.issued g).modGroup g.id fun _ => eachLane g w f := by
  have hs := (State.canonical_iff s).1 hi.canonical
  have hmoves := movesOnly_issued s g
  refine lanewise_eq_modGroup ?_ hn hi.live hi.active ?_
  · rw [hmoves.group, group_of_mem hs (State.ready_mem hi.ready)]
  · rw [hmoves.progOf]
    exact hi.inCode

/-! ### Writes of D -/

theorem reg_setReg {g : Group} (hg : g.Canon) {l l' r r' : Nat} (v : Nat) (hr : r < 256) (hr' : r' < 256) :
    (g.setReg l r v).reg l' r' = if l' = l ∧ r' = r ∧ r' ≠ 255 then v % 2 ^ 32 else g.reg l' r' := by
  unfold Group.setReg Group.reg
  by_cases hz : r' = 255
  · simp [hz]
  · by_cases hk : l' = l ∧ r' = r
    · obtain ⟨rfl, rfl⟩ := hk
      simp [hz, sget_sset_same _ _ _ _ none hg.1]
    · have hne : 256 * l' + r' ≠ 256 * l + r := by omega
      by_cases hr : r = 255 <;> simp [hz, hk, hr, sget_sset_other _ _ _ _ _ hne]

theorem setReg_preds (g : Group) (l r v : Nat) : (g.setReg l r v).preds = g.preds := by
  unfold Group.setReg
  split <;> rfl

theorem nextWord_setReg {g a : Group} (h : NextWord g a) (l r v : Nat) : NextWord g (a.setReg l r v) := by
  unfold NextWord at *
  unfold Group.setReg
  split
  · exact h
  · rw [h]

theorem reg_foldl_setReg {g : Group} (hg : g.Canon) {r r' : Nat} (f : Nat → Nat) (hr : r < 256) (hr' : r' < 256)
    (ls : List Nat) (l' : Nat) :
    (ls.foldl (fun a l => a.setReg l r (f l)) g).reg l' r' =
      if l' ∈ ls ∧ r' = r ∧ r' ≠ 255 then f l' % 2 ^ 32 else g.reg l' r' := by
  induction ls generalizing g with
  | nil => simp
  | cons l ls ih =>
    rw [List.foldl_cons, ih (Group.setReg_canon l r (f l) hg), reg_setReg hg (f l) hr hr']
    by_cases hl : l' = l
    · subst hl
      by_cases h : r' = r ∧ r' ≠ 255
      · by_cases hm : l' ∈ ls <;> simp_all
      · simp [h]
    · simp [hl]

theorem mem_selected {g : Group} {w l : Nat} : l ∈ g.selected w ↔ l < 32 ∧ acts g w l = true := by
  simp [Group.selected, lanesOf, bitsOf, acts, and_comm]

theorem wD_lt (w : Nat) : wD w < 256 := Nat.mod_lt _ (by decide)

theorem writesD_eachLane {g : Group} (hg : g.Canon) (w : Nat) (f : Nat → Nat) :
    WritesD g (eachLane g w fun l a => a.setReg l (wD w) (f l)) w fun l => BitVec.ofNat 32 (f l) := by
  refine ⟨fun l r hl hr => ?_, List.foldlRecOn (motive := fun a : Group => a.preds = g.preds) _ _ rfl fun a ha l _ => ?_⟩
  · rw [eachLane, reg_foldl_setReg (Group.next_canon hg) f (wD_lt w) hr, BitVec.toNat_ofNat]
    simp only [mem_selected, hl, true_and]
    rfl
  · rw [setReg_preds, ha]

/-- A command that issues a word and writes D lane by lane gives what it writes. -/
theorem givesD_of_writesD {c : Fin 16 → Fin 64 → Instr} {ops : List Nat} {f : Group → Nat → Nat → Nat}
    (hc : ∀ lc slot s, exec (c lc slot) s = .next (s.issue lc slot ops fun s g w => s.writesD g w (f g w))) :
    GivesD c ops fun _ g w l => BitVec.ofNat 32 (f g w l) := by
  intro s lc slot g w hi hop
  have hs := (State.canonical_iff s).1 hi.canonical
  have hn : NextWord g (eachLane g w fun l a => a.setReg l (wD w) (f g w l)) :=
    nextWord_eachLane fun l a ha => nextWord_setReg ha l _ _
  have hgroup := groupAt_of_ready hi.ready
  refine ⟨_, _, ?_, onlyGroup_issued hs hgroup hn, hn, writesD_eachLane (hs.groups g (State.groupAt_mem hgroup)) w _⟩
  rw [hc, issue_eq hi hop, State.writesD, lanewise_issued hi hn]

end Sys2Proof.LaneIssue
end

section
/-! PROOFS. F2I at its limits, and I2F (R438).  A number beyond an integer on the side away from 0 stays beyond it, or comes to it, in every
direction of rounding: no rounding gives a magnitude below the whole part.  So a value beyond the target range is cut to the nearest end. -/

namespace Sys2Proof.IntegerConversion

open Sys2Proof.Machine Sys2Proof.Claims Sys2Proof.LaneIssue

/-! ### Integers and dyadic numbers

A dyadic number is `(d.n * pow2 d.e) / pow2 (-d.e)`, where one of the two powers is 1. -/

theorem pow2_of_nonpos {k : Int} (h : k ≤ 0) : pow2 k = 1 := by
  rw [pow2, Int.toNat_of_nonpos h, Nat.pow_zero]

theorem int_lt_iff (k : Int) (d : Dy) : (Dy.int k).lt d = true ↔ k * pow2 (-d.e) < d.n * pow2 d.e := by
  unfold Dy.lt Dy.sub Dy.add Dy.neg Dy.int
  rw [decide_eq_true_iff]
  dsimp only
  split
  · rename_i h
    rw [Int.sub_zero, Int.neg_mul, pow2_of_nonpos (k := -d.e) (by omega)]
    dsimp only
    omega
  · rename_i h
    rw [Int.zero_sub, pow2_of_nonpos (k := d.e) (by omega)]
    dsimp only
    omega

theorem lt_int_iff (k : Int) (d : Dy) : d.lt (Dy.int k) = true ↔ d.n * pow2 d.e < k * pow2 (-d.e) := by
  unfold Dy.lt Dy.sub Dy.add Dy.neg Dy.int
  rw [decide_eq_true_iff]
  dsimp only
  split
  · rename_i h
    rw [Int.zero_sub, Int.neg_mul, pow2_of_nonpos (k := d.e) (by omega)]
    dsimp only
    omega
  · rename_i h
    rw [Int.sub_zero, pow2_of_nonpos (k := -d.e) (by omega)]
    dsimp only
    omega

theorem pow2_pos (k : Int) : 0 < pow2 k := Nat.two_pow_pos _

/-! ### Rounding -/

/-- The magnitude `a / b` rounded to an integer. -/
def roundedMag (rm : Nat) (neg : Bool) (a b : Nat) : Nat := a / b + boolNat (roundsUp rm neg (a / b) (a % b) b)

theorem round_eq (rm : Nat) (d : Dy) :
    d.round rm = if d.n < 0 then -(roundedMag rm true (d.n.natAbs * pow2 d.e) (pow2 (-d.e)) : Int)
      else roundedMag rm false (d.n.natAbs * pow2 d.e) (pow2 (-d.e)) := by
  unfold Dy.round roundedMag
  by_cases h : d.n < 0 <;> simp [h]

theorem le_roundedMag (rm : Nat) (neg : Bool) {a b k : Nat} (hb : 0 < b) (h : k * b ≤ a) : k ≤ roundedMag rm neg a b :=
  Nat.le_trans ((Nat.le_div_iff_mul_le hb).mpr h) (Nat.le_add_right _ _)

theorem natCast_mul_nonneg (k p : Nat) : 0 ≤ (k : Int) * p := Int.mul_nonneg (Int.natCast_nonneg k) (Int.natCast_nonneg p)

theorem nonneg_of_int_lt {d : Dy} {k : Nat} (h : (k : Int) * pow2 (-d.e) < d.n * pow2 d.e) : 0 ≤ d.n := by
  refine Int.not_lt.1 fun hneg => ?_
  have hle : d.n * pow2 d.e ≤ 0 := Int.mul_nonpos_of_nonpos_of_nonneg (Int.le_of_lt hneg) (Int.natCast_nonneg _)
  have hge := natCast_mul_nonneg k (pow2 (-d.e))
  omega

theorem neg_of_lt_int {d : Dy} {k : Nat} (h : d.n * pow2 d.e < -((k : Int) * pow2 (-d.e))) : d.n < 0 := by
  refine Int.not_le.1 fun hpos => ?_
  have hle : 0 ≤ d.n * pow2 d.e := Int.mul_nonneg hpos (Int.natCast_nonneg _)
  have hge := natCast_mul_nonneg k (pow2 (-d.e))
  omega

theorem le_round_of_int_lt (rm : Nat) {d : Dy} {k : Nat} (h : (Dy.int k).lt d = true) : (k : Int) ≤ d.round rm := by
  rw [int_lt_iff] at h
  have hn := nonneg_of_int_lt h
  have hk : k * pow2 (-d.e) ≤ d.n.natAbs * pow2 d.e := by
    rw [← Int.ofNat_le, Int.natCast_mul, Int.natCast_mul, Int.natAbs_of_nonneg hn]
    exact Int.le_of_lt h
  rw [round_eq, if_neg (Int.not_lt.2 hn)]
  exact Int.ofNat_le.2 (le_roundedMag rm false (pow2_pos _) hk)

theorem round_le_of_lt_int (rm : Nat) {d : Dy} {k : Nat} (h : d.lt (Dy.int (-k)) = true) : d.round rm ≤ -(k : Int) := by
  rw [lt_int_iff, Int.neg_mul] at h
  have hn := neg_of_lt_int h
  have hk : k * pow2 (-d.e) ≤ d.n.natAbs * pow2 d.e := by
    rw [← Int.ofNat_le, Int.natCast_mul, Int.natCast_mul, Int.ofNat_natAbs_of_nonpos (Int.le_of_lt hn), Int.neg_mul]
    omega
  rw [round_eq, if_pos hn]
  exact Int.neg_le_neg (Int.ofNat_le.2 (le_roundedMag rm true (pow2_pos _) hk))

/-! ### F2I -/

/-- The low end of F2I's target range. -/
def rangeLow (uns : Bool) : Int := if uns then 0 else -(2 ^ 31)

/-- The high end of F2I's target range. -/
def rangeHigh (uns : Bool) : Int := if uns then 2 ^ 32 - 1 else 2 ^ 31 - 1

theorem f2i_of_isNan {x : Nat} (rm : Nat) (uns : Bool) (h : isNan fp32 x = true) : f2i rm uns x = 0 := by
  unfold isNan at h
  unfold f2i
  split at h <;> simp_all

theorem f2i_of_inf {x : Nat} {neg : Bool} (rm : Nat) (uns : Bool) (h : decF fp32 x = .inf neg) :
    f2i rm uns x = wrap 32 (if neg then rangeLow uns else rangeHigh uns) := by
  simp [f2i, h, rangeLow, rangeHigh]

theorem f2i_of_isFin {x : Nat} (rm : Nat) (uns : Bool) (h : isFin fp32 x = true) :
    f2i rm uns x = wrap 32 (if (val32 x).round rm < rangeLow uns then rangeLow uns
      else if (val32 x).round rm > rangeHigh uns then rangeHigh uns else (val32 x).round rm) := by
  unfold isFin at h
  unfold f2i val32 valF rangeLow rangeHigh
  split at h
  · rename_i e
    rw [e]
  · cases h

theorem f2i_of_rangeHigh_le {x : Nat} {rm : Nat} {uns : Bool} (hfin : isFin fp32 x = true)
    (h : rangeHigh uns ≤ (val32 x).round rm) : f2i rm uns x = wrap 32 (rangeHigh uns) := by
  have hr : rangeLow uns ≤ rangeHigh uns := by cases uns <;> decide
  rw [f2i_of_isFin rm uns hfin, if_neg (by omega)]
  split
  · rfl
  · rw [show (val32 x).round rm = rangeHigh uns by omega]

theorem f2i_of_le_rangeLow {x : Nat} {rm : Nat} {uns : Bool} (hfin : isFin fp32 x = true)
    (h : (val32 x).round rm ≤ rangeLow uns) : f2i rm uns x = wrap 32 (rangeLow uns) := by
  have hr : rangeLow uns ≤ rangeHigh uns := by cases uns <;> decide
  rw [f2i_of_isFin rm uns hfin]
  split
  · rfl
  · rw [if_neg (by omega), show (val32 x).round rm = rangeLow uns by omega]

/-- NaN to 0, and what is beyond the target range to its nearest end, in every direction of rounding (R438). -/
theorem f2i_limits (rm x : Nat) :
    (isNan fp32 x = true → f2i rm false x = 0 ∧ f2i rm true x = 0) ∧
    (∀ neg : Bool, decF fp32 x = .inf neg →
      f2i rm false x = (if neg then 0x80000000 else 0x7FFFFFFF) ∧ f2i rm true x = (if neg then 0 else 0xFFFFFFFF)) ∧
    (isFin fp32 x = true →
      ((Dy.int (2 ^ 31 - 1)).lt (val32 x) = true → f2i rm false x = 0x7FFFFFFF) ∧
      ((val32 x).lt (Dy.int (-2 ^ 31)) = true → f2i rm false x = 0x80000000) ∧
      ((Dy.int (2 ^ 32 - 1)).lt (val32 x) = true → f2i rm true x = 0xFFFFFFFF) ∧
      ((val32 x).lt (Dy.int 0) = true → f2i rm true x = 0)) := by
  refine ⟨fun h => ⟨f2i_of_isNan rm false h, f2i_of_isNan rm true h⟩, fun neg h => ?_,
    fun hfin => ⟨fun h => ?_, fun h => ?_, fun h => ?_, fun h => ?_⟩⟩
  · rw [f2i_of_inf rm false h, f2i_of_inf rm true h]
    cases neg <;> decide
  · exact f2i_of_rangeHigh_le hfin (le_round_of_int_lt rm (k := 2 ^ 31 - 1) h)
  · exact f2i_of_le_rangeLow hfin (round_le_of_lt_int rm (k := 2 ^ 31) h)
  · exact f2i_of_rangeHigh_le hfin (le_round_of_int_lt rm (k := 2 ^ 32 - 1) h)
  · exact f2i_of_le_rangeLow hfin (round_le_of_lt_int rm (k := 0) h)

/-! ### I2F -/

theorem reg_lt (g : Group) (l r : Nat) : g.reg l r < 2 ^ 32 := by
  unfold Group.reg
  split
  · decide
  · exact Nat.mod_lt _ (by decide)

theorem srcA_toNat (g : Group) (w l : Nat) : (srcA g w l).toNat = g.reg l (wA w) := by
  rw [srcA, BitVec.toNat_ofNat, Nat.mod_eq_of_lt (reg_lt g l (wA w))]

theorem srcA_toInt (g : Group) (w l : Nat) : (srcA g w l).toInt = signed 32 (g.reg l (wA w)) := by
  have h := reg_lt g l (wA w)
  rw [BitVec.toInt_eq_toNat_cond, srcA_toNat, signed, Nat.mod_eq_of_lt h]
  by_cases hlt : g.reg l (wA w) < 2 ^ 31
  · rw [if_pos (by omega), if_pos hlt]
  · rw [if_neg (by omega), if_neg hlt]
    rfl

/-- I2F rounds the integer of A with MOD[1:0] (R438); MOD[3] tells an unsigned integer from a signed one. -/
theorem givesD_i2f : GivesD .i2f [0x41] fun _ g w l =>
    BitVec.ofNat 32 (fOfInt (wMod w % 4) (if (wMod w).testBit 3 then ((srcA g w l).toNat : Int) else (srcA g w l).toInt)) := by
  simp only [srcA_toNat, srcA_toInt]
  exact givesD_of_writesD fun _ _ _ => rfl

/-- Settles O7: F2I compares the rounded number with the ends of the range, and I2F is an instruction that writes D lane by lane. -/
theorem integerConversionLimits : Obligations.IntegerConversionLimits :=
  ⟨givesD_i2f, fun rm x _ => f2i_limits rm x⟩

end Sys2Proof.IntegerConversion
end
